-- ==== Sys2Proof/Word.lean ====
section
/-!
DEFINITION. Sys2Proof/Word.lean: the word types of the device and nothing else.  Widths are those the manual gives
(R3, R4, R135, R172, R217); every helper that reads fields out of them lives in files a repair may mend.
-/
namespace Sys2Proof

/-- A byte of memory or scratch (R3). -/
abbrev Byte := BitVec 8

/-- A 32-bit lane of an instruction line (R77). -/
abbrev Lane := BitVec 32

/-- A 64-bit scalar, card word, header word or special register (R135, R28). -/
abbrev Word := BitVec 64

/-- A 512-bit vector register or queue datum (R217). -/
abbrev Vec := BitVec 512

/-- A 256-bit handle register (R172). -/
abbrev Handle := BitVec 256

/-- A 16-byte granule (R181). -/
abbrev Gran := BitVec 128

/-- A 56-bit accumulator element (R237). -/
abbrev Acc := BitVec 56

end Sys2Proof
end

