-- ==== Sys2Proof/Machine/Bits.lean ====
section
/-!
DEFINITION. Sys2Proof/Machine/Bits.lean: bit fields, little-endian bytes and sparse maps.
-/
namespace Sys2Proof.Machine
open Sys2Proof

/-- Bits hi : lo of a number. -/
def bits (w hi lo : Nat) : Nat := w / 2 ^ lo % 2 ^ (hi + 1 - lo)
/-- Bit n of a number. -/
def bit (w n : Nat) : Bool := w / 2 ^ n % 2 == 1
/-- A truth value as 0 or 1. -/
def b2n (b : Bool) : Nat := if b then 1 else 0
/-- Number w with bits hi : lo replaced by v. -/
def putBits (w hi lo v : Nat) : Nat :=
  w - bits w hi lo * 2 ^ lo + v % 2 ^ (hi + 1 - lo) * 2 ^ lo
/-- The low n bits of w as a signed integer. -/
def sgn (n w : Nat) : Int :=
  if 2 ^ n ≤ 2 * (w % 2 ^ n) then (w % 2 ^ n : Int) - (2 ^ n : Nat) else (w % 2 ^ n : Nat)
/-- An integer modulo 2^n. -/
def wrap (n : Nat) (i : Int) : Nat := (i % (2 ^ n : Nat)).toNat
/-- A 64-bit word. -/
def w64 (n : Nat) : Word := BitVec.ofNat 64 n

/-- The little-endian bytes of a number (R3). -/
def toBytes : Nat → Nat → List Byte
  | 0, _ => []
  | n + 1, v => BitVec.ofNat 8 v :: toBytes n (v / 256)
/-- The number whose little-endian bytes are given (R3). -/
def ofBytes : List Byte → Nat
  | [] => 0
  | b :: r => b.toNat + 256 * ofBytes r

/-- lo, lo + 1, … (n numbers). -/
def upto (lo : Nat) : Nat → List Nat
  | 0 => []
  | n + 1 => lo :: upto (lo + 1) n

/-! ### Sparse maps with strictly rising keys -/

/-- The entry at k. -/
def mget {α : Type} : List (Nat × α) → Nat → Option α
  | [], _ => none
  | (i, x) :: r, k => if k = i then some x else if k < i then none else mget r k
/-- Write the entry at k. -/
def mset {α : Type} : List (Nat × α) → Nat → α → List (Nat × α)
  | [], k, v => [(k, v)]
  | (i, x) :: r, k, v =>
    if k = i then (i, v) :: r else if k < i then (k, v) :: (i, x) :: r else (i, x) :: mset r k v
/-- Remove the entry at k. -/
def mdel {α : Type} : List (Nat × α) → Nat → List (Nat × α)
  | [], _ => []
  | (i, x) :: r, k => if k = i then r else if k < i then (i, x) :: r else (i, x) :: mdel r k
/-- The entry at k, or a default. -/
def mgetD {α : Type} (m : List (Nat × α)) (k : Nat) (d : α) : α := (mget m k).getD d
/-- Write v at k in a map in which an absent entry stands for d. -/
def mput {α : Type} [DecidableEq α] (d : α) (m : List (Nat × α)) (k : Nat) (v : α) : List (Nat × α) :=
  if v = d then mdel m k else mset m k v
/-- Keys strictly rising from lo up. -/
def risingFrom {α : Type} : Nat → List (Nat × α) → Bool
  | _, [] => true
  | lo, (i, _) :: r => decide (lo ≤ i) && risingFrom (i + 1) r
/-- Entries with keys from lo to below hi removed. -/
def mcut {α : Type} (m : List (Nat × α)) (lo hi : Nat) : List (Nat × α) :=
  m.filter fun e => !(decide (lo ≤ e.1) && decide (e.1 < hi))

/-- Element n of a list, or a default. -/
def nth {α : Type} (l : List α) (n : Nat) (d : α) : α := l.getD n d
/-- Replace element n of a list. -/
def setNth {α : Type} (l : List α) (n : Nat) (x : α) : List α := l.set n x
/-- Word n of a parameter block. -/
def wd (l : List Word) (n : Nat) : Nat := (l.getD n 0).toNat

/-- Put x in its place in a list ordered by le, before the first element it is not above. -/
def sortIn {α : Type} (le : α → α → Bool) (x : α) : List α → List α
  | [] => [x]
  | y :: r => if le x y then x :: y :: r else y :: sortIn le x r
/-- A list ordered by le; equal elements keep their order. -/
def sortBy {α : Type} (le : α → α → Bool) (l : List α) : List α := l.foldr (sortIn le) []

/-- floor(log2 n), 0 for 0. -/
def log2 (n : Nat) : Nat := n.log2
/-- Bits needed to write n. -/
def bitLen (n : Nat) : Nat := if n = 0 then 0 else n.log2 + 1
/-- Number of one bits among the low n. -/
def popc : Nat → Nat → Nat
  | 0, _ => 0
  | n + 1, w => w % 2 + popc n (w / 2)
/-- Trailing zeros among the low n. -/
def ctzN : Nat → Nat → Nat
  | 0, _ => 0
  | n + 1, w => if w % 2 = 1 then 0 else ctzN n (w / 2) + 1

end Sys2Proof.Machine
end

