-- ==== Sys2Proof/Syntax.lean ====
section
/-!
DEFINITION. Sys2Proof/Syntax.lean: the instructions.  One constructor of `Instr` for every row of
spec/opcode_table.json: the forms the three streams issue (Tables 7 to 11 of 06_encodings.md) and then the events
that the host, Campion, the engines and the package take (the rows of the table that carry no encoding).
A field that has a fixed set of values is an inductive type; a register field is a number below its count.
-/
namespace Sys2Proof

/-- The three instruction streams of a core (R77). -/
inductive Stm where
  | c | a | v
  deriving DecidableEq, Repr

/-- The opcode spaces that a lane's tag chooses (R94): C, A and V each share the common opcodes 0x00 to 0x3F. -/
inductive Space where
  | c | a | v | all
  deriving DecidableEq, Repr

/-- The guard field of a first lane (R94, R95): NG and GP. -/
structure Guard where
  ng : Bool
  gp : Fin 8
  deriving DecidableEq, Repr

/-- The head of a first lane outside the ALL space (R94): the guard and the four token bits. -/
structure Head where
  g  : Guard
  pn : Bool
  pp : Bool
  wn : Bool
  wp : Bool
  deriving DecidableEq, Repr

/-- A scalar register field, s0 to s31 (R97). -/
abbrev SIx := Fin 32
/-- A predicate field, p0 to p7 (R97). -/
abbrev PIx := Fin 8
/-- A handle field, h0 to h15 (R97). -/
abbrev HIx := Fin 16
/-- A shape-record field, t0 to t15 (R97). -/
abbrev TIx := Fin 16

/-- The type codes of R113; `bx k` is BXm with m = k + 2. -/
inductive Ty where
  | i8 | n8 | i16 | n16 | i32 | n32 | i64 | n64
  | bf16 | f16 | f32 | e4m3 | e5m2 | i4 | n4
  | bx (k : Fin 7)
  | a56 | i56 | p56
  deriving DecidableEq, Repr

/-- Rounding modes (R98). -/
inductive RM where
  | rne | rna | rtz | rup | rdn
  deriving DecidableEq, Repr

/-- Combining types of compares (R98, R147). -/
inductive CT where
  | normal | unc | and | or | andor | orand
  deriving DecidableEq, Repr

/-- Condition codes (R98); a trailing n is unsigned. -/
inductive CC where
  | eq | ne | lt | ge | ltn | gen | le | gt | len | gtn
  deriving DecidableEq, Repr

/-- Scopes (R98, R262). -/
inductive Scp where
  | core | die | dev | sys
  deriving DecidableEq, Repr

/-- Orders (R98). -/
inductive Ord where
  | rlx | acq | rel | acqrel
  deriving DecidableEq, Repr

/-- Full/empty code (R98): for loads plain, wait full, wait full and clear; for stores plain, wait empty and set
full, set full without waiting. -/
inductive Fe where
  | plain | one | two
  deriving DecidableEq, Repr

/-- Clipping codes (R98, R194). -/
inductive Clip where
  | none | zero | clamp
  deriving DecidableEq, Repr

/-- Atomic operations (R98). -/
inductive AOp where
  | swap | add | and | or | xor | min | max | minn | maxn
  deriving DecidableEq, Repr

/-- Element widths 8, 16, 32 and 64 (R97). -/
inductive Ew where
  | w8 | w16 | w32 | w64
  deriving DecidableEq, Repr

/-- The second operand of CMP: SB with I = 0, IMM27 with I = 1 (R146). -/
inductive CmpRhs where
  | reg (b : SIx)
  | imm (i : BitVec 27)
  deriving DecidableEq, Repr

/-- Special registers (R137). -/
inductive Spr where
  | cycle | rtime | tflags | win | tkcnt | lseq | prio | trapinfo | svcmode | rsdepth
  | coreid | lcores | config | llcsz | ithresh
  | trip (n : Fin 8)
  | frame | jcard | jblock
  | jarg (n : Fin 4)
  | lc (n : Fin 8)
  | llim (n : Fin 8)
  deriving DecidableEq, Repr

/-- The INJ word (R162): KIND 0 flips an accumulator bit, 1 poisons scratch, 2 makes the shadow miscompare. -/
inductive InjKind where
  | accBit (acc : Fin 4) (row col bit : Fin 64)
  | scratchPoison
  | shadowMismatch
  deriving DecidableEq, Repr

/-- Field selectors of HGET (R190). -/
inductive HField where
  | valid | kind | path | tier | log2sz | atc | ro | extid | perm | frame | base | len
  deriving DecidableEq, Repr

/-- Field selectors of TGET (R190). -/
inductive TField where
  | whole | type | place | rows | cols | rstride
  deriving DecidableEq, Repr

/-- The semaphore fields of an EL or ML lane (R97): wait on SEMW when WEN, signal SEMS when SEN. -/
structure Sems where
  wen  : Bool
  semw : Fin 16
  sen  : Bool
  sems : Fin 16
  deriving DecidableEq, Repr

/-- The FLG field of a copy-engine form (R205 Table 3). -/
structure CopyFlags where
  clip : Clip
  bps  : Bool
  bpd  : Bool
  sfe  : Fe
  dwe  : Bool
  evt  : Bool
  deriving DecidableEq, Repr

/-- The accumulator choice of MMUL (R238): ACC, or a loop counter modulo AR + 1. -/
inductive SetSel where
  | acc (n : Fin 4)
  | loop (ln : Fin 8) (ar : Fin 4)
  deriving DecidableEq, Repr

/-- Vector source operands (R97 Table 3): v0 to v15, q4 to q7, the zero vector. -/
inductive VSrc where
  | v (n : Fin 16)
  | q (n : Fin 4)
  | z
  deriving DecidableEq, Repr

/-- Vector destination operands (R97 Table 3): v0 to v15, q8, discarded. -/
inductive VDst where
  | v (n : Fin 16)
  | q8
  | z
  deriving DecidableEq, Repr

/-- A packet that reaches Speedwell from a peer (R336, R340 to R344): its context and group, the attempt number, the
source rank and what it carries. -/
inductive PacketBody where
  /-- bytes of rank `src`'s part of a collective: kind 0 a bucket of indices (R340), 1 vectors in the order of the sender's
  bucket (R341), 2 to 4 the element values of an all-reduce of SUB 0 to 2 (R342); `nel` is the all-reduce's element count -/
  | part (kind nel : Nat) (bs : List Byte)
  /-- an acknowledgement of a packet -/
  | ack
  /-- bytes of a one-sided write of `len` bytes at offset `off` of inbound buffer `buf` (R343) -/
  | put (buf off len : Nat) (data : List Byte) (flag : Option (Nat × Word))
  /-- the answer to a packet of this device's XPUT -/
  | putAck (refused : Bool)
  /-- rank `src` runs another collective or another element count here (R345) -/
  | mismatch
  /-- an abort token: the packet's attempt number is the new one (R344) -/
  | token
  /-- a packet that needs a feature outside Table 5 of 17_index_and_exchange.md (R336) -/
  | unsupported
  deriving DecidableEq, Repr

/-- Payload bytes of a packet (R336). -/
def PacketBody.payload : PacketBody → Nat
  | .part _ _ bs => bs.length
  | .put _ _ _ data _ => data.length
  | _ => 0

/-- A packet (R336, R344): the port that carries it, context, group, attempt, collective sequence number (a one-sided
write's message number), source rank, the sender's number of the packet or, in an answer, of the packet answered, which of
how many packets of its message it is, body. -/
structure Packet where
  port  : Fin 8
  ctx   : Fin 8
  grp   : Fin 64
  att   : BitVec 16
  cseq  : Nat
  src   : Nat
  id    : Nat
  frag  : Nat
  frags : Nat
  body  : PacketBody
  deriving DecidableEq, Repr

/-- Where an ECC event strikes (R183, R372). -/
inductive ErrSite where
  /-- an HBM4E (`lp = false`) or LPDDR-6 channel, its bank and row, and a physical byte address in it -/
  | dram (lp : Bool) (channel bank row addr : Nat) (movable : Bool)
  /-- a scratch granule of a core -/
  | scratch (core granule : Nat)
  /-- a granule of the elastic scratch of a gang: its context, card and number (R184) -/
  | elastic (ctx : Fin 8) (card gang granule : Nat)
  deriving DecidableEq, Repr

/-- Where a CRC error strikes (R372, R373). -/
inductive CrcSite where
  | hbm (channel lane : Nat)
  | dieToDie (bundle lane : Nat)
  | ethernet (port lane : Nat)
  deriving DecidableEq, Repr

/-- A firmware image (R400): its body, the digest it carries, its security version and its signature. -/
structure FwImage where
  body    : List Byte
  digest  : BitVec 512
  version : BitVec 32
  sig     : List Byte
  deriving DecidableEq, Repr

/-- A firmware image that the host writes while the module is in recovery (R399): into slot B or A, for boot stage 2 or 1. -/
structure FwWrite where
  slotB : Bool
  main  : Bool
  image : FwImage
  deriving DecidableEq, Repr

/-- What the package shows a regular step besides its power (R398, R403): the temperature of each die in °C, and the input in
units of 10 mV. -/
structure StepInput where
  temp0 : Nat
  temp1 : Nat
  input : Nat
  deriving DecidableEq, Repr

/-- What the package shows a boot (R70, R373, R380, R399): the firmware images written since it stopped in recovery, physical
cores that fail self-test, lanes that fail training, whether each die-to-die bundle trained, host link width, and the bank
energy measured in mJ. -/
structure BootInput where
  written    : List FwWrite
  badCores   : List Nat
  badLanes   : List CrcSite
  bundlesOk  : Bool
  hostLanes  : Nat
  energy     : Nat
  deriving DecidableEq, Repr

/-- The instructions: one constructor per row of spec/opcode_table.json. -/
inductive Instr where
  -- common space (R102; R141 to R152, R161)
  | add (h : Head) (d a b : SIx) (w : Bool)
  | sub (h : Head) (d a b : SIx) (w : Bool)
  | mul (h : Head) (d a b : SIx) (w : Bool)
  | mulh (h : Head) (d a b : SIx) (w : Bool)
  | mulhn (h : Head) (d a b : SIx) (w : Bool)
  | div (h : Head) (d a b : SIx) (w : Bool)
  | divn (h : Head) (d a b : SIx) (w : Bool)
  | rem (h : Head) (d a b : SIx) (w : Bool)
  | remn (h : Head) (d a b : SIx) (w : Bool)
  | and (h : Head) (d a b : SIx) (w : Bool)
  | or (h : Head) (d a b : SIx) (w : Bool)
  | xor (h : Head) (d a b : SIx) (w : Bool)
  | shl (h : Head) (d a b : SIx) (w : Bool)
  | shr (h : Head) (d a b : SIx) (w : Bool)
  | sar (h : Head) (d a b : SIx) (w : Bool)
  | rotl (h : Head) (d a b : SIx) (w : Bool)
  | addi (h : Head) (d a : SIx) (imm : BitVec 6)
  | muli (h : Head) (d a : SIx) (imm : BitVec 6)
  | andi (h : Head) (d a : SIx) (imm : BitVec 6)
  | ori (h : Head) (d a : SIx) (imm : BitVec 6)
  | xori (h : Head) (d a : SIx) (imm : BitVec 6)
  | shli (h : Head) (d a : SIx) (imm : BitVec 6)
  | shri (h : Head) (d a : SIx) (imm : BitVec 6)
  | sari (h : Head) (d a : SIx) (imm : BitVec 6)
  | rotli (h : Head) (d a : SIx) (imm : BitVec 6)
  | clz (h : Head) (d a : SIx)
  | ctz (h : Head) (d a : SIx)
  | popc (h : Head) (d a : SIx)
  | mov (h : Head) (d a : SIx)
  | flgclr (h : Head) (code : BitVec 8)
  | movi (h : Head) (d : SIx) (imm : BitVec 11)
  | movil (h : Head) (d : SIx) (imm : BitVec 32)
  | moviq (h : Head) (d : SIx) (imm : BitVec 64)
  | addil (h : Head) (d a : SIx) (imm : BitVec 32)
  | min (h : Head) (d a b : SIx)
  | max (h : Head) (d a b : SIx)
  | minn (h : Head) (d a b : SIx)
  | maxn (h : Head) (d a b : SIx)
  | path (h : Head) (d a : SIx) (n : BitVec 6)
  | extr (h : Head) (d a : SIx) (pos len : BitVec 6) (sg : Bool)
  | insr (h : Head) (d a : SIx) (pos len : BitVec 6)
  | cmp (h : Head) (pd pe : PIx) (ct : CT) (cc : CC) (a : SIx) (rhs : CmpRhs)
  | tbit (h : Head) (pd pe : PIx) (ct : CT) (cc : CC) (a : SIx) (n : BitVec 6)
  | pand (h : Head) (pd pa pb : PIx) (na nb : Bool)
  | por (h : Head) (pd pa pb : PIx) (na nb : Bool)
  | pxor (h : Head) (pd pa pb : PIx) (na nb : Bool)
  | pget (h : Head) (d : SIx)
  | pput (h : Head) (a : SIx)
  | qsend (h : Head) (a : SIx) (q : Fin 32)
  | qrecv (h : Head) (d : SIx) (q : Fin 32)
  | qtest (h : Head) (d : SIx) (q : Fin 32)
  | mfsr (h : Head) (d : SIx) (r : Spr)
  | mtsr (h : Head) (a : SIx) (r : Spr)
  | nop (h : Head)
  | brk (h : Head) (code : BitVec 8)
  -- C space: scalar FP32, traps (R149 to R151, R159, R162)
  | fadd (h : Head) (d a b : SIx) (rm : RM) (sat : Bool)
  | fsub (h : Head) (d a b : SIx) (rm : RM) (sat : Bool)
  | fmul (h : Head) (d a b : SIx) (rm : RM) (sat : Bool)
  | fdiv (h : Head) (d a b : SIx) (rm : RM) (sat : Bool)
  | fma (h : Head) (d a b c : SIx) (rm : RM) (sat : Bool)
  | fmin (h : Head) (d a b : SIx)
  | fmax (h : Head) (d a b : SIx)
  | fsqrt (h : Head) (d a : SIx) (rm : RM) (sat : Bool)
  | fcvt (h : Head) (d a : SIx) (ty tz : Ty) (rm : RM) (sat : Bool)
  | fcmp (h : Head) (pd pe : PIx) (ct : CT) (cc : CC) (a b : SIx)
  | fneg (h : Head) (d a : SIx)
  | fabs (h : Head) (d a : SIx)
  | trap (h : Head) (code : BitVec 8)
  | inj (h : Head) (d a : SIx) (k : InjKind)
  -- C space: translation and handles (R174, R175, R189 to R192)
  | xlate (h : Head) (hd : HIx) (a b : SIx)
  | probe (h : Head) (d a : SIx)
  | hloc (h : Head) (hd : HIx) (a b : SIx)
  | hmov (h : Head) (hd hs : HIx)
  | hsub (h : Head) (hd hs : HIx) (t : TIx) (i j : SIx)
  | hget (h : Head) (d : SIx) (hs : HIx) (f : HField)
  | tset (h : Head) (td : TIx) (imm : BitVec 64)
  | tget (h : Head) (d : SIx) (ts : TIx) (f : TField)
  -- C and A spaces: scalar access (R197 to R201)
  | ld (h : Head) (hs : HIx) (d b : SIx) (ty : Ty) (fe : Fe) (disp : BitVec 21)
  | st (h : Head) (hs : HIx) (a b : SIx) (ty : Ty) (fe : Fe) (disp : BitVec 21)
  | ldl (h : Head) (hs : HIx) (d b : SIx) (ty : Ty) (disp : BitVec 21)
  | gtest (h : Head) (hs : HIx) (d b : SIx) (disp : BitVec 21)
  | gset (h : Head) (hs : HIx) (a b : SIx) (disp : BitVec 21)
  | amo (h : Head) (hs : HIx) (d b : SIx) (ty : Ty) (ord : Ord) (scp : Scp) (disp : BitVec 21) (v : SIx) (op : AOp)
  | acas (h : Head) (hs : HIx) (d b : SIx) (ty : Ty) (ord : Ord) (scp : Scp) (disp : BitVec 21) (v e : SIx)
  -- C space: copy engine (R205, R213, R214)
  | copy (h : Head) (hd hs : HIx) (td ts : TIx) (i j : SIx) (s : Sems) (q : Fin 4) (f : CopyFlags)
  | fill (h : Head) (hd : HIx) (td : TIx) (i : SIx) (s : Sems) (q : Fin 4) (bpd dwe evt : Bool)
  | gather (h : Head) (hd hs : HIx) (td ts : TIx) (i j : SIx) (s : Sems) (q : Fin 4) (f : CopyFlags)
  | scatter (h : Head) (hd hs : HIx) (td ts : TIx) (i j : SIx) (s : Sems) (q : Fin 4) (f : CopyFlags)
  | tring (h : Head) (ring : Fin 8) (hs : HIx) (ts : TIx) (i j : SIx) (s : Sems) (q : Fin 4) (f : CopyFlags)
  | ccancel (h : Head) (q : Fin 4)
  | evpop (h : Head) (d e : SIx)
  -- C space: matrix engine (R241, R245, R248, R253, R254)
  | mfmt (h : Head) (a : SIx)
  | mfmti (h : Head) (fmt : BitVec 32)
  | mmul (h : Head) (ra rb : Fin 8) (sel : SetSel) (mm1 nm1 : Fin 64) (ks : Fin 1024) (s : Sems)
  | mzero (h : Head) (acc : Fin 4)
  | accld (h : Head) (acc : Fin 4) (hs : HIx) (t : TIx) (i j : SIx)
  | accst (h : Head) (acc : Fin 4) (hs : HIx) (t : TIx) (i j : SIx)
  | ringcfg (h : Head) (rn : Fin 8) (a b : SIx)
  | ringrel (h : Head) (rn : Fin 8)
  | ringq (h : Head) (d : SIx) (rn : Fin 8)
  -- C space: synchronisation, tags, jobs (R279 to R286)
  | bar (h : Head) (n : Fin 16)
  | semsig (h : Head) (n : Fin 16) (a : SIx)
  | semwait (h : Head) (n : Fin 16) (a : SIx)
  | semrd (h : Head) (d : SIx) (n : Fin 16)
  | tagpub (h : Head) (slot : Fin 4) (a : SIx)
  | tagpubP (h : Head) (slot : Fin 4) (a : SIx)
  | tagtest (h : Head) (d : SIx) (bn : Fin 4) (a : SIx)
  | jpatch (h : Head) (d a b : SIx) (word : Fin 32)
  | jarm (h : Head) (d a : SIx)
  | jstat (h : Head) (d a : SIx)
  -- C space: package engines (R290, R304, R310, R322, R325, R330, R339, R344); `sig` is SEN with SEMS
  | pool (h : Head) (a : SIx) (sig : Option (Fin 16))
  | poolPop (h : Head) (d : SIx)
  | hotqLook (h : Head) (a : SIx) (sig : Option (Fin 16))
  | hotqFill (h : Head) (a : SIx) (sig : Option (Fin 16))
  | hotqInv (h : Head) (a : SIx) (sig : Option (Fin 16))
  | hotqDrops (h : Head) (a : SIx) (sig : Option (Fin 16))
  | skqEst (h : Head) (a : SIx) (sig : Option (Fin 16))
  | skqClr (h : Head) (a : SIx) (sig : Option (Fin 16))
  | scupdSgd (h : Head) (a : SIx) (sig : Option (Fin 16))
  | scupdAdagrad (h : Head) (a : SIx) (sig : Option (Fin 16))
  | scupdAdam (h : Head) (a : SIx) (sig : Option (Fin 16))
  | nmrun (h : Head) (a : SIx) (sig : Option (Fin 16))
  | nmstat (h : Head) (d a : SIx)
  | ixwalk (h : Head) (a : SIx) (sig : Option (Fin 16))
  | ixwalkPop (h : Head) (d : SIx)
  | a2aIdx (h : Head) (a : SIx) (sig : Option (Fin 16))
  | a2aVec (h : Head) (a : SIx) (sig : Option (Fin 16))
  | a2aPop (h : Head) (d : SIx)
  | xredSum (h : Head) (a : SIx) (sig : Option (Fin 16))
  | xredMin (h : Head) (a : SIx) (sig : Option (Fin 16))
  | xredMax (h : Head) (a : SIx) (sig : Option (Fin 16))
  | xput (h : Head) (a : SIx) (sig : Option (Fin 16))
  | xabort (h : Head) (a : SIx)
  -- A space (R202 to R204)
  | ldq (h : Head) (hs : HIx) (t : TIx) (q : Fin 4) (i j : SIx) (clip : Clip) (fe : Fe) (bp : Bool)
  | stq (h : Head) (hs : HIx) (t : TIx) (i j : SIx) (clip : Clip) (fe : Fe) (bp : Bool)
  | qsplat (h : Head) (q : Fin 4) (a : SIx) (ew : Ew)
  -- V space (R222 to R234)
  | vadd (h : Head) (d : VDst) (a b : VSrc) (ty : Ty) (rm : RM) (sat : Bool)
  | vsub (h : Head) (d : VDst) (a b : VSrc) (ty : Ty) (rm : RM) (sat : Bool)
  | vmul (h : Head) (d : VDst) (a b : VSrc) (ty : Ty) (rm : RM) (sat : Bool)
  | vfma (h : Head) (d : VDst) (a b c : VSrc) (ty : Ty) (rm : RM) (sat : Bool)
  | vfms (h : Head) (d : VDst) (a b c : VSrc) (ty : Ty) (rm : RM) (sat : Bool)
  | vfnma (h : Head) (d : VDst) (a b c : VSrc) (ty : Ty) (rm : RM) (sat : Bool)
  | vdiv (h : Head) (d : VDst) (a b : VSrc) (ty : Ty) (rm : RM) (sat : Bool)
  | vmin (h : Head) (d : VDst) (a b : VSrc) (ty : Ty)
  | vmax (h : Head) (d : VDst) (a b : VSrc) (ty : Ty)
  | vabs (h : Head) (d : VDst) (a : VSrc) (ty : Ty) (sat : Bool)
  | vneg (h : Head) (d : VDst) (a : VSrc) (ty : Ty) (sat : Bool)
  | vmulh (h : Head) (d : VDst) (a b : VSrc) (ty : Ty)
  | vand (h : Head) (d : VDst) (a b : VSrc) (ty : Ty)
  | vor (h : Head) (d : VDst) (a b : VSrc) (ty : Ty)
  | vxor (h : Head) (d : VDst) (a b : VSrc) (ty : Ty)
  | vandn (h : Head) (d : VDst) (a b : VSrc) (ty : Ty)
  | vshl (h : Head) (d : VDst) (a b : VSrc) (ty : Ty)
  | vshr (h : Head) (d : VDst) (a b : VSrc) (ty : Ty)
  | vsar (h : Head) (d : VDst) (a b : VSrc) (ty : Ty)
  | vrcp (h : Head) (d : VDst) (a : VSrc) (rm : RM) (sat : Bool)
  | vrsq (h : Head) (d : VDst) (a : VSrc) (rm : RM) (sat : Bool)
  | vsqrt (h : Head) (d : VDst) (a : VSrc) (rm : RM) (sat : Bool)
  | vexp2 (h : Head) (d : VDst) (a : VSrc) (rm : RM) (sat : Bool)
  | vlog2 (h : Head) (d : VDst) (a : VSrc) (rm : RM) (sat : Bool)
  | vcvt (h : Head) (d : VDst) (a : VSrc) (ty tz : Ty) (rm : RM) (sat : Bool) (part : BitVec 13)
  | vcmp (h : Head) (pd pe : PIx) (ct : CT) (cc : CC) (a b : VSrc) (ty : Ty)
  | vsel (h : Head) (d : VDst) (s : PIx) (a b : VSrc) (ty : Ty)
  | vmov (h : Head) (d : VDst) (a : VSrc) (ty : Ty)
  | vsplat (h : Head) (d : VDst) (a : SIx) (ty : Ty)
  | vsplati (h : Head) (d : VDst) (imm : BitVec 13) (ty : Ty)
  | vext (h : Head) (d : SIx) (a : VSrc) (ty : Ty) (idx : BitVec 13)
  | vins (h : Head) (d : Fin 16) (a : SIx) (ty : Ty) (idx : BitVec 13)
  | vrsum (h : Head) (d : VDst) (a : VSrc) (ty : Ty) (rm : RM) (sat : Bool)
  | vrmax (h : Head) (d : VDst) (a : VSrc) (ty : Ty)
  | vrmin (h : Head) (d : VDst) (a : VSrc) (ty : Ty)
  | vramax (h : Head) (d : VDst) (a : VSrc) (ty : Ty)
  | vshuf (h : Head) (d : VDst) (a b : VSrc) (ty : Ty)
  | vperm (h : Head) (d : VDst) (a b c : VSrc) (ty : Ty)
  | vrot (h : Head) (d : VDst) (a : VSrc) (ty : Ty) (k : BitVec 13)
  | vpack (h : Head) (d : VDst) (a b : VSrc) (ty tz : Ty) (sat : Bool)
  | vunpk (h : Head) (d : VDst) (a : VSrc) (ty tz : Ty) (half : BitVec 13)
  | vclass (h : Head) (d : VDst) (a : VSrc) (ty : Ty)
  | vscale (h : Head) (d : VDst) (a b : VSrc) (ty : Ty) (rm : RM) (sat : Bool)
  | vrint (h : Head) (d : VDst) (a : VSrc) (ty : Ty) (rm : RM)
  | vsgn (h : Head) (d : VDst) (a b : VSrc) (ty : Ty)
  | vclz (h : Head) (d : VDst) (a : VSrc) (ty : Ty)
  | vpopc (h : Head) (d : VDst) (a : VSrc) (ty : Ty)
  | vrsumsq (h : Head) (d : VDst) (a : VSrc) (ty : Ty) (rm : RM) (sat : Bool)
  | vaccrd (h : Head) (d : VDst) (acc : Fin 4) (row : Fin 64) (seg : Fin 4) (ty tz : Ty) (rm : RM) (sat : Bool)
  | vaccwr (h : Head) (a : VSrc) (acc : Fin 4) (row : Fin 64) (seg : Fin 4) (ty tz : Ty) (rm : RM) (sat : Bool)
  | vmaski (h : Head) (pd : PIx) (ew : Ew) (n : BitVec 7)
  | vcntp (h : Head) (d : SIx) (pa : PIx)
  | vclamp (h : Head) (d : VDst) (a b c : VSrc) (ty : Ty)
  | viota (h : Head) (d : VDst) (ty : Ty)
  | vabd (h : Head) (d : VDst) (a b : VSrc) (ty : Ty) (rm : RM) (sat : Bool)
  -- ALL space (R106, R154 to R158, R160, R274 to R278)
  | br (g : Guard) (off : BitVec 16)
  | call (g : Guard) (off : BitVec 16)
  | bri (g : Guard) (a : SIx)
  | ret (g : Guard)
  | loopReg (g : Guard) (ln : Fin 8) (a : SIx)
  | loopImm (g : Guard) (ln : Fin 8) (cnt : BitVec 12)
  | endl (g : Guard) (ln : Fin 8) (off : BitVec 13)
  | lexit (g : Guard) (ln : Fin 8) (off : BitVec 13)
  | phase (g : Guard)
  | quiet (g : Guard)
  | trapf (g : Guard)
  | kend (g : Guard)
  | fence (g : Guard) (ord : Ord) (scp : Scp)
  -- events of the host (R39 to R41, R346, R362, R379, R390, R401 to R404)
  /-- a host write of `len` bytes at BAR2 offset `off` (R39) -/
  | cardWindowWrite (off len : Nat) (value : Word)
  | arm (ctx : Fin 8) (value : Word)
  | cqhead (ctx : Fin 8) (value : Word)
  | cstat (ctx : Fin 8) (value : Word)
  | cint (ctx : Fin 8) (value : Word)
  | mint (value : Word)
  | vectorUnmask (vector : Fin 17)
  | wdkick (ctx : Fin 8)
  | halt (ctx : Fin 8)
  | resume (ctx : Fin 8)
  | step (ctx : Fin 8) (stm : Stm)
  | stepall (ctx : Fin 8) (stm : Stm)
  | bbctl (value : Word)
  | hurel (value : Word)
  | mext (value : Word)
  | atreq (value : Word)
  | attestationReportDone
  /-- a host write of eight bytes at BAR0 offset `off` (R5, R40, R346, R361, R362, R403, R404) -/
  | registerWrite (off : Nat) (value : Word)
  -- the trusted command processor reads the record at RQHEAD (R404 Table 6); each of these takes the next request
  | createContext
  | destroyContext
  | writeExtent
  | revokeExtent
  | revocationComplete (ctx : Fin 8) (ext : Fin 16384)
  | revocationPhaseLimit (core : Nat)
  | translationFaultAnswer (core : Nat) (retry : Bool)
  | leaseChannel
  | endLease
  | leaseLapse (channel : Fin 64)
  | designateNearMemoryRegion
  | writeTableDescriptor
  | registerExchangeGroup
  | registerInboundBuffer
  | writePeerEntry
  | writeMustSaveEntry
  | withdrawMustSaveEntry
  | copyRecoveryReport
  | restoreSavedEntry
  | writeBootParameters
  | unknownRequest
  /-- the host writes `data` from physical byte address `addr` up (R265, R303) -/
  | hostLinkWrite (addr : Nat) (data : List Byte)
  -- events of Campion (R32 to R68, R348 to R352, R359, R392)
  /-- the next arm request of a context's ARM register (`core = none`) or of the q24 of a core -/
  | armRequest (ctx : Fin 8) (core : Option Nat)
  | patchRequest (core : Nat)
  | campionAnswer (core : Nat)
  | tagPublication (core : Nat)
  | launch
  | gangPlacement
  | aging
  | preemption
  | blockRetirement (core : Nat)
  | watchdogExpiry (ctx : Fin 8)
  | queueStarvation (core : Nat)
  | variantRunStart (ctx : Fin 8) (card : Fin 4096)
  -- events of the engines
  | matrixCommand (core : Nat)
  | kStep (core : Nat)
  | matrixRetirement (core : Nat)
  | accumulatorWindowWrite (core : Nat)
  | copyCommand (core : Nat) (q : Fin 4)
  | copyCompletion (core : Nat) (q : Fin 4)
  | poolUnitCommand (core : Nat)
  | poolUnitCompletion (core : Nat)
  | sketchDecay (ctx : Fin 8) (tid : Fin 1024)
  | scatterUpdateCommand (core : Nat)
  | rowCommit (core : Nat)
  | scatterUpdateCompletion (core : Nat)
  | nearMemoryRun (unit : Fin 64)
  | unitPause (unit : Fin 64)
  | nearMemoryCompletion (run : Nat)
  | teaselSegment (core : Nat)
  | speedwellCommand (core : Nat)
  | inboundPacket (p : Packet)
  | abortToken (group : Fin 64) (ctx : Fin 8) (att : BitVec 16)
  | retransmissionTimeout (packet : Nat)
  | collectiveTimeout (core : Nat) (seq : Nat)
  | speedwellCompletion (core : Nat) (seq : Nat)
  -- events of the memory, the links and the package
  | correctableError (site : ErrSite)
  | uncorrectableError (site : ErrSite)
  | crcError (site : CrcSite)
  | counterWindowExpiry (counter : Nat)
  | powerFail (measured : List Nat)
  | supplyReturn
  | overvoltage (measured : List Nat)
  | thermalTrip (measured : List Nat)
  | peakDetector (watts : Nat)
  | regularStep (watts : Nat) (seen : StepInput)
  | boot (b : BootInput)
  | bankRecharged
  /-- a stream reaches a line or form that the checks of R79, R107 or R108 refuse -/
  | illegalEncoding (code detail lane : BitVec 8)
  deriving DecidableEq, Repr

end Sys2Proof
end

