-- ==== Sys2Proof/Machine/Fields.lean ====
section
/-!
DEFINITION. Sys2Proof/Machine/Fields.lean: the codes of the small fields (R97, R98, R113, R137) and the checks on field
values that a decoder makes once a form's reserved bits are known to be zero (R97 to R101, R108 step 3).
-/
namespace Sys2Proof

/-- Why a word is not a form, by the reasons of R109 Table 12. -/
inductive DecodeError where
  | unassignedOpcode | reservedBits | noMeaning | typeNotAccepted | queueDirection | laneStructure | lineFlags
  | tokensOnAll | immediateRange
  deriving DecidableEq, Repr

/-- The detail byte of an illegal encoding (R109 Table 12). -/
def DecodeError.detail : DecodeError → BitVec 8
  | .unassignedOpcode => 0x01
  | .reservedBits => 0x02
  | .noMeaning => 0x03
  | .typeNotAccepted => 0x04
  | .queueDirection => 0x05
  | .laneStructure => 0x06
  | .lineFlags => 0x07
  | .tokensOnAll => 0x08
  | .immediateRange => 0x09

/-- The type code of R113. -/
def Ty.code : Ty → Nat
  | .i8 => 0x00 | .n8 => 0x01 | .i16 => 0x02 | .n16 => 0x03 | .i32 => 0x04 | .n32 => 0x05 | .i64 => 0x06 | .n64 => 0x07
  | .bf16 => 0x08 | .f16 => 0x09 | .f32 => 0x0A | .e4m3 => 0x0B | .e5m2 => 0x0C | .i4 => 0x0D | .n4 => 0x0E
  | .bx k => 0x10 + k.val
  | .a56 => 0x18 | .i56 => 0x19 | .p56 => 0x1A

/-- The type a code names; none for the reserved codes 0x0F, 0x17 and 0x1B to 0x1F (R113). -/
def Ty.ofCode : Nat → Option Ty
  | 0x00 => some .i8 | 0x01 => some .n8 | 0x02 => some .i16 | 0x03 => some .n16
  | 0x04 => some .i32 | 0x05 => some .n32 | 0x06 => some .i64 | 0x07 => some .n64
  | 0x08 => some .bf16 | 0x09 => some .f16 | 0x0A => some .f32 | 0x0B => some .e4m3 | 0x0C => some .e5m2
  | 0x0D => some .i4 | 0x0E => some .n4
  | 0x10 => some (.bx 0) | 0x11 => some (.bx 1) | 0x12 => some (.bx 2) | 0x13 => some (.bx 3)
  | 0x14 => some (.bx 4) | 0x15 => some (.bx 5) | 0x16 => some (.bx 6)
  | 0x18 => some .a56 | 0x19 => some .i56 | 0x1A => some .p56
  | _ => none

/-- Element width in bits (R113); for BXm the mantissa width m. -/
def Ty.width : Ty → Nat
  | .i8 | .n8 | .e4m3 | .e5m2 => 8
  | .i16 | .n16 | .bf16 | .f16 => 16
  | .i32 | .n32 | .f32 => 32
  | .i64 | .n64 => 64
  | .i4 | .n4 => 4
  | .bx k => k.val + 2
  | .a56 | .i56 | .p56 => 56

/-- The integer codes 0x00 to 0x07 (class I of R218). -/
def Ty.isInt : Ty → Bool
  | .i8 | .n8 | .i16 | .n16 | .i32 | .n32 | .i64 | .n64 => true
  | _ => false

/-- Signed integer formats. -/
def Ty.signed : Ty → Bool
  | .i8 | .i16 | .i32 | .i64 | .i4 | .i56 => true
  | _ => false

/-- Class F of R218: BF16, F16, F32. -/
def Ty.isF : Ty → Bool
  | .bf16 | .f16 | .f32 => true
  | _ => false

/-- Every binary floating-point format of memory (R116). -/
def Ty.isFloat : Ty → Bool
  | .bf16 | .f16 | .f32 | .e4m3 | .e5m2 => true
  | _ => false

/-- Class X of R218: codes 0x00 to 0x0C. -/
def Ty.isX (t : Ty) : Bool := t.isInt || t.isFloat

def Ty.isBx : Ty → Bool
  | .bx _ => true
  | _ => false

def RM.code : RM → Nat
  | .rne => 0 | .rna => 1 | .rtz => 2 | .rup => 3 | .rdn => 4
def RM.ofCode : Nat → Option RM
  | 0 => some .rne | 1 => some .rna | 2 => some .rtz | 3 => some .rup | 4 => some .rdn | _ => none

def CT.code : CT → Nat
  | .normal => 0 | .unc => 1 | .and => 2 | .or => 3 | .andor => 4 | .orand => 5
def CT.ofCode : Nat → Option CT
  | 0 => some .normal | 1 => some .unc | 2 => some .and | 3 => some .or | 4 => some .andor | 5 => some .orand
  | _ => none

def CC.code : CC → Nat
  | .eq => 0 | .ne => 1 | .lt => 2 | .ge => 3 | .ltn => 4 | .gen => 5 | .le => 6 | .gt => 7 | .len => 8 | .gtn => 9
def CC.ofCode : Nat → Option CC
  | 0 => some .eq | 1 => some .ne | 2 => some .lt | 3 => some .ge | 4 => some .ltn | 5 => some .gen
  | 6 => some .le | 7 => some .gt | 8 => some .len | 9 => some .gtn | _ => none

def Scp.code : Scp → Nat
  | .core => 0 | .die => 1 | .dev => 2 | .sys => 3
def Scp.ofCode : Nat → Option Scp
  | 0 => some .core | 1 => some .die | 2 => some .dev | 3 => some .sys | _ => none

def Ord.code : Ord → Nat
  | .rlx => 0 | .acq => 1 | .rel => 2 | .acqrel => 3
def Ord.ofCode : Nat → Option Ord
  | 0 => some .rlx | 1 => some .acq | 2 => some .rel | 3 => some .acqrel | _ => none

def Fe.code : Fe → Nat
  | .plain => 0 | .one => 1 | .two => 2
def Fe.ofCode : Nat → Option Fe
  | 0 => some .plain | 1 => some .one | 2 => some .two | _ => none

def Clip.code : Clip → Nat
  | .none => 0 | .zero => 1 | .clamp => 2
def Clip.ofCode : Nat → Option Clip
  | 0 => some .none | 1 => some .zero | 2 => some .clamp | _ => Option.none

def AOp.code : AOp → Nat
  | .swap => 0 | .add => 1 | .and => 2 | .or => 3 | .xor => 4 | .min => 5 | .max => 6 | .minn => 7 | .maxn => 8
def AOp.ofCode : Nat → Option AOp
  | 0 => some .swap | 1 => some .add | 2 => some .and | 3 => some .or | 4 => some .xor | 5 => some .min
  | 6 => some .max | 7 => some .minn | 8 => some .maxn | _ => none

def Ew.code : Ew → Nat
  | .w8 => 0 | .w16 => 1 | .w32 => 2 | .w64 => 3
def Ew.ofCode : Nat → Option Ew
  | 0 => some .w8 | 1 => some .w16 | 2 => some .w32 | 3 => some .w64 | _ => none
/-- The element width 8 × 2^EW (R204, R232). -/
def Ew.bits : Ew → Nat
  | .w8 => 8 | .w16 => 16 | .w32 => 32 | .w64 => 64

/-- The number of a special register (R137). -/
def Spr.code : Spr → Nat
  | .cycle => 0x000 | .rtime => 0x001 | .tflags => 0x002 | .win => 0x003 | .tkcnt => 0x004 | .lseq => 0x005
  | .prio => 0x006 | .trapinfo => 0x007 | .svcmode => 0x008 | .rsdepth => 0x009
  | .coreid => 0x010 | .lcores => 0x011 | .config => 0x012 | .llcsz => 0x013 | .ithresh => 0x014
  | .trip n => 0x020 + n.val
  | .frame => 0x028 | .jcard => 0x029 | .jblock => 0x02A
  | .jarg n => 0x02C + n.val
  | .lc n => 0x030 + n.val
  | .llim n => 0x038 + n.val

/-- The special register a number names; every other number has no meaning (R137). -/
def Spr.ofCode (n : Nat) : Option Spr :=
  match n with
  | 0x000 => some .cycle | 0x001 => some .rtime | 0x002 => some .tflags | 0x003 => some .win
  | 0x004 => some .tkcnt | 0x005 => some .lseq | 0x006 => some .prio | 0x007 => some .trapinfo
  | 0x008 => some .svcmode | 0x009 => some .rsdepth
  | 0x010 => some .coreid | 0x011 => some .lcores | 0x012 => some .config | 0x013 => some .llcsz
  | 0x014 => some .ithresh
  | 0x028 => some .frame | 0x029 => some .jcard | 0x02A => some .jblock
  | n =>
    if 0x20 ≤ n ∧ n < 0x28 then some (.trip (Fin.ofNat 8 (n - 0x20)))
    else if 0x2C ≤ n ∧ n < 0x30 then some (.jarg (Fin.ofNat 4 (n - 0x2C)))
    else if 0x30 ≤ n ∧ n < 0x38 then some (.lc (Fin.ofNat 8 (n - 0x30)))
    else if 0x38 ≤ n ∧ n < 0x40 then some (.llim (Fin.ofNat 8 (n - 0x38)))
    else none

def HField.code : HField → Nat
  | .valid => 0 | .kind => 1 | .path => 2 | .tier => 3 | .log2sz => 4 | .atc => 5 | .ro => 6 | .extid => 7
  | .perm => 8 | .frame => 9 | .base => 10 | .len => 11
def HField.ofCode : Nat → Option HField
  | 0 => some .valid | 1 => some .kind | 2 => some .path | 3 => some .tier | 4 => some .log2sz | 5 => some .atc
  | 6 => some .ro | 7 => some .extid | 8 => some .perm | 9 => some .frame | 10 => some .base | 11 => some .len
  | _ => none

def TField.code : TField → Nat
  | .whole => 0 | .type => 1 | .place => 2 | .rows => 3 | .cols => 4 | .rstride => 5
def TField.ofCode : Nat → Option TField
  | 0 => some .whole | 1 => some .type | 2 => some .place | 3 => some .rows | 4 => some .cols | 5 => some .rstride
  | _ => none

def VSrc.code : VSrc → Nat
  | .v n => n.val | .q n => 16 + n.val | .z => 21
/-- A vector source code (R97 Table 3): q8 is against its direction, 22 to 31 have no meaning. -/
def VSrc.ofCode (n : Nat) : Except DecodeError VSrc :=
  if n < 16 then .ok (.v (Fin.ofNat 16 n))
  else if n < 20 then .ok (.q (Fin.ofNat 4 (n - 16)))
  else if n = 20 then .error .queueDirection
  else if n = 21 then .ok .z
  else .error .noMeaning

def VDst.code : VDst → Nat
  | .v n => n.val | .q8 => 20 | .z => 21
/-- A vector destination code (R97 Table 3): q4 to q7 are against their direction, 22 to 31 have no meaning. -/
def VDst.ofCode (n : Nat) : Except DecodeError VDst :=
  if n < 16 then .ok (.v (Fin.ofNat 16 n))
  else if n < 20 then .error .queueDirection
  else if n = 20 then .ok .q8
  else if n = 21 then .ok .z
  else .error .noMeaning

/-- The INJ word (R162 Table 6). -/
def InjKind.code : InjKind → Nat
  | .accBit a r c b => a.val * 2 ^ 26 + r.val * 2 ^ 20 + c.val * 2 ^ 14 + b.val * 2 ^ 8
  | .scratchPoison => 2 ^ 28
  | .shadowMismatch => 2 * 2 ^ 28

/-! ### Shape records as far as decoding looks at them (R188, R189) -/

/-- Row bytes in memory layout (R188). -/
def memRowBytes (t : Ty) (cols : Nat) : Nat :=
  if t.isBx then (cols + 31) / 32 * (4 * t.width) else (cols * t.width + 7) / 8

/-- The checks R189 makes on TSET's immediate. -/
def shapeError (imm : BitVec 64) : Option DecodeError :=
  match Ty.ofCode (imm.toNat / 2 ^ 59) with
  | none => some .typeNotAccepted
  | some t =>
    if t = .a56 ∨ t = .i56 ∨ t = .p56 then some .typeNotAccepted
    else if imm.toNat / 2 ^ 56 % 4 ≠ 0 then some .reservedBits
    else if imm.toNat % 2 ^ 24 < memRowBytes t (imm.toNat / 2 ^ 24 % 65536 + 1) then some .immediateRange
    else none

/-! ### The format word (R239, R240) -/

/-- Operand classes of R240 Table 2. -/
inductive MxMode where
  | float32 | float64 | integer | block | blockFixed
  deriving DecidableEq, Repr

/-- The mode the types and ACCT of a format word choose, none when they fit no row of R240. -/
def MxMode.of (a b : Ty) (acct : Bool) : Option MxMode :=
  match a, b, acct with
  | .bf16, .bf16, false | .bf16, .f16, false | .f16, .bf16, false | .f16, .f16, false => some .float32
  | .e4m3, .e4m3, false | .e4m3, .e5m2, false | .e5m2, .e4m3, false | .e5m2, .e5m2, false => some .float64
  | .i8, .i8, true | .i8, .n8, true | .n8, .i8, true | .n8, .n8, true => some .integer
  | .bx _, .bx _, false => some .block
  | .bx _, .bx _, true => some .blockFixed
  | _, _, _ => none

/-- What R240 finds wrong with a format word: of several, the first of reserved bits, RRM, types, FX, a DESIGN CHOICE
(notes/assumptions/66.md). -/
def formatError (w : BitVec 32) : Option DecodeError :=
  if w.toNat % 256 ≠ 0 then some .reservedBits
  else match RM.ofCode (w.toNat / 2 ^ 17 % 8) with
  | none => some .noMeaning
  | some _ =>
    match Ty.ofCode (w.toNat / 2 ^ 27), Ty.ofCode (w.toNat / 2 ^ 22 % 32) with
    | some a, some b =>
      match MxMode.of a b (w.toNat / 2 ^ 21 % 2 == 1) with
      | none => some .typeNotAccepted
      | some .blockFixed => none
      | some _ => if w.toNat / 256 % 256 ≠ 0 then some .noMeaning else none
    | _, _ => some .typeNotAccepted

/-! ### The value checks of a form -/

/-- The queues of q0 to q8 that a stream writes (R89). -/
def writesQueue (s : Stm) (q : Nat) : Bool :=
  match s with
  | .c => q == 0 || q == 2
  | .a => q == 1 || (4 ≤ q && q ≤ 7)
  | .v => q == 3 || q == 8

/-- The queues of q0 to q8 that a stream reads (R89). -/
def readsQueue (s : Stm) (q : Nat) : Bool :=
  match s with
  | .c => q == 1 || q == 3
  | .a => q == 0 || q == 8
  | .v => q == 2 || (4 ≤ q && q ≤ 7)

/-- The three scalar queue forms (R152). -/
inductive QForm where
  | send | recv | test
  deriving DecidableEq, Repr

/-- Whether R152 lets stream `s` name queue `q` in a scalar queue form.  A number that R97 Table 2 gives no meaning has detail
0x03, before R152's own 0x05: DEDUCED (notes/assumptions/66.md). -/
def queueError (k : QForm) (s : Stm) (q : Nat) : Option DecodeError :=
  if q = 9 ∨ 26 ≤ q then some .noMeaning
  else
    let ok : Bool := match k with
      | .send => q ≤ 3 && writesQueue s q
      | .recv => q ≤ 3 && readsQueue s q
      | .test => writesQueue s q || readsQueue s q || (s == .c && 10 ≤ q && q ≤ 25)
    if ok then none else some .queueDirection

/-- Two compare destinations that are one predicate other than p0 (R146, R151, R227). -/
def samePreds (pd pe : PIx) : Bool := pd == pe && pd != 0

/-- Chain of checks: the first error named stands. -/
def firstErr : List (Bool × DecodeError) → Option DecodeError
  | [] => none
  | (bad, e) :: r => if bad then some e else firstErr r

/-- RM must be RNE (code 0) and SAT clear in a form of an integer type that does not use them (R222). -/
def rmUnused (t : Ty) (rm : RM) : Bool := t.isInt && rm != .rne

/-- The floating condition codes (R151, R227). -/
def CC.isFloat : CC → Bool
  | .eq | .ne | .lt | .ge | .le | .gt => true
  | _ => false

/-- Elements of a 512-bit vector (R218). -/
def Ty.lanes (t : Ty) : Nat := 512 / t.width

/-- The vector-side types of the accumulator forms (R234). -/
def Ty.isAccVec : Ty → Bool
  | .f32 | .bf16 | .f16 | .i32 | .n32 | .i16 => true
  | _ => false

/-- The integer types VPACK and VUNPK take (R226). -/
def Ty.isPack : Ty → Bool
  | .i4 | .n4 => true
  | t => t.isInt

/-- The checks on the field values of a form issued by stream `s` (R97 to R101 and the form's own rule): the reason
of the first that fails, in an order, and for VUNPK's IMM13 bits 12:1 with detail 0x09, that are a DESIGN CHOICE
(notes/assumptions/66.md). -/
def Instr.fieldError (s : Stm) : Instr → Option DecodeError
  | .path _ _ _ n => firstErr [(decide (5 < n.toNat), .immediateRange)]
  | .extr _ _ _ p l _ => firstErr [(decide (64 < p.toNat + (if l = 0 then 64 else l.toNat)), .immediateRange)]
  | .insr _ _ _ p l => firstErr [(decide (64 < p.toNat + (if l = 0 then 64 else l.toNat)), .immediateRange)]
  | .cmp _ pd pe _ _ _ _ => firstErr [(samePreds pd pe, .noMeaning)]
  | .tbit _ pd pe _ cc _ _ => firstErr [(samePreds pd pe, .noMeaning), (cc != .eq && cc != .ne, .noMeaning)]
  | .qsend _ _ q => queueError .send s q.val
  | .qrecv _ _ q => queueError .recv s q.val
  | .qtest _ _ q => queueError .test s q.val
  | .mtsr _ _ r => firstErr [(!(r == .win && s == .c), .noMeaning)]
  | .fcvt _ _ _ ty tz _ _ =>
    firstErr [(!((ty == .f32 && (tz.isInt || tz == .f32)) || (ty.isInt && tz == .f32)), .typeNotAccepted)]
  | .fcmp _ pd pe _ cc _ _ => firstErr [(samePreds pd pe, .noMeaning), (!cc.isFloat, .noMeaning)]
  | .inj _ _ _ (.accBit _ _ _ b) => firstErr [(decide (56 ≤ b.val), .immediateRange)]
  | .tset _ _ imm => shapeError imm
  | .ld _ _ _ _ ty _ _ => firstErr [(!ty.isX, .typeNotAccepted)]
  | .st _ _ _ _ ty _ _ => firstErr [(!ty.isX, .typeNotAccepted)]
  | .ldl _ _ _ _ ty _ => firstErr [(!ty.isX, .typeNotAccepted)]
  | .amo _ _ _ _ ty _ _ _ _ _ =>
    firstErr [(!(ty == .i32 || ty == .n32 || ty == .i64 || ty == .n64), .typeNotAccepted)]
  | .acas _ _ _ _ ty _ _ _ _ _ =>
    firstErr [(!(ty == .i32 || ty == .n32 || ty == .i64 || ty == .n64), .typeNotAccepted)]
  | .gather _ _ _ _ _ _ _ _ _ f => firstErr [(f.clip == .none, .noMeaning)]
  | .scatter _ _ _ _ _ _ _ _ _ f => firstErr [(f.clip == .none || f.clip == .clamp, .noMeaning)]
  | .tring _ _ _ _ _ _ _ _ f => firstErr [(f.clip != .zero, .noMeaning)]
  | .evpop _ d e => firstErr [(d == e, .noMeaning)]
  | .mfmti _ w => formatError w
  | .mmul _ ra rb _ _ _ _ sm =>
    firstErr [((!sm.wen && sm.semw != 0) || (!sm.sen && sm.sems != 0), .reservedBits), (ra == rb, .noMeaning)]
  | .stq _ _ _ _ _ clip _ _ => firstErr [(clip == .clamp, .noMeaning)]
  | .vadd _ _ _ _ ty rm _ | .vsub _ _ _ _ ty rm _ | .vmul _ _ _ _ ty rm _ =>
    firstErr [(rmUnused ty rm, .reservedBits), (!(ty.isInt || ty.isF), .typeNotAccepted)]
  | .vfma _ _ _ _ _ ty rm _ | .vfms _ _ _ _ _ ty rm _ | .vfnma _ _ _ _ _ ty rm _ =>
    firstErr [(rmUnused ty rm, .reservedBits), (!(ty.isInt || ty.isF), .typeNotAccepted)]
  | .vdiv _ _ _ _ ty _ _ => firstErr [(!ty.isF, .typeNotAccepted)]
  | .vmin _ _ _ _ ty | .vmax _ _ _ _ ty => firstErr [(!(ty.isInt || ty.isF), .typeNotAccepted)]
  | .vabs _ _ _ ty sat | .vneg _ _ _ ty sat =>
    firstErr [(ty.isF && sat, .reservedBits), (!(ty.isInt || ty.isF), .typeNotAccepted)]
  | .vmulh _ _ _ _ ty | .vand _ _ _ _ ty | .vor _ _ _ _ ty | .vxor _ _ _ _ ty | .vandn _ _ _ _ ty
  | .vshl _ _ _ _ ty | .vshr _ _ _ _ ty | .vsar _ _ _ _ ty => firstErr [(!ty.isInt, .typeNotAccepted)]
  | .vcvt _ _ _ ty tz _ _ part =>
    firstErr [(!(ty.isX && tz.isX) || ty == tz, .typeNotAccepted),
      (decide (Nat.max ty.width tz.width / Nat.min ty.width tz.width ≤ part.toNat), .immediateRange)]
  | .vcmp _ pd pe _ cc _ _ ty =>
    firstErr [(samePreds pd pe, .noMeaning), (ty.isFloat && !cc.isFloat, .noMeaning), (!ty.isX, .typeNotAccepted)]
  | .vsel _ _ _ _ _ ty => firstErr [(!ty.isX, .typeNotAccepted)]
  | .vmov _ _ _ ty => firstErr [(!ty.isX, .typeNotAccepted)]
  | .vsplat _ _ _ ty => firstErr [(!ty.isX, .typeNotAccepted)]
  | .vsplati _ _ _ ty => firstErr [(!ty.isX, .typeNotAccepted)]
  | .vext _ _ _ ty idx => firstErr [(!ty.isX, .typeNotAccepted), (decide (ty.lanes ≤ idx.toNat), .immediateRange)]
  | .vins _ _ _ ty idx => firstErr [(!ty.isX, .typeNotAccepted), (decide (ty.lanes ≤ idx.toNat), .immediateRange)]
  | .vrsum _ _ _ ty rm _ | .vrsumsq _ _ _ ty rm _ =>
    firstErr [(rmUnused ty rm, .reservedBits), (!(ty.isInt || ty.isF), .typeNotAccepted)]
  | .vrmax _ _ _ ty | .vrmin _ _ _ ty | .vramax _ _ _ ty => firstErr [(!(ty.isInt || ty.isF), .typeNotAccepted)]
  | .vshuf _ _ _ _ ty => firstErr [(!ty.isX, .typeNotAccepted)]
  | .vperm _ _ _ _ _ ty => firstErr [(!ty.isX, .typeNotAccepted)]
  | .vrot _ _ _ ty k => firstErr [(!ty.isX, .typeNotAccepted), (decide (ty.lanes ≤ k.toNat), .immediateRange)]
  | .vpack _ _ _ _ ty tz _ =>
    firstErr [(!(ty.isPack && tz.isPack && ty.signed == tz.signed && ty.width == 2 * tz.width), .typeNotAccepted)]
  | .vunpk _ _ _ ty tz half =>
    firstErr [(!(ty.isPack && tz.isPack && ty.signed == tz.signed && tz.width == 2 * ty.width), .typeNotAccepted),
      (decide (1 < half.toNat), .immediateRange)]
  | .vclass _ _ _ ty => firstErr [(!ty.isF, .typeNotAccepted)]
  | .vscale _ _ _ _ ty _ _ => firstErr [(!ty.isF, .typeNotAccepted)]
  | .vrint _ _ _ ty _ => firstErr [(!ty.isF, .typeNotAccepted)]
  | .vsgn _ _ _ _ ty => firstErr [(!ty.isF, .typeNotAccepted)]
  | .vclz _ _ _ ty | .vpopc _ _ _ ty => firstErr [(!ty.isInt, .typeNotAccepted)]
  | .vaccrd _ _ _ _ seg ty tz _ _ =>
    firstErr [(!(tz.isAccVec && (ty == .a56 || ty == .i56)), .typeNotAccepted),
      (decide (64 / tz.lanes ≤ seg.val), .immediateRange)]
  | .vaccwr _ _ _ _ seg ty tz _ _ =>
    firstErr [(!(ty.isAccVec && (tz == .a56 || tz == .i56)), .typeNotAccepted),
      (decide (64 / ty.lanes ≤ seg.val), .immediateRange)]
  | .vmaski _ _ _ n => firstErr [(decide (64 < n.toNat), .immediateRange)]
  | .vclamp _ _ _ _ _ ty => firstErr [(!(ty.isInt || ty.isF), .typeNotAccepted)]
  | .viota _ _ ty => firstErr [(!ty.isInt, .typeNotAccepted)]
  | .vabd _ _ _ _ ty rm sat =>
    firstErr [(rmUnused ty rm || (ty.isInt && sat), .reservedBits), (!(ty.isInt || ty.isF), .typeNotAccepted)]
  | .fence _ ord _ => firstErr [(ord == .rlx, .noMeaning)]
  | _ => none

end Sys2Proof
end

