-- ==== Sys2Proof/Machine/Flags.lean ====
section
/-!
DEFINITION. Sys2Proof/Machine/Flags.lean: exact values of the number formats, their one rounding, and every flag computation
(R113 to R130).  A finite value is sign, magnitude m × 2^e and a sticky bit: with the bit set the magnitude lies strictly
between m × 2^e and (m + 1) × 2^e.
-/
namespace Sys2Proof.Machine
open Sys2Proof

/-! ### Sticky flags (R125) -/

def fIV : Nat := 1
def fDZ : Nat := 2
def fOV : Nat := 4
def fUF : Nat := 8
def fNX : Nat := 16
def fCS : Nat := 32
def fIO : Nat := 64
def fID : Nat := 128
/-- Both sets of flags. -/
def orF (a b : Nat) : Nat := a ||| b
/-- A flag under a condition. -/
def flagIf (c : Bool) (f : Nat) : Nat := if c then f else 0

/-! ### Values -/

/-- The value of an encoding (R134 Value). -/
inductive Val where
  | nan (sig : Bool)
  | inf (neg : Bool)
  | fin (neg : Bool) (m : Nat) (e : Int) (st : Bool)
  deriving DecidableEq, Repr

/-- Exponent and fraction widths of a floating format (R116 Table 2). -/
structure FFmt where
  eb : Nat
  fb : Nat
  deriving DecidableEq, Repr

def tyFmt : Ty → FFmt
  | .bf16 => ⟨8, 7⟩
  | .f16 => ⟨5, 10⟩
  | .e4m3 => ⟨4, 3⟩
  | .e5m2 => ⟨5, 2⟩
  | .a56 => ⟨11, 44⟩
  | _ => ⟨8, 23⟩
/-- Bias. -/
def FFmt.bias (f : FFmt) : Nat := 2 ^ (f.eb - 1) - 1
/-- Emin = 1 − bias. -/
def FFmt.emin (f : FFmt) : Int := 1 - (f.bias : Int)
/-- Whether a format is floating, accumulators included. -/
def tyFl (t : Ty) : Bool := t.isFloat || t == .a56

/-- The value of a floating encoding. -/
def fvalue (t : Ty) (w : Nat) : Val :=
  let f := tyFmt t
  let neg := bit w (f.eb + f.fb)
  let e := bits w (f.eb + f.fb - 1) f.fb
  let m := bits w (f.fb - 1) 0
  if t = .e4m3 then
    if e = 15 ∧ m = 7 then .nan false
    else if e = 0 then .fin neg m (f.emin - (f.fb : Int)) false
    else .fin neg (m + 2 ^ f.fb) ((e : Int) - (f.bias : Int) - (f.fb : Int)) false
  else if e = 2 ^ f.eb - 1 then
    if m = 0 then .inf neg else .nan (t != .e5m2 && !bit m (f.fb - 1))
  else if e = 0 then .fin neg m (f.emin - (f.fb : Int)) false
  else .fin neg (m + 2 ^ f.fb) ((e : Int) - (f.bias : Int) - (f.fb : Int)) false

/-- An integer as a value. -/
def ivalue (n : Int) : Val := .fin (decide (n < 0)) n.natAbs 0 false
/-- An n-bit pattern read as an integer of a type (R114). -/
def intOf (t : Ty) (w : Nat) : Int :=
  if t.signed then sgn t.width w else ((w % 2 ^ t.width : Nat) : Int)
/-- The value of an encoding of any element type. -/
def tyValue (t : Ty) (w : Nat) : Val := if tyFl t then fvalue t w else ivalue (intOf t w)

/-- The canonical NaN (R116). -/
def canonNaN (t : Ty) : Nat :=
  let f := tyFmt t
  if t = .e4m3 then 0x7F else (2 ^ f.eb - 1) * 2 ^ f.fb + 2 ^ (f.fb - 1)
def infEnc (t : Ty) (neg : Bool) : Nat :=
  let f := tyFmt t
  b2n neg * 2 ^ (f.eb + f.fb) + (2 ^ f.eb - 1) * 2 ^ f.fb
def maxFin (t : Ty) (neg : Bool) : Nat :=
  let f := tyFmt t
  b2n neg * 2 ^ (f.eb + f.fb) + (if t = .e4m3 then 0x7E else (2 ^ f.eb - 1) * 2 ^ f.fb - 1)
def zeroEnc (t : Ty) (neg : Bool) : Nat := b2n neg * 2 ^ ((tyFmt t).eb + (tyFmt t).fb)

/-! ### Rounding (R123, R124) -/

/-- Whether a magnitude q + rem / 2^sh (with sticky) rounds up to q + 1 (R123 Table 3). -/
def roundUp (rm : RM) (neg : Bool) (q rem sh : Nat) (st : Bool) : Bool :=
  let inexact := rem != 0 || st
  let twice := 2 * rem
  match rm with
  | .rtz => false
  | .rup => !neg && inexact
  | .rdn => neg && inexact
  | .rna => decide (2 ^ sh ≤ twice)
  | .rne => decide (2 ^ sh < twice) || (twice == 2 ^ sh && (st || q % 2 == 1))

/-- RoundInt of a magnitude m × 2^(−sh), sh possibly negative: the integer and whether it is inexact. -/
def roundMag (rm : RM) (neg : Bool) (m : Nat) (sh : Int) (st : Bool) : Nat × Bool :=
  if sh ≤ 0 then (m * 2 ^ (-sh).toNat, st)
  else
    let k := sh.toNat
    let q := m / 2 ^ k
    let rem := m % 2 ^ k
    (if roundUp rm neg q rem k st then q + 1 else q, rem != 0 || st)

/-- RoundTo for a floating format: encoding and flags (R123, R124). -/
def roundFloat (t : Ty) (x : Val) (rm : RM) (sat : Bool) : Nat × Nat :=
  let f := tyFmt t
  match x with
  | .nan sig => (canonNaN t, flagIf sig fIV)
  | .inf neg =>
    if sat then (maxFin t neg, fCS)
    else if t = .e4m3 then (canonNaN t, fIV)
    else (infEnc t neg, 0)
  | .fin neg m e st =>
    if m = 0 ∧ !st then (zeroEnc t neg, 0)
    else
      let l : Int := (log2 m : Int) + e
      let ee := max l f.emin
      let r := roundMag rm neg m (ee - f.fb - e) st
      let carry := decide (2 ^ (f.fb + 1) ≤ r.1)
      let n := if carry then r.1 / 2 else r.1
      let e2 := if carry then ee + 1 else ee
      let biased := e2 + f.bias
      let big : Bool :=
        if t = .e4m3 then decide (15 < biased) || (biased == 15 && n == 15)
        else decide ((2 ^ f.eb - 1 : Nat) ≤ biased)
      if big then
        if sat then (maxFin t neg, fCS ||| fNX)
        else
          let toInf : Bool := match rm with
            | .rne | .rna => true
            | .rtz => false
            | .rup => !neg
            | .rdn => neg
          (if toInf then (if t = .e4m3 then canonNaN t else infEnc t neg) else maxFin t neg, fOV ||| fNX)
      else
        let tiny : Bool :=
          decide (l < f.emin) &&
            (let p := roundMag rm neg m (l - f.fb - e) st
             decide ((if 2 ^ (f.fb + 1) ≤ p.1 then l + 1 else l) < f.emin))
        let enc := if n < 2 ^ f.fb then n else biased.toNat * 2 ^ f.fb + (n - 2 ^ f.fb)
        (b2n neg * 2 ^ (f.eb + f.fb) + enc, flagIf r.2 fNX ||| flagIf (r.2 && tiny) fUF)

/-- Limits of an integer type. -/
def intMin (t : Ty) : Int := if t.signed then -(2 ^ (t.width - 1) : Nat) else 0
def intMax (t : Ty) : Int := if t.signed then (2 ^ (t.width - 1) : Nat) - 1 else (2 ^ t.width : Nat) - 1

/-- RoundTo for an integer format (R124). -/
def roundInteger (t : Ty) (x : Val) (rm : RM) (sat : Bool) : Nat × Nat :=
  let clamp := if sat then fCS else fIV
  match x with
  | .nan _ => (0, fIV)
  | .inf neg => (wrap t.width (if neg then intMin t else intMax t), clamp)
  | .fin neg m e st =>
    let r := roundMag rm neg m (-e) st
    let n : Int := if neg then -(r.1 : Int) else r.1
    if n < intMin t then (wrap t.width (intMin t), clamp)
    else if intMax t < n then (wrap t.width (intMax t), clamp)
    else (wrap t.width n, flagIf r.2 fNX)

/-- RoundTo (R123, R124). -/
def roundTo (t : Ty) (x : Val) (rm : RM) (sat : Bool) : Nat × Nat :=
  if tyFl t then roundFloat t x rm sat else roundInteger t x rm sat

/-- RoundInt of a value, as a value; a zero keeps its sign; inexact or not (R150, R224). -/
def roundIntegral (x : Val) (rm : RM) : Val × Bool :=
  match x with
  | .fin neg m e st =>
    if 0 ≤ e then (x, st)
    else
      let r := roundMag rm neg m (-e) st
      (.fin neg r.1 0 false, r.2)
  | v => (v, false)

/-- Saturate to the range of an integer type (R134): the integer and whether it clamped. -/
def satInt (t : Ty) (n : Int) : Int × Bool :=
  if n < intMin t then (intMin t, true) else if intMax t < n then (intMax t, true) else (n, false)

/-! ### Arithmetic on values (R117, R149): results with their flags -/

def Val.isNaN : Val → Bool
  | .nan _ => true
  | _ => false
/-- A signalling NaN. -/
def Val.sig : Val → Bool
  | .nan s => s
  | _ => false
def Val.neg : Val → Bool
  | .nan _ => false
  | .inf n => n
  | .fin n _ _ _ => n
def Val.isZero : Val → Bool
  | .fin _ 0 _ false => true
  | _ => false
def Val.negate : Val → Val
  | .nan s => .nan s
  | .inf n => .inf (!n)
  | .fin n m e st => .fin (!n) m e st

/-- A signed dyadic number. -/
def dyad (n : Int) (e : Int) (zeroNeg : Bool) : Val :=
  if n = 0 then .fin zeroNeg 0 0 false else .fin (decide (n < 0)) n.natAbs e false
/-- Sign and magnitude as an integer. -/
def sint (neg : Bool) (m : Nat) : Int := if neg then -(m : Int) else m

/-- Exact sum. -/
def Val.add (x y : Val) (rm : RM) : Val × Nat :=
  match x, y with
  | .nan a, v => (.nan false, flagIf (a || v.sig) fIV)
  | v, .nan b => (.nan false, flagIf (b || v.sig) fIV)
  | .inf a, .inf b => if a = b then (.inf a, 0) else (.nan false, fIV)
  | .inf a, .fin .. => (.inf a, 0)
  | .fin .., .inf b => (.inf b, 0)
  | .fin n1 m1 e1 _, .fin n2 m2 e2 _ =>
    let e := min e1 e2
    let s := sint n1 (m1 * 2 ^ (e1 - e).toNat) + sint n2 (m2 * 2 ^ (e2 - e).toNat)
    (dyad s e (if n1 = n2 then n1 else rm == .rdn), 0)

/-- Exact product. -/
def Val.mul (x y : Val) : Val × Nat :=
  match x, y with
  | .nan a, v => (.nan false, flagIf (a || v.sig) fIV)
  | v, .nan b => (.nan false, flagIf (b || v.sig) fIV)
  | .inf a, v => if v.isZero then (.nan false, fIV) else (.inf (a != v.neg), 0)
  | v, .inf b => if v.isZero then (.nan false, fIV) else (.inf (b != v.neg), 0)
  | .fin n1 m1 e1 _, .fin n2 m2 e2 _ => (.fin (n1 != n2) (m1 * m2) (e1 + e2) false, 0)

/-- a × b + c, the product considered first (R117). -/
def Val.fma (a b c : Val) (rm : RM) : Val × Nat :=
  let p := a.mul b
  let r := p.1.add c rm
  (r.1, p.2 ||| r.2)

/-- Quotient, truncated with a sticky bit. -/
def Val.div (x y : Val) : Val × Nat :=
  match x, y with
  | .nan a, v => (.nan false, flagIf (a || v.sig) fIV)
  | v, .nan b => (.nan false, flagIf (b || v.sig) fIV)
  | .inf _, .inf _ => (.nan false, fIV)
  | .inf a, .fin n _ _ _ => (.inf (a != n), 0)
  | .fin n _ _ _, .inf b => (.fin (n != b) 0 0 false, 0)
  | .fin n1 m1 e1 _, .fin n2 m2 e2 _ =>
    if m2 = 0 then
      if m1 = 0 then (.nan false, fIV) else (.inf (n1 != n2), fDZ)
    else
      let k := 80 + bitLen m2
      let num := m1 * 2 ^ k
      (.fin (n1 != n2) (num / m2) (e1 - e2 - k) (num % m2 != 0), 0)

/-- floor(√n) of n below 4^k, one result bit at a time. -/
def isqrtGo : Nat → Nat → Nat → Nat
  | 0, _, r => r
  | k + 1, n, r => if (r + 2 ^ k) * (r + 2 ^ k) ≤ n then isqrtGo k n (r + 2 ^ k) else isqrtGo k n r
def isqrt (n : Nat) : Nat := isqrtGo (bitLen n / 2 + 1) n 0

/-- √x (R149, R130). -/
def Val.sqrt (x : Val) : Val × Nat :=
  match x with
  | .nan s => (.nan false, flagIf s fIV)
  | .inf false => (.inf false, 0)
  | .inf true => (.nan false, fIV)
  | .fin n m e _ =>
    if m = 0 then (x, 0)
    else if n then (.nan false, fIV)
    else
      let k : Nat := 80 + (if (e - 80) % 2 = 0 then 0 else 1)
      let m2 := m * 2 ^ k
      let r := isqrt m2
      (.fin false r ((e - k) / 2) (r * r != m2), 0)

/-- 1 / √x (R130). -/
def Val.rsqrt (x : Val) : Val × Nat :=
  match x with
  | .nan s => (.nan false, flagIf s fIV)
  | .inf false => (.fin false 0 0 false, 0)
  | .inf true => (.nan false, fIV)
  | .fin n m e _ =>
    if m = 0 then (.inf n, fDZ)
    else if n then (.nan false, fIV)
    else
      let k : Nat := 160 + bitLen m + (if (e + 160 + bitLen m) % 2 = 0 then 0 else 1)
      let r := isqrt (2 ^ k / m)
      (.fin false r (-((e + k) / 2)) (r * r * m != 2 ^ k), 0)

/-- 1 / x (R130). -/
def Val.rcp (x : Val) : Val × Nat :=
  match x with
  | .inf n => (.fin n 0 0 false, 0)
  | v => (Val.fin false 1 0 false).div v

/-! ### 2^x and log2 x (R130), by fixed-point intervals -/

/-- Fraction bits of the fixed-point work. -/
def fxP : Nat := 448
/-- Error bound of each series below, in units of the last place. -/
def fxErr : Nat := 4096

/-- Σ t^(2k+1) / (2k+1) for k from 0, n terms; t in fixed point. -/
def atanhGo : Nat → Nat → Nat → Nat → Nat → Nat
  | 0, _, _, _, acc => acc
  | n + 1, p, t2, k, acc => atanhGo n (p * t2 / 2 ^ fxP) t2 (k + 2) (acc + p / k)
/-- 2 × atanh t. -/
def twoAtanh (t : Nat) : Nat := 2 * atanhGo 160 t (t * t / 2 ^ fxP) 1 0
/-- ln 2 = 2 × atanh(1/3). -/
def fxLn2 : Nat := twoAtanh (2 ^ fxP / 3)
/-- Σ y^k / k!. -/
def expGo : Nat → Nat → Nat → Nat → Nat → Nat
  | 0, _, _, _, acc => acc
  | n + 1, p, y, k, acc => expGo n (p * y / 2 ^ fxP / k) y (k + 1) (acc + p)
/-- e^y for y in [0, 1). -/
def fxExp (y : Nat) : Nat := expGo 110 (2 ^ fxP) y 1 0

/-- Round a value known to lie strictly between lo × 2^e and hi × 2^e. -/
def roundBetween (t : Ty) (neg : Bool) (lo hi : Nat) (e : Int) (rm : RM) (sat : Bool) : Nat × Nat :=
  let a := roundTo t (.fin neg lo e true) rm sat
  let b := roundTo t (.fin neg (hi - 1) e true) rm sat
  if a = b then a else b

/-- RoundTo(2^x, F32) (R130): an integer x is exact; any other 2^x is irrational. -/
def exp2F (x : Val) (rm : RM) (sat : Bool) : Nat × Nat :=
  match x with
  | .nan s => (canonNaN .f32, flagIf s fIV)
  | .inf false => roundTo .f32 (.inf false) rm sat
  | .inf true => (0, 0)
  | .fin n m e _ =>
    if m = 0 then roundTo .f32 (.fin false 1 0 false) rm sat
    else if 10 ≤ (log2 m : Int) + e then
      -- |x| ≥ 1,024: far beyond the range of F32
      if n then roundTo .f32 (.fin false 1 (-2000) true) rm sat else roundTo .f32 (.fin false 1 2000 false) rm sat
    else
      let v : Int := if 0 ≤ e then sint n (m * 2 ^ e.toNat) * (2 ^ 256 : Nat)
        else sint n m * (2 ^ (256 - (-e).toNat) : Nat)
      -- v = x × 2^256, exact: F32 inputs have e ≥ −149
      let i := v / (2 ^ 256 : Nat)
      let fr := (v % (2 ^ 256 : Nat)).toNat
      if fr = 0 then roundTo .f32 (.fin false 1 i false) rm sat
      else
        let y := fr * fxLn2 / 2 ^ 256
        let p := fxExp y
        roundBetween .f32 false (p - fxErr) (p + fxErr) (i - fxP) rm sat

/-- RoundTo(log2 x, F32) (R130). -/
def log2F (x : Val) (rm : RM) (sat : Bool) : Nat × Nat :=
  match x with
  | .nan s => (canonNaN .f32, flagIf s fIV)
  | .inf false => roundTo .f32 (.inf false) rm sat
  | .inf true => (canonNaN .f32, fIV)
  | .fin n m e _ =>
    if m = 0 then
      let r := roundTo .f32 (.inf true) rm sat
      (r.1, r.2 ||| fDZ)
    else if n then (canonNaN .f32, fIV)
    else
      let k := log2 m
      let i : Int := k + e
      if m = 2 ^ k then roundTo .f32 (ivalue i) rm sat
      else
        -- r = m / 2^k in (1, 2); t = (r − 1) / (r + 1)
        let t := (m - 2 ^ k) * 2 ^ fxP / (m + 2 ^ k)
        let q : Int := twoAtanh t * 2 ^ fxP / fxLn2 + i * (2 ^ fxP : Nat)
        roundBetween .f32 (decide (q < 0)) (q.natAbs - fxErr) (q.natAbs + fxErr) (-(fxP : Int)) rm sat

/-! ### Comparison, minimum and maximum (R129, R151, R227) -/

/-- Exact order of two values that are not NaN; −0 equals +0. -/
def Val.lt (x y : Val) : Bool :=
  match x, y with
  | .inf a, .inf b => a && !b
  | .inf a, _ => a
  | _, .inf b => !b
  | .fin n1 m1 e1 _, .fin n2 m2 e2 _ =>
    let e := min e1 e2
    decide (sint n1 (m1 * 2 ^ (e1 - e).toNat) < sint n2 (m2 * 2 ^ (e2 - e).toNat))
  | _, _ => false
/-- A condition code on floating values (R151): a NaN operand makes only NE true. -/
def ccFloat (cc : CC) (x y : Val) : Bool :=
  if x.isNaN || y.isNaN then cc == .ne
  else match cc with
  | .eq => !x.lt y && !y.lt x
  | .ne => x.lt y || y.lt x
  | .lt | .ltn => x.lt y
  | .ge | .gen => !x.lt y
  | .le | .len => !y.lt x
  | .gt | .gtn => y.lt x
/-- A condition code on integers; a trailing n is unsigned (R98). -/
def ccInt (cc : CC) (w a b : Nat) : Bool :=
  match cc with
  | .eq => a == b
  | .ne => a != b
  | .lt => decide (sgn w a < sgn w b)
  | .ge => decide (sgn w b ≤ sgn w a)
  | .ltn => decide (a < b)
  | .gen => decide (b ≤ a)
  | .le => decide (sgn w a ≤ sgn w b)
  | .gt => decide (sgn w b < sgn w a)
  | .len => decide (a ≤ b)
  | .gtn => decide (b < a)

/-- minimumNumber or maximumNumber of two encodings of a floating type (R129). -/
def minMaxF (t : Ty) (mx : Bool) (a b : Nat) : Nat × Nat :=
  let x := fvalue t a
  let y := fvalue t b
  let fl := flagIf (x.sig || y.sig) fIV
  if x.isNaN then (if y.isNaN then canonNaN t else b, fl)
  else if y.isNaN then (a, fl)
  else
    let less : Bool := x.lt y || (!y.lt x && x.neg && !y.neg)
    (if less != mx then a else b, fl)
/-- Minimum or maximum of two elements of any type. -/
def minMax (t : Ty) (mx : Bool) (a b : Nat) : Nat × Nat :=
  if tyFl t then minMaxF t mx a b
  else (if decide (intOf t a < intOf t b) != mx then a else b, 0)

/-! ### Scalar integer operations (R141, R142): result and flags at width w -/

def aluAdd (w a b : Nat) : Nat := (a + b) % 2 ^ w
def aluSub (w a b : Nat) : Nat := (a + 2 ^ w - b % 2 ^ w) % 2 ^ w
def aluMul (w a b : Nat) : Nat := a * b % 2 ^ w
def aluMulh (w a b : Nat) : Nat := wrap w (sgn w a * sgn w b / (2 ^ w : Nat))
def aluMulhn (w a b : Nat) : Nat := a * b / 2 ^ w
/-- Signed quotient toward zero. -/
def aluDiv (w a b : Nat) : Nat × Nat :=
  if b = 0 then (2 ^ w - 1, fID)
  else (wrap w (Int.tdiv (sgn w a) (sgn w b)), flagIf (a == 2 ^ (w - 1) && b == 2 ^ w - 1) fIO)
def aluDivn (w a b : Nat) : Nat × Nat := if b = 0 then (2 ^ w - 1, fID) else (a / b, 0)
def aluRem (w a b : Nat) : Nat × Nat :=
  if b = 0 then (a, fID)
  else (wrap w (Int.tmod (sgn w a) (sgn w b)), flagIf (a == 2 ^ (w - 1) && b == 2 ^ w - 1) fIO)
def aluRemn (_w a b : Nat) : Nat × Nat := if b = 0 then (a, fID) else (a % b, 0)
def aluShl (w a b : Nat) : Nat := a * 2 ^ (b % w) % 2 ^ w
def aluShr (w a b : Nat) : Nat := a / 2 ^ (b % w)
def aluSar (w a b : Nat) : Nat := wrap w (sgn w a / (2 ^ (b % w) : Nat))
def aluRotl (w a b : Nat) : Nat := (a * 2 ^ (b % w) + a / 2 ^ (w - b % w)) % 2 ^ w

end Sys2Proof.Machine
end

