-- ==== Sys2Proof/Decode.lean ====
section
/-!
DEFINITION. Sys2Proof/Decode.lean: from lane words to forms and back.  `decodeForm` reads a form of a given space from
its lanes (R94 to R107); it is total and names its refusals by the reasons of R109.  `encodeForm` writes the lanes of a
form from the same tables.  `decodeTableWord` lays out a word of spec/opcode_table.json and decodes it.
A lane is a number below 2^32; `fld w lo n` is its field of n bits from bit lo.
-/
namespace Sys2Proof

/-- The result of decoding. -/
abbrev Dec := Except DecodeError Instr

/-- Bits lo + n − 1 : lo of a lane. -/
def fld (w lo n : Nat) : Nat := w / 2 ^ lo % 2 ^ n
/-- A field of Fin n. -/
def fin (k : Nat) [NeZero k] (w lo : Nat) : Fin k := Fin.ofNat k (w / 2 ^ lo)
/-- A scalar field. -/
def sF (w lo : Nat) : SIx := fin 32 w lo
/-- A predicate field. -/
def pF (w lo : Nat) : PIx := fin 8 w lo
/-- A handle or shape-record field. -/
def hF (w lo : Nat) : HIx := fin 16 w lo
/-- One bit. -/
def bF (w lo : Nat) : Bool := w / 2 ^ lo % 2 == 1
/-- An immediate field. -/
def iF (n w lo : Nat) : BitVec n := BitVec.ofNat n (w / 2 ^ lo)

/-- The guard of a first lane (R94). -/
def guardOf (w : Nat) : Guard := ⟨bF w 31, pF w 28⟩
/-- The head of a first lane (R94). -/
def headOf (w : Nat) : Head := ⟨guardOf w, bF w 27, bF w 26, bF w 25, bF w 24⟩

/-- Go on when a check holds, else refuse with its reason. -/
def need (ok : Bool) (e : DecodeError) (k : Dec) : Dec := if ok then k else .error e
/-- Bits lo + n − 1 : lo must be zero (R96). -/
def zero (w lo n : Nat) (k : Dec) : Dec := need (fld w lo n == 0) .reservedBits k
/-- A small code field (R98). -/
def code {α : Type} (o : Option α) (k : α → Dec) : Dec :=
  match o with
  | some x => k x
  | none => .error .noMeaning
/-- A type field (R97, R113). -/
def tyF (w lo : Nat) (k : Ty → Dec) : Dec :=
  match Ty.ofCode (fld w lo 5) with
  | some t => k t
  | none => .error .typeNotAccepted
/-- A vector source field. -/
def vs (w lo : Nat) (k : VSrc → Dec) : Dec :=
  match VSrc.ofCode (fld w lo 5) with
  | .ok x => k x
  | .error e => .error e
/-- A vector destination field. -/
def vd (w lo : Nat) (k : VDst → Dec) : Dec :=
  match VDst.ofCode (fld w lo 5) with
  | .ok x => k x
  | .error e => .error e

/-! ### Layouts (R100, R101) -/

/-- S3 with W. -/
def lS3w (w : Nat) (k : SIx → SIx → SIx → Bool → Instr) : Dec := .ok (k (sF w 11) (sF w 6) (sF w 1) (bF w 0))
/-- S3 with W zero. -/
def lS3 (w : Nat) (k : SIx → SIx → SIx → Dec) : Dec := zero w 0 1 (k (sF w 11) (sF w 6) (sF w 1))
/-- S2. -/
def lS2 (w : Nat) (k : SIx → SIx → Dec) : Dec := zero w 0 6 (k (sF w 11) (sF w 6))
/-- S1. -/
def lS1 (w : Nat) (k : SIx → Dec) : Dec := zero w 0 11 (k (sF w 11))
/-- S2I. -/
def lS2I (w : Nat) (k : SIx → SIx → BitVec 6 → Instr) : Dec := .ok (k (sF w 11) (sF w 6) (iF 6 w 0))
/-- PL. -/
def lPL (w : Nat) (k : PIx → PIx → PIx → Bool → Bool → Instr) : Dec :=
  zero w 0 5 (.ok (k (pF w 13) (pF w 10) (pF w 7) (bF w 6) (bF w 5)))
/-- CP; I is passed on.  CT and CC are read before a form's other zero bits (notes/assumptions/66.md). -/
def lCP (w : Nat) (k : PIx → PIx → Bool → CT → CC → Dec) : Dec :=
  zero w 0 2 (code (CT.ofCode (fld w 7 3)) fun ct => code (CC.ofCode (fld w 3 4)) fun cc =>
    k (pF w 13) (pF w 10) (bF w 2) ct cc)
/-- TL of the scalar floating forms: OC unless used, TZ, IMM13 zero and TY F32 (R149). -/
def lTLf (l : Nat) (oc : Bool) (k : SIx → RM → Bool → Instr) : Dec :=
  need (oc || fld l 27 5 == 0) .reservedBits (zero l 17 5 (zero l 0 13
    (code (RM.ofCode (fld l 14 3)) fun rm =>
      need (fld l 22 5 == 0x0A) .typeNotAccepted (.ok (k (sF l 27) rm (bF l 13))))))
/-- M1 + AL (R197): HS, SD or SA, SB; the AL lane is passed on. -/
def lM1 (w : Nat) (k : HIx → SIx → SIx → Dec) : Dec := zero w 0 2 (k (hF w 12) (sF w 7) (sF w 2))
/-- The semaphore fields of EL (R101). -/
def lSems (l : Nat) : Sems := ⟨bF l 21, hF l 17, bF l 16, hF l 12⟩
/-- E1 + EL with the flags of R205. -/
def lEL (l : Nat) (k : CopyFlags → Dec) : Dec :=
  zero l 0 2 (code (Clip.ofCode (fld l 8 2)) fun clip => code (Fe.ofCode (fld l 4 2)) fun sfe =>
    k ⟨clip, bF l 7, bF l 6, sfe, bF l 3, bF l 2⟩)
/-- ER: SA, SEN and SEMS; SEMS must be zero without SEN (R290, R310, R322, R330). -/
def lER (w : Nat) (k : SIx → Option (Fin 16) → Instr) : Dec :=
  if bF w 10 then .ok (k (sF w 11) (some (hF w 6)))
  else zero w 6 4 (.ok (k (sF w 11) none))
/-- ER of a pop form: SEN and SEMS zero. -/
def lERpop (w : Nat) (k : SIx → Instr) : Dec := zero w 6 5 (.ok (k (sF w 11)))
/-- QL (R202, R203). -/
def lQL (l : Nat) (k : SIx → SIx → Clip → Fe → Bool → Instr) : Dec :=
  zero l 0 17 (code (Clip.ofCode (fld l 20 2)) fun clip => code (Fe.ofCode (fld l 18 2)) fun fe =>
    .ok (k (sF l 27) (sF l 22) clip fe (bF l 17)))

/-- The fields of a VV1 + TL form: which of VA, VB, OC, TZ, IMM13, RM, SAT it uses (R221, R222). -/
structure VUse where
  va : Bool
  vb : Bool
  oc : Bool
  tz : Bool
  imm : Bool
  rm : Bool
  sat : Bool

/-- The reserved-bit checks of a VV1 + TL form. -/
def vZero (u : VUse) (w l : Nat) (k : Dec) : Dec :=
  zero w 0 1 (need (u.va || fld w 6 5 == 0) .reservedBits (need (u.vb || fld w 1 5 == 0) .reservedBits
    (need (u.oc || fld l 27 5 == 0) .reservedBits (need (u.tz || fld l 17 5 == 0) .reservedBits
      (need (u.rm || fld l 14 3 == 0) .reservedBits (need (u.sat || fld l 13 1 == 0) .reservedBits
        (need (u.imm || fld l 0 13 == 0) .reservedBits k)))))))

/-- RM of a TL lane. -/
def rmF (l : Nat) (k : RM → Dec) : Dec := code (RM.ofCode (fld l 14 3)) k

/-- Two sources, TY, RM, SAT. -/
def v2rs (w l : Nat) (k : VDst → VSrc → VSrc → Ty → RM → Bool → Instr) : Dec :=
  vZero ⟨true, true, false, false, false, true, true⟩ w l (vd w 11 fun d => vs w 6 fun a => vs w 1 fun b =>
    rmF l fun rm => tyF l 22 fun ty => .ok (k d a b ty rm (bF l 13)))
/-- Three sources, TY, RM, SAT. -/
def v3rs (w l : Nat) (k : VDst → VSrc → VSrc → VSrc → Ty → RM → Bool → Instr) : Dec :=
  vZero ⟨true, true, true, false, false, true, true⟩ w l (vd w 11 fun d => vs w 6 fun a => vs w 1 fun b =>
    vs l 27 fun c => rmF l fun rm => tyF l 22 fun ty => .ok (k d a b c ty rm (bF l 13)))
/-- Two sources, TY. -/
def v2 (w l : Nat) (k : VDst → VSrc → VSrc → Ty → Instr) : Dec :=
  vZero ⟨true, true, false, false, false, false, false⟩ w l (vd w 11 fun d => vs w 6 fun a => vs w 1 fun b =>
    tyF l 22 fun ty => .ok (k d a b ty))
/-- Three sources, TY. -/
def v3 (w l : Nat) (k : VDst → VSrc → VSrc → VSrc → Ty → Instr) : Dec :=
  vZero ⟨true, true, true, false, false, false, false⟩ w l (vd w 11 fun d => vs w 6 fun a => vs w 1 fun b =>
    vs l 27 fun c => tyF l 22 fun ty => .ok (k d a b c ty))
/-- One source, TY, RM, SAT. -/
def v1rs (w l : Nat) (k : VDst → VSrc → Ty → RM → Bool → Instr) : Dec :=
  vZero ⟨true, false, false, false, false, true, true⟩ w l (vd w 11 fun d => vs w 6 fun a =>
    rmF l fun rm => tyF l 22 fun ty => .ok (k d a ty rm (bF l 13)))
/-- One source, TY, SAT. -/
def v1s (w l : Nat) (k : VDst → VSrc → Ty → Bool → Instr) : Dec :=
  vZero ⟨true, false, false, false, false, false, true⟩ w l (vd w 11 fun d => vs w 6 fun a =>
    tyF l 22 fun ty => .ok (k d a ty (bF l 13)))
/-- One source, TY. -/
def v1 (w l : Nat) (k : VDst → VSrc → Ty → Instr) : Dec :=
  vZero ⟨true, false, false, false, false, false, false⟩ w l (vd w 11 fun d => vs w 6 fun a =>
    tyF l 22 fun ty => .ok (k d a ty))
/-- One F32 source, RM, SAT (R222, R130). -/
def v1f (w l : Nat) (k : VDst → VSrc → RM → Bool → Instr) : Dec :=
  vZero ⟨true, false, false, false, false, true, true⟩ w l (vd w 11 fun d => vs w 6 fun a =>
    rmF l fun rm => tyF l 22 fun ty => need (ty == .f32) .typeNotAccepted (.ok (k d a rm (bF l 13))))

/-! ### The spaces -/

/-- Lanes of a form of the common space (R102); none for an unassigned opcode. -/
def lanesCommon (o : Nat) : Option Nat :=
  if o ≤ 0x1D then some 1
  else match o with
  | 0x20 => some 1 | 0x21 => some 2 | 0x22 => some 3 | 0x23 => some 2
  | 0x24 | 0x25 | 0x26 | 0x27 | 0x28 => some 1
  | 0x29 | 0x2A | 0x30 | 0x31 => some 2
  | 0x34 | 0x35 | 0x36 | 0x37 | 0x38 | 0x39 | 0x3A | 0x3B | 0x3C | 0x3D | 0x3E | 0x3F => some 1
  | _ => none

/-- Lanes of a form by space and opcode (R102 to R107); none for an unassigned opcode. -/
def laneCount (sp : Space) (o : Nat) : Option Nat :=
  match sp with
  | .all => if o ≤ 0x0B then some 1 else none
  | .c =>
    if o < 0x40 then lanesCommon o
    else if o ≤ 0x49 then some 2
    else match o with
    | 0x4A | 0x4B | 0x50 => some 1
    | 0x51 => some 2
    | 0x58 | 0x59 | 0x5A | 0x5B => some 1
    | 0x5C => some 2
    | 0x5D => some 1
    | 0x5E => some 3
    | 0x5F => some 1
    | 0x60 | 0x61 | 0x62 | 0x63 | 0x64 => some 2
    | 0x65 | 0x66 => some 3
    | 0x70 | 0x71 | 0x72 | 0x73 | 0x74 => some 2
    | 0x75 | 0x76 | 0x80 => some 1
    | 0x81 | 0x82 => some 2
    | 0x83 => some 1
    | 0x84 | 0x85 => some 2
    | 0x86 | 0x87 | 0x88 => some 1
    | 0x90 | 0x91 | 0x92 | 0x93 | 0x94 | 0x95 => some 1
    | 0x96 => some 2
    | 0x97 | 0x98 => some 1
    | 0xA0 | 0xA1 | 0xA2 | 0xA3 | 0xA4 | 0xA5 | 0xA6 | 0xA7 | 0xA8 | 0xA9 | 0xAA => some 1
    | _ => none
  | .a =>
    if o < 0x40 then lanesCommon o
    else match o with
    | 0x40 | 0x41 => some 2
    | 0x42 => some 1
    | 0x60 | 0x61 | 0x62 | 0x63 | 0x64 => some 2
    | 0x65 | 0x66 => some 3
    | _ => none
  | .v =>
    if o < 0x40 then lanesCommon o
    else if o ≤ 0x71 then some 2
    else match o with
    | 0x72 | 0x73 => some 1
    | 0x74 | 0x75 | 0x76 => some 2
    | _ => none

/-- The common space (R102). -/
def decodeCommon (o : Nat) (h : Head) (w l m : Nat) : Dec :=
  match o with
  | 0x00 => lS3w w (.add h)
  | 0x01 => lS3w w (.sub h)
  | 0x02 => lS3w w (.mul h)
  | 0x03 => lS3w w (.mulh h)
  | 0x04 => lS3w w (.mulhn h)
  | 0x05 => lS3w w (.div h)
  | 0x06 => lS3w w (.divn h)
  | 0x07 => lS3w w (.rem h)
  | 0x08 => lS3w w (.remn h)
  | 0x09 => lS3w w (.and h)
  | 0x0A => lS3w w (.or h)
  | 0x0B => lS3w w (.xor h)
  | 0x0C => lS3w w (.shl h)
  | 0x0D => lS3w w (.shr h)
  | 0x0E => lS3w w (.sar h)
  | 0x0F => lS3w w (.rotl h)
  | 0x10 => lS2I w (.addi h)
  | 0x11 => lS2I w (.muli h)
  | 0x12 => lS2I w (.andi h)
  | 0x13 => lS2I w (.ori h)
  | 0x14 => lS2I w (.xori h)
  | 0x15 => lS2I w (.shli h)
  | 0x16 => lS2I w (.shri h)
  | 0x17 => lS2I w (.sari h)
  | 0x18 => lS2I w (.rotli h)
  | 0x19 => lS2 w fun d a => .ok (.clz h d a)
  | 0x1A => lS2 w fun d a => .ok (.ctz h d a)
  | 0x1B => lS2 w fun d a => .ok (.popc h d a)
  | 0x1C => lS2 w fun d a => .ok (.mov h d a)
  | 0x1D => zero w 0 8 (.ok (.flgclr h (iF 8 w 8)))
  | 0x20 => .ok (.movi h (sF w 11) (iF 11 w 0))
  | 0x21 => lS1 w fun d => .ok (.movil h d (iF 32 l 0))
  | 0x22 => lS1 w fun d => .ok (.moviq h d (BitVec.ofNat 64 (m * 2 ^ 32 + l)))
  | 0x23 => lS2 w fun d a => .ok (.addil h d a (iF 32 l 0))
  | 0x24 => lS3 w fun d a b => .ok (.min h d a b)
  | 0x25 => lS3 w fun d a b => .ok (.max h d a b)
  | 0x26 => lS3 w fun d a b => .ok (.minn h d a b)
  | 0x27 => lS3 w fun d a b => .ok (.maxn h d a b)
  | 0x28 => lS2I w (.path h)
  | 0x29 => lS2 w fun d a => zero l 0 19 (.ok (.extr h d a (iF 6 l 26) (iF 6 l 20) (bF l 19)))
  | 0x2A => lS2 w fun d a => zero l 0 20 (.ok (.insr h d a (iF 6 l 26) (iF 6 l 20)))
  | 0x30 => lCP w fun pd pe i ct cc =>
      if i then .ok (.cmp h pd pe ct cc (sF l 27) (.imm (iF 27 l 0)))
      else zero l 0 22 (.ok (.cmp h pd pe ct cc (sF l 27) (.reg (sF l 22))))
  | 0x31 => lCP w fun pd pe i ct cc =>
      need i .noMeaning (zero l 6 21 (.ok (.tbit h pd pe ct cc (sF l 27) (iF 6 l 0))))
  | 0x34 => lPL w (.pand h)
  | 0x35 => lPL w (.por h)
  | 0x36 => lPL w (.pxor h)
  | 0x37 => lS1 w fun d => .ok (.pget h d)
  | 0x38 => lS1 w fun a => .ok (.pput h a)
  | 0x39 => zero w 0 6 (.ok (.qsend h (sF w 11) (fin 32 w 6)))
  | 0x3A => zero w 0 6 (.ok (.qrecv h (sF w 11) (fin 32 w 6)))
  | 0x3B => zero w 0 6 (.ok (.qtest h (sF w 11) (fin 32 w 6)))
  | 0x3C => code (Spr.ofCode (fld w 0 11)) fun r => .ok (.mfsr h (sF w 11) r)
  | 0x3D => code (Spr.ofCode (fld w 0 11)) fun r => .ok (.mtsr h (sF w 11) r)
  | 0x3E => zero w 0 16 (.ok (.nop h))
  | 0x3F => zero w 0 8 (.ok (.brk h (iF 8 w 8)))
  | _ => .error .unassignedOpcode

/-- Scalar access, the same in C's and A's spaces (R197, R200). -/
def decodeAccess (o : Nat) (h : Head) (w l m : Nat) : Dec :=
  match o with
  | 0x60 => lM1 w fun hs d b => zero l 21 4 (code (Fe.ofCode (fld l 25 2)) fun fe => tyF l 27 fun ty =>
      .ok (.ld h hs d b ty fe (iF 21 l 0)))
  | 0x61 => lM1 w fun hs a b => zero l 21 4 (code (Fe.ofCode (fld l 25 2)) fun fe => tyF l 27 fun ty =>
      .ok (.st h hs a b ty fe (iF 21 l 0)))
  | 0x62 => lM1 w fun hs d b => zero l 21 6 (tyF l 27 fun ty => .ok (.ldl h hs d b ty (iF 21 l 0)))
  | 0x63 => lM1 w fun hs d b => zero l 21 11 (.ok (.gtest h hs d b (iF 21 l 0)))
  | 0x64 => lM1 w fun hs a b => zero l 21 11 (.ok (.gset h hs a b (iF 21 l 0)))
  | 0x65 => lM1 w fun hs d b => zero l 25 2 (zero m 0 18 (zero m 22 5
      (code (Ord.ofCode (fld l 23 2)) fun ord => code (Scp.ofCode (fld l 21 2)) fun scp =>
        code (AOp.ofCode (fld m 18 4)) fun op => tyF l 27 fun ty =>
          .ok (.amo h hs d b ty ord scp (iF 21 l 0) (sF m 27) op))))
  | 0x66 => lM1 w fun hs d b => zero l 25 2 (zero m 0 18 (zero m 18 4
      (code (Ord.ofCode (fld l 23 2)) fun ord => code (Scp.ofCode (fld l 21 2)) fun scp => tyF l 27 fun ty =>
          .ok (.acas h hs d b ty ord scp (iF 21 l 0) (sF m 27) (sF m 22)))))
  | _ => .error .unassignedOpcode

/-- C's own space, scalar forms and handles (R103, R149 to R162, R174, R189 to R192). -/
def decodeC1 (o : Nat) (h : Head) (w l m : Nat) : Dec :=
  match o with
  | 0x40 => lS3 w fun d a b => lTLf l false fun _ rm s => .fadd h d a b rm s
  | 0x41 => lS3 w fun d a b => lTLf l false fun _ rm s => .fsub h d a b rm s
  | 0x42 => lS3 w fun d a b => lTLf l false fun _ rm s => .fmul h d a b rm s
  | 0x43 => lS3 w fun d a b => lTLf l false fun _ rm s => .fdiv h d a b rm s
  | 0x44 => lS3 w fun d a b => lTLf l true fun c rm s => .fma h d a b c rm s
  | 0x45 => lS3 w fun d a b => zero l 13 4 (lTLf l false fun _ _ _ => .fmin h d a b)
  | 0x46 => lS3 w fun d a b => zero l 13 4 (lTLf l false fun _ _ _ => .fmax h d a b)
  | 0x47 => lS2 w fun d a => lTLf l false fun _ rm s => .fsqrt h d a rm s
  | 0x48 => lS2 w fun d a => zero l 27 5 (zero l 0 13 (rmF l fun rm => tyF l 22 fun ty => tyF l 17 fun tz =>
      .ok (.fcvt h d a ty tz rm (bF l 13))))
  | 0x49 => lCP w fun pd pe i ct cc => need (!i) .noMeaning (zero l 0 22
      (.ok (.fcmp h pd pe ct cc (sF l 27) (sF l 22))))
  | 0x4A => lS2 w fun d a => .ok (.fneg h d a)
  | 0x4B => lS2 w fun d a => .ok (.fabs h d a)
  | 0x50 => zero w 0 8 (.ok (.trap h (iF 8 w 8)))
  | 0x51 => lS2 w fun d a => zero l 0 8 (match fld l 28 4 with
      | 0 => .ok (.inj h d a (.accBit (fin 4 l 26) (fin 64 l 20) (fin 64 l 14) (fin 64 l 8)))
      | 1 => zero l 8 20 (.ok (.inj h d a .scratchPoison))
      | 2 => zero l 8 20 (.ok (.inj h d a .shadowMismatch))
      | _ => .error .immediateRange)
  | 0x58 => zero w 0 2 (.ok (.xlate h (hF w 12) (sF w 7) (sF w 2)))
  | 0x59 => lS2 w fun d a => .ok (.probe h d a)
  | 0x5A => zero w 0 2 (.ok (.hloc h (hF w 12) (sF w 7) (sF w 2)))
  | 0x5B => zero w 0 8 (.ok (.hmov h (hF w 12) (hF w 8)))
  | 0x5C => zero w 0 4 (zero l 0 22 (.ok (.hsub h (hF w 12) (hF w 8) (hF w 4) (sF l 27) (sF l 22))))
  | 0x5D => zero w 0 3 (code (HField.ofCode (fld w 3 4)) fun f => .ok (.hget h (sF w 11) (hF w 7) f))
  | 0x5E => zero w 0 12 (.ok (.tset h (hF w 12) (BitVec.ofNat 64 (m * 2 ^ 32 + l))))
  | 0x5F => zero w 0 3 (code (TField.ofCode (fld w 3 4)) fun f => .ok (.tget h (sF w 11) (hF w 7) f))
  | _ => .error .unassignedOpcode

/-- C's own space, copy and matrix engines (R205, R213, R214, R241, R245, R248, R253, R254). -/
def decodeC2 (o : Nat) (h : Head) (w l : Nat) : Dec :=
  match o with
  | 0x70 => lEL l fun f => .ok (.copy h (hF w 12) (hF w 8) (hF w 4) (hF w 0) (sF l 27) (sF l 22) (lSems l) (fin 4 l 10) f)
  | 0x71 => zero w 8 4 (zero w 0 4 (zero l 22 5 (zero l 7 3 (zero l 4 2 (zero l 0 2
      (.ok (.fill h (hF w 12) (hF w 4) (sF l 27) (lSems l) (fin 4 l 10) (bF l 6) (bF l 3) (bF l 2))))))))
  | 0x72 => lEL l fun f => .ok (.gather h (hF w 12) (hF w 8) (hF w 4) (hF w 0) (sF l 27) (sF l 22) (lSems l) (fin 4 l 10) f)
  | 0x73 => lEL l fun f => .ok (.scatter h (hF w 12) (hF w 8) (hF w 4) (hF w 0) (sF l 27) (sF l 22) (lSems l) (fin 4 l 10) f)
  | 0x74 => zero w 15 1 (zero w 4 4 (lEL l fun f =>
      .ok (.tring h (fin 8 w 12) (hF w 8) (hF w 0) (sF l 27) (sF l 22) (lSems l) (fin 4 l 10) f)))
  | 0x75 => zero w 0 14 (.ok (.ccancel h (fin 4 w 14)))
  | 0x76 => zero w 0 6 (.ok (.evpop h (sF w 11) (sF w 6)))
  | 0x80 => lS1 w fun a => .ok (.mfmt h a)
  | 0x81 => zero w 0 16 (.ok (.mfmti h (iF 32 l 0)))
  | 0x82 => zero w 0 2 (
      let s : Sems := ⟨bF l 9, hF l 5, bF l 4, hF l 0⟩
      let k := fun sel => .mmul h (fin 8 w 13) (fin 8 w 10) sel (fin 64 l 26) (fin 64 l 20) (fin 1024 l 10) s
      if bF w 7 then zero w 8 2 (.ok (k (.loop (fin 8 w 4) (fin 4 w 2))))
      else zero w 2 5 (.ok (k (.acc (fin 4 w 8)))))
  | 0x83 => zero w 0 14 (.ok (.mzero h (fin 4 w 14)))
  | 0x84 => zero w 0 6 (zero l 0 22 (.ok (.accld h (fin 4 w 14) (hF w 10) (hF w 6) (sF l 27) (sF l 22))))
  | 0x85 => zero w 0 6 (zero l 0 22 (.ok (.accst h (fin 4 w 14) (hF w 10) (hF w 6) (sF l 27) (sF l 22))))
  | 0x86 => zero w 0 3 (.ok (.ringcfg h (fin 8 w 13) (sF w 8) (sF w 3)))
  | 0x87 => zero w 0 13 (.ok (.ringrel h (fin 8 w 13)))
  | 0x88 => zero w 0 8 (.ok (.ringq h (sF w 8) (fin 8 w 13)))
  | _ => .error .unassignedOpcode

/-- C's own space, synchronisation, jobs and package engines (R279 to R286, R290, R310, R322, R330, R339). -/
def decodeC3 (o : Nat) (h : Head) (w l : Nat) : Dec :=
  match o with
  | 0x90 => zero w 0 12 (.ok (.bar h (hF w 12)))
  | 0x91 => zero w 0 7 (.ok (.semsig h (hF w 12) (sF w 7)))
  | 0x92 => zero w 0 7 (.ok (.semwait h (hF w 12) (sF w 7)))
  | 0x93 => zero w 0 7 (.ok (.semrd h (sF w 7) (hF w 12)))
  | 0x94 => zero w 0 8 (.ok (if bF w 13 then .tagpubP h (fin 4 w 14) (sF w 8) else .tagpub h (fin 4 w 14) (sF w 8)))
  | 0x95 => zero w 13 1 (zero w 0 3 (.ok (.tagtest h (sF w 8) (fin 4 w 14) (sF w 3))))
  | 0x96 => lS3 w fun d a b => zero l 0 27 (.ok (.jpatch h d a b (fin 32 l 27)))
  | 0x97 => lS2 w fun d a => .ok (.jarm h d a)
  | 0x98 => lS2 w fun d a => .ok (.jstat h d a)
  | 0xA0 => (match fld w 0 6 with
      | 0 => lER w (.pool h) | 1 => lERpop w (.poolPop h) | _ => .error .noMeaning)
  | 0xA1 => (match fld w 0 6 with
      | 0 => lER w (.hotqLook h) | 1 => lER w (.hotqFill h) | 2 => lER w (.hotqInv h) | 3 => lER w (.hotqDrops h)
      | _ => .error .noMeaning)
  | 0xA2 => (match fld w 0 6 with
      | 0 => lER w (.skqEst h) | 1 => lER w (.skqClr h) | _ => .error .noMeaning)
  | 0xA3 => (match fld w 0 6 with
      | 0 => lER w (.scupdSgd h) | 1 => lER w (.scupdAdagrad h) | 2 => lER w (.scupdAdam h) | _ => .error .noMeaning)
  | 0xA4 => (match fld w 0 6 with
      | 0 => lER w (.nmrun h) | _ => .error .noMeaning)
  | 0xA5 => lS2 w fun d a => .ok (.nmstat h d a)
  | 0xA6 => (match fld w 0 6 with
      | 0 => lER w (.ixwalk h) | 1 => lERpop w (.ixwalkPop h) | _ => .error .noMeaning)
  | 0xA7 => (match fld w 0 6 with
      | 0 => lER w (.a2aIdx h) | 1 => lER w (.a2aVec h) | 2 => lERpop w (.a2aPop h) | _ => .error .noMeaning)
  | 0xA8 => (match fld w 0 6 with
      | 0 => lER w (.xredSum h) | 1 => lER w (.xredMin h) | 2 => lER w (.xredMax h) | _ => .error .noMeaning)
  | 0xA9 => (match fld w 0 6 with
      | 0 => lER w (.xput h) | _ => .error .noMeaning)
  | 0xAA => lS1 w fun a => .ok (.xabort h a)
  | _ => .error .unassignedOpcode

/-- A's own space (R104). -/
def decodeA (o : Nat) (h : Head) (w l m : Nat) : Dec :=
  match o with
  | 0x40 => zero w 0 6 (lQL l fun i j clip fe bp => .ldq h (hF w 12) (hF w 8) (fin 4 w 6) i j clip fe bp)
  | 0x41 => zero w 0 8 (lQL l fun i j clip fe bp => .stq h (hF w 12) (hF w 8) i j clip fe bp)
  | 0x42 => zero w 0 7 (code (Ew.ofCode (fld w 7 2)) fun ew => .ok (.qsplat h (fin 4 w 14) (sF w 9) ew))
  | o => decodeAccess o h w l m

/-- V's own space, lane-wise arithmetic and conversions (R222, R225, R227). -/
def decodeV1 (o : Nat) (h : Head) (w l : Nat) : Dec :=
  match o with
  | 0x40 => v2rs w l (.vadd h)
  | 0x41 => v2rs w l (.vsub h)
  | 0x42 => v2rs w l (.vmul h)
  | 0x43 => v3rs w l (.vfma h)
  | 0x44 => v3rs w l (.vfms h)
  | 0x45 => v3rs w l (.vfnma h)
  | 0x46 => v2rs w l (.vdiv h)
  | 0x47 => v2 w l (.vmin h)
  | 0x48 => v2 w l (.vmax h)
  | 0x49 => v1s w l (.vabs h)
  | 0x4A => v1s w l (.vneg h)
  | 0x4B => v2 w l (.vmulh h)
  | 0x4C => v2 w l (.vand h)
  | 0x4D => v2 w l (.vor h)
  | 0x4E => v2 w l (.vxor h)
  | 0x4F => v2 w l (.vandn h)
  | 0x50 => v2 w l (.vshl h)
  | 0x51 => v2 w l (.vshr h)
  | 0x52 => v2 w l (.vsar h)
  | 0x53 => v1f w l (.vrcp h)
  | 0x54 => v1f w l (.vrsq h)
  | 0x55 => v1f w l (.vsqrt h)
  | 0x56 => v1f w l (.vexp2 h)
  | 0x57 => v1f w l (.vlog2 h)
  | 0x58 => vZero ⟨true, false, false, true, true, true, true⟩ w l (vd w 11 fun d => vs w 6 fun a =>
      rmF l fun rm => tyF l 22 fun ty => tyF l 17 fun tz => .ok (.vcvt h d a ty tz rm (bF l 13) (iF 13 l 0)))
  | 0x59 => lCP w fun pd pe i ct cc => zero l 0 17 (need (!i) .noMeaning (vs l 27 fun a => vs l 22 fun b =>
      tyF l 17 fun ty => .ok (.vcmp h pd pe ct cc a b ty)))
  | _ => .error .unassignedOpcode

/-- V's own space, moves, reductions, accumulators and predicates (R226, R228 to R234).  Nonzero bits 12:3 of VSEL's IMM13
have detail 0x02, a DESIGN CHOICE (notes/assumptions/66.md). -/
def decodeV2 (o : Nat) (h : Head) (w l : Nat) : Dec :=
  match o with
  | 0x5A => vZero ⟨true, true, false, false, true, false, false⟩ w l (vd w 11 fun d => vs w 6 fun a => vs w 1 fun b =>
      tyF l 22 fun ty => zero l 3 10 (.ok (.vsel h d (pF l 0) a b ty)))
  | 0x5B => v1 w l (.vmov h)
  | 0x5C => vZero ⟨true, false, false, false, false, false, false⟩ w l (vd w 11 fun d => tyF l 22 fun ty =>
      .ok (.vsplat h d (sF w 6) ty))
  | 0x5D => vZero ⟨false, false, false, false, true, false, false⟩ w l (vd w 11 fun d => tyF l 22 fun ty =>
      .ok (.vsplati h d (iF 13 l 0) ty))
  | 0x5E => vZero ⟨true, false, false, false, true, false, false⟩ w l (vs w 6 fun a => tyF l 22 fun ty =>
      .ok (.vext h (sF w 11) a ty (iF 13 l 0)))
  | 0x5F => vZero ⟨true, false, false, false, true, false, false⟩ w l
      (need (fld w 11 5 < 16) .noMeaning (tyF l 22 fun ty => .ok (.vins h (hF w 11) (sF w 6) ty (iF 13 l 0))))
  | 0x60 => v1rs w l (.vrsum h)
  | 0x61 => v1 w l (.vrmax h)
  | 0x62 => v1 w l (.vrmin h)
  | 0x63 => v1 w l (.vramax h)
  | 0x64 => v2 w l (.vshuf h)
  | 0x65 => v3 w l (.vperm h)
  | 0x66 => vZero ⟨true, false, false, false, true, false, false⟩ w l (vd w 11 fun d => vs w 6 fun a =>
      tyF l 22 fun ty => .ok (.vrot h d a ty (iF 13 l 0)))
  | 0x67 => vZero ⟨true, true, false, true, false, false, true⟩ w l (vd w 11 fun d => vs w 6 fun a => vs w 1 fun b =>
      tyF l 22 fun ty => tyF l 17 fun tz => .ok (.vpack h d a b ty tz (bF l 13)))
  | 0x68 => vZero ⟨true, false, false, true, true, false, false⟩ w l (vd w 11 fun d => vs w 6 fun a =>
      tyF l 22 fun ty => tyF l 17 fun tz => .ok (.vunpk h d a ty tz (iF 13 l 0)))
  | 0x69 => v1 w l (.vclass h)
  | 0x6A => v2rs w l (.vscale h)
  | 0x6B => vZero ⟨true, false, false, false, false, true, false⟩ w l (vd w 11 fun d => vs w 6 fun a =>
      rmF l fun rm => tyF l 22 fun ty => .ok (.vrint h d a ty rm))
  | 0x6C => v2 w l (.vsgn h)
  | 0x6D => v1 w l (.vclz h)
  | 0x6E => v1 w l (.vpopc h)
  | 0x6F => v1rs w l (.vrsumsq h)
  | 0x70 => zero w 0 1 (zero l 27 5 (zero l 0 13 (vd w 11 fun d => rmF l fun rm => tyF l 22 fun ty => tyF l 17 fun tz =>
      .ok (.vaccrd h d (fin 4 w 9) (fin 64 w 3) (fin 4 w 1) ty tz rm (bF l 13)))))
  | 0x71 => zero w 0 1 (zero l 27 5 (zero l 0 13 (need (fld w 11 5 < 20 || fld w 11 5 == 21) .noMeaning
      (vs w 11 fun a => rmF l fun rm => tyF l 22 fun ty => tyF l 17 fun tz =>
        .ok (.vaccwr h a (fin 4 w 9) (fin 64 w 3) (fin 4 w 1) ty tz rm (bF l 13))))))
  | 0x72 => zero w 0 4 (code (Ew.ofCode (fld w 11 2)) fun ew => .ok (.vmaski h (pF w 13) ew (iF 7 w 4)))
  | 0x73 => zero w 0 8 (.ok (.vcntp h (sF w 11) (pF w 8)))
  | 0x74 => v3 w l (.vclamp h)
  | 0x75 => vZero ⟨false, false, false, false, false, false, false⟩ w l (vd w 11 fun d => tyF l 22 fun ty =>
      .ok (.viota h d ty))
  | 0x76 => v2rs w l (.vabd h)
  | _ => .error .unassignedOpcode

/-- The ALL space (R106). -/
def decodeAll (o : Nat) (g : Guard) (w : Nat) : Dec :=
  match o with
  | 0x00 => .ok (.br g (iF 16 w 0))
  | 0x01 => .ok (.call g (iF 16 w 0))
  | 0x02 => lS1 w fun a => .ok (.bri g a)
  | 0x03 => zero w 0 16 (.ok (.ret g))
  | 0x04 => if bF w 12 then .ok (.loopImm g (fin 8 w 13) (iF 12 w 0))
      else zero w 0 7 (.ok (.loopReg g (fin 8 w 13) (sF w 7)))
  | 0x05 => .ok (.endl g (fin 8 w 13) (iF 13 w 0))
  | 0x06 => .ok (.lexit g (fin 8 w 13) (iF 13 w 0))
  | 0x07 => zero w 0 16 (.ok (.phase g))
  | 0x08 => zero w 0 16 (.ok (.quiet g))
  | 0x09 => zero w 0 16 (.ok (.trapf g))
  | 0x0A => zero w 0 16 (.ok (.kend g))
  | 0x0B => zero w 0 12 (code (Ord.ofCode (fld w 14 2)) fun ord => code (Scp.ofCode (fld w 12 2)) fun scp =>
      .ok (.fence g ord scp))
  | _ => .error .unassignedOpcode

/-- The stream that decodes a space's forms; C decodes the ALL space (R108). -/
def Space.stm : Space → Stm
  | .c => .c | .a => .a | .v => .v | .all => .c

/-- Fields of a form, before the checks on their values. -/
def readForm (sp : Space) (w l m : Nat) : Dec :=
  let o := fld w 16 8
  match sp with
  | .all => need (fld w 24 4 == 0) .tokensOnAll (decodeAll o (guardOf w) w)
  | .c =>
    if o < 0x40 then decodeCommon o (headOf w) w l m
    else if o < 0x60 then decodeC1 o (headOf w) w l m
    else if o < 0x70 then decodeAccess o (headOf w) w l m
    else if o < 0x90 then decodeC2 o (headOf w) w l
    else decodeC3 o (headOf w) w l
  | .a => if o < 0x40 then decodeCommon o (headOf w) w l m else decodeA o (headOf w) w l m
  | .v =>
    if o < 0x40 then decodeCommon o (headOf w) w l m
    else if o < 0x5A then decodeV1 o (headOf w) w l
    else decodeV2 o (headOf w) w l

/-- Decode a form of a space from its first lane and its continuation lanes (0 where it has none): the opcode, then
the reserved bits and the field values (R108).  Which of several failures inside that step is reported, the spec leaves open:
the model's order is a DESIGN CHOICE (notes/assumptions/66.md). -/
def decodeForm (sp : Space) (w l m : Nat) : Dec :=
  match laneCount sp (fld w 16 8) with
  | none => .error .unassignedOpcode
  | some _ =>
    match readForm sp w l m with
    | .error e => .error e
    | .ok i =>
      match i.fieldError sp.stm with
      | some e => .error e
      | none => .ok i

/-! ### The encoder, from the same tables (R94 to R107) -/

/-- A truth value as a bit. -/
def bN (b : Bool) : Nat := if b then 1 else 0

/-- The first lane: guard, token bits, opcode, and 16 low bits (R94). -/
def eW (h : Head) (op low : Nat) : Nat :=
  bN h.g.ng * 2 ^ 31 + h.g.gp.val * 2 ^ 28 + bN h.pn * 2 ^ 27 + bN h.pp * 2 ^ 26 + bN h.wn * 2 ^ 25 + bN h.wp * 2 ^ 24 +
    op * 2 ^ 16 + low
/-- The first lane of a form of the ALL space: no token bits (R94, R106). -/
def eG (g : Guard) (op low : Nat) : Nat := bN g.ng * 2 ^ 31 + g.gp.val * 2 ^ 28 + op * 2 ^ 16 + low

/-- The lanes of a form. -/
abbrev Lanes := Nat × Nat × Nat

def e1 (h : Head) (op low : Nat) : Option Lanes := some (eW h op low, 0, 0)
def e2 (h : Head) (op low l : Nat) : Option Lanes := some (eW h op low, l, 0)

def eS3 (d a b : SIx) (w : Bool) : Nat := d.val * 2 ^ 11 + a.val * 2 ^ 6 + b.val * 2 + bN w
def eS2 (d a : SIx) (imm : Nat) : Nat := d.val * 2 ^ 11 + a.val * 2 ^ 6 + imm
def ePL (pd pa pb : PIx) (na nb : Bool) : Nat :=
  pd.val * 2 ^ 13 + pa.val * 2 ^ 10 + pb.val * 2 ^ 7 + bN na * 2 ^ 6 + bN nb * 2 ^ 5
def eCP (pd pe : PIx) (i : Bool) (ct : CT) (cc : CC) : Nat :=
  pd.val * 2 ^ 13 + pe.val * 2 ^ 10 + ct.code * 2 ^ 7 + cc.code * 2 ^ 3 + bN i * 2 ^ 2
/-- The TL lane: OC, TY, TZ, RM, SAT, IMM13 (R101). -/
def eTL (oc ty tz rm : Nat) (sat : Bool) (imm : Nat) : Nat :=
  oc * 2 ^ 27 + ty * 2 ^ 22 + tz * 2 ^ 17 + rm * 2 ^ 14 + bN sat * 2 ^ 13 + imm
def eM1 (hs : HIx) (d b : SIx) : Nat := hs.val * 2 ^ 12 + d.val * 2 ^ 7 + b.val * 2 ^ 2
/-- The AL lane: TY, FE, ORD, SCP, DISP (R101). -/
def eAL (ty fe ord scp disp : Nat) : Nat := ty * 2 ^ 27 + fe * 2 ^ 25 + ord * 2 ^ 23 + scp * 2 ^ 21 + disp
def eE1 (hd hs td ts : Fin 16) : Nat := hd.val * 2 ^ 12 + hs.val * 2 ^ 8 + td.val * 2 ^ 4 + ts.val
def eEL (i j : SIx) (s : Sems) (q : Fin 4) (f : CopyFlags) : Nat :=
  i.val * 2 ^ 27 + j.val * 2 ^ 22 + bN s.wen * 2 ^ 21 + s.semw.val * 2 ^ 17 + bN s.sen * 2 ^ 16 + s.sems.val * 2 ^ 12 +
    q.val * 2 ^ 10 + f.clip.code * 2 ^ 8 + bN f.bps * 2 ^ 7 + bN f.bpd * 2 ^ 6 + f.sfe.code * 2 ^ 4 + bN f.dwe * 2 ^ 3 +
    bN f.evt * 2 ^ 2
def eER (a : SIx) (sig : Option (Fin 16)) (sub : Nat) : Nat :=
  a.val * 2 ^ 11 + (match sig with | some n => 2 ^ 10 + n.val * 2 ^ 6 | none => 0) + sub
def eQL (i j : SIx) (clip : Clip) (fe : Fe) (bp : Bool) : Nat :=
  i.val * 2 ^ 27 + j.val * 2 ^ 22 + clip.code * 2 ^ 20 + fe.code * 2 ^ 18 + bN bp * 2 ^ 17
def eVV (d a b : Nat) : Nat := d * 2 ^ 11 + a * 2 ^ 6 + b * 2
/-- A VV1 + TL form. -/
def eV (h : Head) (op d a b oc ty tz rm : Nat) (sat : Bool) (imm : Nat) : Option Lanes :=
  e2 h op (eVV d a b) (eTL oc ty tz rm sat imm)
def eF3 (h : Head) (op : Nat) (d a b : SIx) (oc rm : Nat) (sat : Bool) : Option Lanes :=
  e2 h op (eS3 d a b false) (eTL oc 0x0A 0 rm sat 0)
def eVA (x : Nat) (acc : Fin 4) (row : Fin 64) (seg : Fin 4) : Nat :=
  x * 2 ^ 11 + acc.val * 2 ^ 9 + row.val * 2 ^ 3 + seg.val * 2

/-- The lanes of a form; none for an event, which has no encoding. -/
def encodeForm : Instr → Option Lanes
  | .add h d a b w => e1 h 0x00 (eS3 d a b w)
  | .sub h d a b w => e1 h 0x01 (eS3 d a b w)
  | .mul h d a b w => e1 h 0x02 (eS3 d a b w)
  | .mulh h d a b w => e1 h 0x03 (eS3 d a b w)
  | .mulhn h d a b w => e1 h 0x04 (eS3 d a b w)
  | .div h d a b w => e1 h 0x05 (eS3 d a b w)
  | .divn h d a b w => e1 h 0x06 (eS3 d a b w)
  | .rem h d a b w => e1 h 0x07 (eS3 d a b w)
  | .remn h d a b w => e1 h 0x08 (eS3 d a b w)
  | .and h d a b w => e1 h 0x09 (eS3 d a b w)
  | .or h d a b w => e1 h 0x0A (eS3 d a b w)
  | .xor h d a b w => e1 h 0x0B (eS3 d a b w)
  | .shl h d a b w => e1 h 0x0C (eS3 d a b w)
  | .shr h d a b w => e1 h 0x0D (eS3 d a b w)
  | .sar h d a b w => e1 h 0x0E (eS3 d a b w)
  | .rotl h d a b w => e1 h 0x0F (eS3 d a b w)
  | .addi h d a i => e1 h 0x10 (eS2 d a i.toNat)
  | .muli h d a i => e1 h 0x11 (eS2 d a i.toNat)
  | .andi h d a i => e1 h 0x12 (eS2 d a i.toNat)
  | .ori h d a i => e1 h 0x13 (eS2 d a i.toNat)
  | .xori h d a i => e1 h 0x14 (eS2 d a i.toNat)
  | .shli h d a i => e1 h 0x15 (eS2 d a i.toNat)
  | .shri h d a i => e1 h 0x16 (eS2 d a i.toNat)
  | .sari h d a i => e1 h 0x17 (eS2 d a i.toNat)
  | .rotli h d a i => e1 h 0x18 (eS2 d a i.toNat)
  | .clz h d a => e1 h 0x19 (eS2 d a 0)
  | .ctz h d a => e1 h 0x1A (eS2 d a 0)
  | .popc h d a => e1 h 0x1B (eS2 d a 0)
  | .mov h d a => e1 h 0x1C (eS2 d a 0)
  | .flgclr h c => e1 h 0x1D (c.toNat * 2 ^ 8)
  | .movi h d i => e1 h 0x20 (d.val * 2 ^ 11 + i.toNat)
  | .movil h d i => e2 h 0x21 (d.val * 2 ^ 11) i.toNat
  | .moviq h d i => some (eW h 0x22 (d.val * 2 ^ 11), i.toNat % 2 ^ 32, i.toNat / 2 ^ 32)
  | .addil h d a i => e2 h 0x23 (eS2 d a 0) i.toNat
  | .min h d a b => e1 h 0x24 (eS3 d a b false)
  | .max h d a b => e1 h 0x25 (eS3 d a b false)
  | .minn h d a b => e1 h 0x26 (eS3 d a b false)
  | .maxn h d a b => e1 h 0x27 (eS3 d a b false)
  | .path h d a n => e1 h 0x28 (eS2 d a n.toNat)
  | .extr h d a p n sg => e2 h 0x29 (eS2 d a 0) (p.toNat * 2 ^ 26 + n.toNat * 2 ^ 20 + bN sg * 2 ^ 19)
  | .insr h d a p n => e2 h 0x2A (eS2 d a 0) (p.toNat * 2 ^ 26 + n.toNat * 2 ^ 20)
  | .cmp h pd pe ct cc a (.reg b) => e2 h 0x30 (eCP pd pe false ct cc) (a.val * 2 ^ 27 + b.val * 2 ^ 22)
  | .cmp h pd pe ct cc a (.imm i) => e2 h 0x30 (eCP pd pe true ct cc) (a.val * 2 ^ 27 + i.toNat)
  | .tbit h pd pe ct cc a n => e2 h 0x31 (eCP pd pe true ct cc) (a.val * 2 ^ 27 + n.toNat)
  | .pand h pd pa pb na nb => e1 h 0x34 (ePL pd pa pb na nb)
  | .por h pd pa pb na nb => e1 h 0x35 (ePL pd pa pb na nb)
  | .pxor h pd pa pb na nb => e1 h 0x36 (ePL pd pa pb na nb)
  | .pget h d => e1 h 0x37 (d.val * 2 ^ 11)
  | .pput h a => e1 h 0x38 (a.val * 2 ^ 11)
  | .qsend h a q => e1 h 0x39 (a.val * 2 ^ 11 + q.val * 2 ^ 6)
  | .qrecv h d q => e1 h 0x3A (d.val * 2 ^ 11 + q.val * 2 ^ 6)
  | .qtest h d q => e1 h 0x3B (d.val * 2 ^ 11 + q.val * 2 ^ 6)
  | .mfsr h d r => e1 h 0x3C (d.val * 2 ^ 11 + r.code)
  | .mtsr h a r => e1 h 0x3D (a.val * 2 ^ 11 + r.code)
  | .nop h => e1 h 0x3E 0
  | .brk h c => e1 h 0x3F (c.toNat * 2 ^ 8)
  | .fadd h d a b rm s => eF3 h 0x40 d a b 0 rm.code s
  | .fsub h d a b rm s => eF3 h 0x41 d a b 0 rm.code s
  | .fmul h d a b rm s => eF3 h 0x42 d a b 0 rm.code s
  | .fdiv h d a b rm s => eF3 h 0x43 d a b 0 rm.code s
  | .fma h d a b c rm s => eF3 h 0x44 d a b c.val rm.code s
  | .fmin h d a b => eF3 h 0x45 d a b 0 0 false
  | .fmax h d a b => eF3 h 0x46 d a b 0 0 false
  | .fsqrt h d a rm s => eF3 h 0x47 d a 0 0 rm.code s
  | .fcvt h d a ty tz rm s => e2 h 0x48 (eS2 d a 0) (eTL 0 ty.code tz.code rm.code s 0)
  | .fcmp h pd pe ct cc a b => e2 h 0x49 (eCP pd pe false ct cc) (a.val * 2 ^ 27 + b.val * 2 ^ 22)
  | .fneg h d a => e1 h 0x4A (eS2 d a 0)
  | .fabs h d a => e1 h 0x4B (eS2 d a 0)
  | .trap h c => e1 h 0x50 (c.toNat * 2 ^ 8)
  | .inj h d a k => e2 h 0x51 (eS2 d a 0) k.code
  | .xlate h hd a b => e1 h 0x58 (hd.val * 2 ^ 12 + a.val * 2 ^ 7 + b.val * 2 ^ 2)
  | .probe h d a => e1 h 0x59 (eS2 d a 0)
  | .hloc h hd a b => e1 h 0x5A (hd.val * 2 ^ 12 + a.val * 2 ^ 7 + b.val * 2 ^ 2)
  | .hmov h hd hs => e1 h 0x5B (hd.val * 2 ^ 12 + hs.val * 2 ^ 8)
  | .hsub h hd hs t i j => e2 h 0x5C (hd.val * 2 ^ 12 + hs.val * 2 ^ 8 + t.val * 2 ^ 4) (i.val * 2 ^ 27 + j.val * 2 ^ 22)
  | .hget h d hs f => e1 h 0x5D (d.val * 2 ^ 11 + hs.val * 2 ^ 7 + f.code * 2 ^ 3)
  | .tset h td imm => some (eW h 0x5E (td.val * 2 ^ 12), imm.toNat % 2 ^ 32, imm.toNat / 2 ^ 32)
  | .tget h d ts f => e1 h 0x5F (d.val * 2 ^ 11 + ts.val * 2 ^ 7 + f.code * 2 ^ 3)
  | .ld h hs d b ty fe disp => e2 h 0x60 (eM1 hs d b) (eAL ty.code fe.code 0 0 disp.toNat)
  | .st h hs a b ty fe disp => e2 h 0x61 (eM1 hs a b) (eAL ty.code fe.code 0 0 disp.toNat)
  | .ldl h hs d b ty disp => e2 h 0x62 (eM1 hs d b) (eAL ty.code 0 0 0 disp.toNat)
  | .gtest h hs d b disp => e2 h 0x63 (eM1 hs d b) (eAL 0 0 0 0 disp.toNat)
  | .gset h hs a b disp => e2 h 0x64 (eM1 hs a b) (eAL 0 0 0 0 disp.toNat)
  | .amo h hs d b ty ord scp disp v op =>
    some (eW h 0x65 (eM1 hs d b), eAL ty.code 0 ord.code scp.code disp.toNat, v.val * 2 ^ 27 + op.code * 2 ^ 18)
  | .acas h hs d b ty ord scp disp v e =>
    some (eW h 0x66 (eM1 hs d b), eAL ty.code 0 ord.code scp.code disp.toNat, v.val * 2 ^ 27 + e.val * 2 ^ 22)
  | .copy h hd hs td ts i j s q f => e2 h 0x70 (eE1 hd hs td ts) (eEL i j s q f)
  | .fill h hd td i s q bpd dwe evt => e2 h 0x71 (eE1 hd 0 td 0) (eEL i 0 s q ⟨.none, false, bpd, .plain, dwe, evt⟩)
  | .gather h hd hs td ts i j s q f => e2 h 0x72 (eE1 hd hs td ts) (eEL i j s q f)
  | .scatter h hd hs td ts i j s q f => e2 h 0x73 (eE1 hd hs td ts) (eEL i j s q f)
  | .tring h r hs ts i j s q f => e2 h 0x74 (r.val * 2 ^ 12 + hs.val * 2 ^ 8 + ts.val) (eEL i j s q f)
  | .ccancel h q => e1 h 0x75 (q.val * 2 ^ 14)
  | .evpop h d e => e1 h 0x76 (eS2 d e 0)
  | .mfmt h a => e1 h 0x80 (a.val * 2 ^ 11)
  | .mfmti h w => e2 h 0x81 0 w.toNat
  | .mmul h ra rb sel m n ks s =>
    e2 h 0x82 (ra.val * 2 ^ 13 + rb.val * 2 ^ 10 +
        (match sel with
        | .acc c => c.val * 2 ^ 8
        | .loop ln ar => 2 ^ 7 + ln.val * 2 ^ 4 + ar.val * 2 ^ 2))
      (m.val * 2 ^ 26 + n.val * 2 ^ 20 + ks.val * 2 ^ 10 + bN s.wen * 2 ^ 9 + s.semw.val * 2 ^ 5 + bN s.sen * 2 ^ 4 +
        s.sems.val)
  | .mzero h acc => e1 h 0x83 (acc.val * 2 ^ 14)
  | .accld h acc hs t i j =>
    e2 h 0x84 (acc.val * 2 ^ 14 + hs.val * 2 ^ 10 + t.val * 2 ^ 6) (i.val * 2 ^ 27 + j.val * 2 ^ 22)
  | .accst h acc hs t i j =>
    e2 h 0x85 (acc.val * 2 ^ 14 + hs.val * 2 ^ 10 + t.val * 2 ^ 6) (i.val * 2 ^ 27 + j.val * 2 ^ 22)
  | .ringcfg h r a b => e1 h 0x86 (r.val * 2 ^ 13 + a.val * 2 ^ 8 + b.val * 2 ^ 3)
  | .ringrel h r => e1 h 0x87 (r.val * 2 ^ 13)
  | .ringq h d r => e1 h 0x88 (r.val * 2 ^ 13 + d.val * 2 ^ 8)
  | .bar h n => e1 h 0x90 (n.val * 2 ^ 12)
  | .semsig h n a => e1 h 0x91 (n.val * 2 ^ 12 + a.val * 2 ^ 7)
  | .semwait h n a => e1 h 0x92 (n.val * 2 ^ 12 + a.val * 2 ^ 7)
  | .semrd h d n => e1 h 0x93 (n.val * 2 ^ 12 + d.val * 2 ^ 7)
  | .tagpub h sl a => e1 h 0x94 (sl.val * 2 ^ 14 + a.val * 2 ^ 8)
  | .tagpubP h sl a => e1 h 0x94 (sl.val * 2 ^ 14 + 2 ^ 13 + a.val * 2 ^ 8)
  | .tagtest h d bn a => e1 h 0x95 (bn.val * 2 ^ 14 + d.val * 2 ^ 8 + a.val * 2 ^ 3)
  | .jpatch h d a b word => e2 h 0x96 (eS3 d a b false) (word.val * 2 ^ 27)
  | .jarm h d a => e1 h 0x97 (eS2 d a 0)
  | .jstat h d a => e1 h 0x98 (eS2 d a 0)
  | .pool h a sig => e1 h 0xA0 (eER a sig 0)
  | .poolPop h d => e1 h 0xA0 (eER d none 1)
  | .hotqLook h a sig => e1 h 0xA1 (eER a sig 0)
  | .hotqFill h a sig => e1 h 0xA1 (eER a sig 1)
  | .hotqInv h a sig => e1 h 0xA1 (eER a sig 2)
  | .hotqDrops h a sig => e1 h 0xA1 (eER a sig 3)
  | .skqEst h a sig => e1 h 0xA2 (eER a sig 0)
  | .skqClr h a sig => e1 h 0xA2 (eER a sig 1)
  | .scupdSgd h a sig => e1 h 0xA3 (eER a sig 0)
  | .scupdAdagrad h a sig => e1 h 0xA3 (eER a sig 1)
  | .scupdAdam h a sig => e1 h 0xA3 (eER a sig 2)
  | .nmrun h a sig => e1 h 0xA4 (eER a sig 0)
  | .nmstat h d a => e1 h 0xA5 (eS2 d a 0)
  | .ixwalk h a sig => e1 h 0xA6 (eER a sig 0)
  | .ixwalkPop h d => e1 h 0xA6 (eER d none 1)
  | .a2aIdx h a sig => e1 h 0xA7 (eER a sig 0)
  | .a2aVec h a sig => e1 h 0xA7 (eER a sig 1)
  | .a2aPop h d => e1 h 0xA7 (eER d none 2)
  | .xredSum h a sig => e1 h 0xA8 (eER a sig 0)
  | .xredMin h a sig => e1 h 0xA8 (eER a sig 1)
  | .xredMax h a sig => e1 h 0xA8 (eER a sig 2)
  | .xput h a sig => e1 h 0xA9 (eER a sig 0)
  | .xabort h a => e1 h 0xAA (a.val * 2 ^ 11)
  | .ldq h hs t q i j clip fe bp => e2 h 0x40 (hs.val * 2 ^ 12 + t.val * 2 ^ 8 + q.val * 2 ^ 6) (eQL i j clip fe bp)
  | .stq h hs t i j clip fe bp => e2 h 0x41 (hs.val * 2 ^ 12 + t.val * 2 ^ 8) (eQL i j clip fe bp)
  | .qsplat h q a ew => e1 h 0x42 (q.val * 2 ^ 14 + a.val * 2 ^ 9 + ew.code * 2 ^ 7)
  | .vadd h d a b ty rm s => eV h 0x40 d.code a.code b.code 0 ty.code 0 rm.code s 0
  | .vsub h d a b ty rm s => eV h 0x41 d.code a.code b.code 0 ty.code 0 rm.code s 0
  | .vmul h d a b ty rm s => eV h 0x42 d.code a.code b.code 0 ty.code 0 rm.code s 0
  | .vfma h d a b c ty rm s => eV h 0x43 d.code a.code b.code c.code ty.code 0 rm.code s 0
  | .vfms h d a b c ty rm s => eV h 0x44 d.code a.code b.code c.code ty.code 0 rm.code s 0
  | .vfnma h d a b c ty rm s => eV h 0x45 d.code a.code b.code c.code ty.code 0 rm.code s 0
  | .vdiv h d a b ty rm s => eV h 0x46 d.code a.code b.code 0 ty.code 0 rm.code s 0
  | .vmin h d a b ty => eV h 0x47 d.code a.code b.code 0 ty.code 0 0 false 0
  | .vmax h d a b ty => eV h 0x48 d.code a.code b.code 0 ty.code 0 0 false 0
  | .vabs h d a ty s => eV h 0x49 d.code a.code 0 0 ty.code 0 0 s 0
  | .vneg h d a ty s => eV h 0x4A d.code a.code 0 0 ty.code 0 0 s 0
  | .vmulh h d a b ty => eV h 0x4B d.code a.code b.code 0 ty.code 0 0 false 0
  | .vand h d a b ty => eV h 0x4C d.code a.code b.code 0 ty.code 0 0 false 0
  | .vor h d a b ty => eV h 0x4D d.code a.code b.code 0 ty.code 0 0 false 0
  | .vxor h d a b ty => eV h 0x4E d.code a.code b.code 0 ty.code 0 0 false 0
  | .vandn h d a b ty => eV h 0x4F d.code a.code b.code 0 ty.code 0 0 false 0
  | .vshl h d a b ty => eV h 0x50 d.code a.code b.code 0 ty.code 0 0 false 0
  | .vshr h d a b ty => eV h 0x51 d.code a.code b.code 0 ty.code 0 0 false 0
  | .vsar h d a b ty => eV h 0x52 d.code a.code b.code 0 ty.code 0 0 false 0
  | .vrcp h d a rm s => eV h 0x53 d.code a.code 0 0 0x0A 0 rm.code s 0
  | .vrsq h d a rm s => eV h 0x54 d.code a.code 0 0 0x0A 0 rm.code s 0
  | .vsqrt h d a rm s => eV h 0x55 d.code a.code 0 0 0x0A 0 rm.code s 0
  | .vexp2 h d a rm s => eV h 0x56 d.code a.code 0 0 0x0A 0 rm.code s 0
  | .vlog2 h d a rm s => eV h 0x57 d.code a.code 0 0 0x0A 0 rm.code s 0
  | .vcvt h d a ty tz rm s part => eV h 0x58 d.code a.code 0 0 ty.code tz.code rm.code s part.toNat
  | .vcmp h pd pe ct cc a b ty =>
    e2 h 0x59 (eCP pd pe false ct cc) (a.code * 2 ^ 27 + b.code * 2 ^ 22 + ty.code * 2 ^ 17)
  | .vsel h d s a b ty => eV h 0x5A d.code a.code b.code 0 ty.code 0 0 false s.val
  | .vmov h d a ty => eV h 0x5B d.code a.code 0 0 ty.code 0 0 false 0
  | .vsplat h d a ty => eV h 0x5C d.code a.val 0 0 ty.code 0 0 false 0
  | .vsplati h d imm ty => eV h 0x5D d.code 0 0 0 ty.code 0 0 false imm.toNat
  | .vext h d a ty idx => eV h 0x5E d.val a.code 0 0 ty.code 0 0 false idx.toNat
  | .vins h d a ty idx => eV h 0x5F d.val a.val 0 0 ty.code 0 0 false idx.toNat
  | .vrsum h d a ty rm s => eV h 0x60 d.code a.code 0 0 ty.code 0 rm.code s 0
  | .vrmax h d a ty => eV h 0x61 d.code a.code 0 0 ty.code 0 0 false 0
  | .vrmin h d a ty => eV h 0x62 d.code a.code 0 0 ty.code 0 0 false 0
  | .vramax h d a ty => eV h 0x63 d.code a.code 0 0 ty.code 0 0 false 0
  | .vshuf h d a b ty => eV h 0x64 d.code a.code b.code 0 ty.code 0 0 false 0
  | .vperm h d a b c ty => eV h 0x65 d.code a.code b.code c.code ty.code 0 0 false 0
  | .vrot h d a ty k => eV h 0x66 d.code a.code 0 0 ty.code 0 0 false k.toNat
  | .vpack h d a b ty tz s => eV h 0x67 d.code a.code b.code 0 ty.code tz.code 0 s 0
  | .vunpk h d a ty tz half => eV h 0x68 d.code a.code 0 0 ty.code tz.code 0 false half.toNat
  | .vclass h d a ty => eV h 0x69 d.code a.code 0 0 ty.code 0 0 false 0
  | .vscale h d a b ty rm s => eV h 0x6A d.code a.code b.code 0 ty.code 0 rm.code s 0
  | .vrint h d a ty rm => eV h 0x6B d.code a.code 0 0 ty.code 0 rm.code false 0
  | .vsgn h d a b ty => eV h 0x6C d.code a.code b.code 0 ty.code 0 0 false 0
  | .vclz h d a ty => eV h 0x6D d.code a.code 0 0 ty.code 0 0 false 0
  | .vpopc h d a ty => eV h 0x6E d.code a.code 0 0 ty.code 0 0 false 0
  | .vrsumsq h d a ty rm s => eV h 0x6F d.code a.code 0 0 ty.code 0 rm.code s 0
  | .vaccrd h d acc row seg ty tz rm s => e2 h 0x70 (eVA d.code acc row seg) (eTL 0 ty.code tz.code rm.code s 0)
  | .vaccwr h a acc row seg ty tz rm s => e2 h 0x71 (eVA a.code acc row seg) (eTL 0 ty.code tz.code rm.code s 0)
  | .vmaski h pd ew n => e1 h 0x72 (pd.val * 2 ^ 13 + ew.code * 2 ^ 11 + n.toNat * 2 ^ 4)
  | .vcntp h d pa => e1 h 0x73 (d.val * 2 ^ 11 + pa.val * 2 ^ 8)
  | .vclamp h d a b c ty => eV h 0x74 d.code a.code b.code c.code ty.code 0 0 false 0
  | .viota h d ty => eV h 0x75 d.code 0 0 0 ty.code 0 0 false 0
  | .vabd h d a b ty rm s => eV h 0x76 d.code a.code b.code 0 ty.code 0 rm.code s 0
  | .br g off => some (eG g 0x00 off.toNat, 0, 0)
  | .call g off => some (eG g 0x01 off.toNat, 0, 0)
  | .bri g a => some (eG g 0x02 (a.val * 2 ^ 11), 0, 0)
  | .ret g => some (eG g 0x03 0, 0, 0)
  | .loopReg g ln a => some (eG g 0x04 (ln.val * 2 ^ 13 + a.val * 2 ^ 7), 0, 0)
  | .loopImm g ln cnt => some (eG g 0x04 (ln.val * 2 ^ 13 + 2 ^ 12 + cnt.toNat), 0, 0)
  | .endl g ln off => some (eG g 0x05 (ln.val * 2 ^ 13 + off.toNat), 0, 0)
  | .lexit g ln off => some (eG g 0x06 (ln.val * 2 ^ 13 + off.toNat), 0, 0)
  | .phase g => some (eG g 0x07 0, 0, 0)
  | .quiet g => some (eG g 0x08 0, 0, 0)
  | .trapf g => some (eG g 0x09 0, 0, 0)
  | .kend g => some (eG g 0x0A 0, 0, 0)
  | .fence g ord scp => some (eG g 0x0B (ord.code * 2 ^ 14 + scp.code * 2 ^ 12), 0, 0)
  | _ => none

/-- The spaces whose opcode tables hold a form (R102 to R106): common forms stand in C's, A's and V's; scalar access
in C's and A's. -/
def Instr.spaces : Instr → List Space
  | .add .. | .sub .. | .mul .. | .mulh .. | .mulhn .. | .div .. | .divn .. | .rem .. | .remn .. | .and .. | .or ..
  | .xor .. | .shl .. | .shr .. | .sar .. | .rotl .. | .addi .. | .muli .. | .andi .. | .ori .. | .xori .. | .shli ..
  | .shri .. | .sari .. | .rotli .. | .clz .. | .ctz .. | .popc .. | .mov .. | .flgclr .. | .movi .. | .movil ..
  | .moviq .. | .addil .. | .min .. | .max .. | .minn .. | .maxn .. | .path .. | .extr .. | .insr .. | .cmp ..
  | .tbit .. | .pand .. | .por .. | .pxor .. | .pget .. | .pput .. | .qsend .. | .qrecv .. | .qtest .. | .mfsr ..
  | .mtsr .. | .nop .. | .brk .. => [.c, .a, .v]
  | .ld .. | .st .. | .ldl .. | .gtest .. | .gset .. | .amo .. | .acas .. => [.c, .a]
  | .ldq .. | .stq .. | .qsplat .. => [.a]
  | .fadd .. | .fsub .. | .fmul .. | .fdiv .. | .fma .. | .fmin .. | .fmax .. | .fsqrt .. | .fcvt .. | .fcmp ..
  | .fneg .. | .fabs .. | .trap .. | .inj .. | .xlate .. | .probe .. | .hloc .. | .hmov .. | .hsub .. | .hget ..
  | .tset .. | .tget .. | .copy .. | .fill .. | .gather .. | .scatter .. | .tring .. | .ccancel .. | .evpop ..
  | .mfmt .. | .mfmti .. | .mmul .. | .mzero .. | .accld .. | .accst .. | .ringcfg .. | .ringrel .. | .ringq ..
  | .bar .. | .semsig .. | .semwait .. | .semrd .. | .tagpub .. | .tagpubP .. | .tagtest .. | .jpatch .. | .jarm ..
  | .jstat .. | .pool .. | .poolPop .. | .hotqLook .. | .hotqFill .. | .hotqInv .. | .hotqDrops .. | .skqEst ..
  | .skqClr .. | .scupdSgd .. | .scupdAdagrad .. | .scupdAdam .. | .nmrun .. | .nmstat .. | .ixwalk ..
  | .ixwalkPop .. | .a2aIdx .. | .a2aVec .. | .a2aPop .. | .xredSum .. | .xredMin .. | .xredMax .. | .xput ..
  | .xabort .. => [.c]
  | .vadd .. | .vsub .. | .vmul .. | .vfma .. | .vfms .. | .vfnma .. | .vdiv .. | .vmin .. | .vmax .. | .vabs ..
  | .vneg .. | .vmulh .. | .vand .. | .vor .. | .vxor .. | .vandn .. | .vshl .. | .vshr .. | .vsar .. | .vrcp ..
  | .vrsq .. | .vsqrt .. | .vexp2 .. | .vlog2 .. | .vcvt .. | .vcmp .. | .vsel .. | .vmov .. | .vsplat ..
  | .vsplati .. | .vext .. | .vins .. | .vrsum .. | .vrmax .. | .vrmin .. | .vramax .. | .vshuf .. | .vperm ..
  | .vrot .. | .vpack .. | .vunpk .. | .vclass .. | .vscale .. | .vrint .. | .vsgn .. | .vclz .. | .vpopc ..
  | .vrsumsq .. | .vaccrd .. | .vaccwr .. | .vmaski .. | .vcntp .. | .vclamp .. | .viota .. | .vabd .. => [.v]
  | .br .. | .call .. | .bri .. | .ret .. | .loopReg .. | .loopImm .. | .endl .. | .lexit .. | .phase .. | .quiet ..
  | .trapf .. | .kend .. | .fence .. => [.all]
  | _ => []

/-- A word of spec/opcode_table.json as the form it encodes in one space: the first lane in bits 31 to 0, its
continuation lanes above (zeros where the table gives the row no bits for them). -/
def decodeTableIn (sp : Space) (w : Nat) : Option Instr :=
  match decodeForm sp (w % 2 ^ 32) (w / 2 ^ 32 % 2 ^ 32) (w / 2 ^ 64 % 2 ^ 32) with
  | .ok i => some i
  | .error _ => none

/-- The form of a table word: a word says nothing of its space (R77: the lane's tag does), so the spaces are tried in
the order C, A, V, ALL and the first in which the word is a legal form stands (notes/assumptions/1.md). -/
def tableSpace (w : Nat) : Option (Space × Instr) :=
  match decodeTableIn .c w with
  | some i => some (.c, i)
  | none =>
    match decodeTableIn .a w with
    | some i => some (.a, i)
    | none =>
      match decodeTableIn .v w with
      | some i => some (.v, i)
      | none =>
        match decodeTableIn .all w with
        | some i => some (.all, i)
        | none => none

/-- The form a table word of `nbits` bits encodes. -/
def decodeTableWord (nbits w : Nat) : Option Instr :=
  match tableSpace (w % 2 ^ nbits) with
  | some (_, i) => some i
  | none => none

end Sys2Proof
end

