-- ==== Sys2Proof/Machine/Declared.lean ====
section
/-!
DEFINITION. Sys2Proof/Machine/Declared.lean: the registers and other declared resources that a form names, and the check of
R11 against the header's counts (R10), made at decode whatever the guard.
-/
namespace Sys2Proof.Machine
open Sys2Proof

/-- What a form names (R11). -/
structure Names where
  p    : List Nat := []
  s    : List Nat := []
  lc   : List Nat := []
  h    : List Nat := []
  t    : List Nat := []
  sem  : List Nat := []
  ring : List Nat := []
  bar  : List Nat := []
  slot : List Nat := []
  bind : List Nat := []
  deriving DecidableEq, Repr

/-- Scalars, under a head's guard predicate. -/
def nS (h : Head) (s : List SIx) : Names := { p := [h.g.gp.val], s := s.map Fin.val }
/-- Predicates and scalars. -/
def nP (h : Head) (p : List PIx) (s : List SIx) : Names := { p := h.g.gp.val :: p.map Fin.val, s := s.map Fin.val }
/-- Handles, shape records and scalars. -/
def nH (h : Head) (hs ts : List (Fin 16)) (s : List SIx) : Names :=
  { p := [h.g.gp.val], s := s.map Fin.val, h := hs.map Fin.val, t := ts.map Fin.val }
/-- The semaphores that enabled fields name. -/
def semNames (x : Sems) : List Nat := (if x.wen then [x.semw.val] else []) ++ (if x.sen then [x.sems.val] else [])
def sigName (x : Option (Fin 16)) : List Nat := match x with
  | some n => [n.val]
  | none => []
def sprNames : Spr → List Nat
  | .lc n => [n.val]
  | .llim n => [n.val]
  | _ => []
def rhsNames : CmpRhs → List SIx
  | .reg b => [b]
  | .imm _ => []

/-- What each form names. -/
def Instr.names : Instr → Names
  | .add h d a b _ | .sub h d a b _ | .mul h d a b _ | .mulh h d a b _ | .mulhn h d a b _ | .div h d a b _
  | .divn h d a b _ | .rem h d a b _ | .remn h d a b _ | .and h d a b _ | .or h d a b _ | .xor h d a b _
  | .shl h d a b _ | .shr h d a b _ | .sar h d a b _ | .rotl h d a b _ => nS h [d, a, b]
  | .addi h d a _ | .muli h d a _ | .andi h d a _ | .ori h d a _ | .xori h d a _ | .shli h d a _ | .shri h d a _
  | .sari h d a _ | .rotli h d a _ | .addil h d a _ | .path h d a _ => nS h [d, a]
  | .clz h d a | .ctz h d a | .popc h d a | .mov h d a => nS h [d, a]
  | .flgclr h _ | .nop h | .brk h _ | .trap h _ | .mfmti h _ => nS h []
  | .movi h d _ | .movil h d _ | .moviq h d _ | .pget h d => nS h [d]
  | .min h d a b | .max h d a b | .minn h d a b | .maxn h d a b | .fmin h d a b | .fmax h d a b => nS h [d, a, b]
  | .extr h d a _ _ _ | .insr h d a _ _ => nS h [d, a]
  | .cmp h pd pe _ _ a rhs => nP h [pd, pe] (a :: rhsNames rhs)
  | .tbit h pd pe _ _ a _ => nP h [pd, pe] [a]
  | .pand h pd pa pb _ _ | .por h pd pa pb _ _ | .pxor h pd pa pb _ _ => nP h [pd, pa, pb] []
  | .pput h a => nS h [a]
  | .qsend h a _ => nS h [a]
  | .qrecv h d _ | .qtest h d _ => nS h [d]
  | .mfsr h d r => { nS h [d] with lc := sprNames r }
  | .mtsr h a r => { nS h [a] with lc := sprNames r }
  | .fadd h d a b _ _ | .fsub h d a b _ _ | .fmul h d a b _ _ | .fdiv h d a b _ _ => nS h [d, a, b]
  | .fma h d a b c _ _ => nS h [d, a, b, c]
  | .fsqrt h d a _ _ | .fcvt h d a _ _ _ _ | .inj h d a _ => nS h [d, a]
  | .fneg h d a | .fabs h d a | .probe h d a => nS h [d, a]
  | .fcmp h pd pe _ _ a b => nP h [pd, pe] [a, b]
  | .xlate h hd a b | .hloc h hd a b => nH h [hd] [] [a, b]
  | .hmov h hd hs => nH h [hd, hs] [] []
  | .hsub h hd hs t i j => nH h [hd, hs] [t] [i, j]
  | .hget h d hs _ => nH h [hs] [] [d]
  | .tset h td _ => nH h [] [td] []
  | .tget h d ts _ => nH h [] [ts] [d]
  | .ld h hs d b _ _ _ | .st h hs d b _ _ _ | .ldl h hs d b _ _ => nH h [hs] [] [d, b]
  | .gtest h hs d b _ | .gset h hs d b _ => nH h [hs] [] [d, b]
  | .amo h hs d b _ _ _ _ v _ => nH h [hs] [] [d, b, v]
  | .acas h hs d b _ _ _ _ v e => nH h [hs] [] [d, b, v, e]
  | .copy h hd hs td ts i j s _ _ | .gather h hd hs td ts i j s _ _ | .scatter h hd hs td ts i j s _ _ =>
    { nH h [hd, hs] [td, ts] [i, j] with sem := semNames s }
  | .fill h hd td i s _ _ _ _ => { nH h [hd] [td] [i] with sem := semNames s }
  | .tring h r hs ts i j s _ _ => { nH h [hs] [ts] [i, j] with sem := semNames s, ring := [r.val] }
  | .ccancel h _ => nS h []
  | .evpop h d e => nS h [d, e]
  | .mfmt h a => nS h [a]
  | .mmul h ra rb sel _ _ _ s =>
    { nS h [] with
      sem := semNames s
      ring := [ra.val, rb.val]
      lc := match sel with
        | .loop ln _ => [ln.val]
        | .acc _ => [] }
  | .mzero h _ => nS h []
  | .accld h _ hs t i j | .accst h _ hs t i j => nH h [hs] [t] [i, j]
  | .ringcfg h r a b => { nS h [a, b] with ring := [r.val] }
  | .ringrel h r => { nS h [] with ring := [r.val] }
  | .ringq h d r => { nS h [d] with ring := [r.val] }
  | .bar h n => { nS h [] with bar := [n.val] }
  | .semsig h n a | .semwait h n a => { nS h [a] with sem := [n.val] }
  | .semrd h d n => { nS h [d] with sem := [n.val] }
  | .tagpub h slot a | .tagpubP h slot a => { nS h [a] with slot := [slot.val] }
  | .tagtest h d bn a => { nS h [d, a] with bind := [bn.val] }
  | .jpatch h d a b _ => nS h [d, a, b]
  | .jarm h d a | .jstat h d a | .nmstat h d a => nS h [d, a]
  | .pool h a sig | .hotqLook h a sig | .hotqFill h a sig | .hotqInv h a sig | .hotqDrops h a sig | .skqEst h a sig
  | .skqClr h a sig | .scupdSgd h a sig | .scupdAdagrad h a sig | .scupdAdam h a sig | .nmrun h a sig
  | .ixwalk h a sig | .a2aIdx h a sig | .a2aVec h a sig | .xredSum h a sig | .xredMin h a sig | .xredMax h a sig
  | .xput h a sig => { nS h [a] with sem := sigName sig }
  | .poolPop h d | .ixwalkPop h d | .a2aPop h d => nS h [d]
  | .xabort h a => nS h [a]
  | .ldq h hs t _ i j _ _ _ | .stq h hs t i j _ _ _ => nH h [hs] [t] [i, j]
  | .qsplat h _ a _ => nS h [a]
  | .vcmp h pd pe _ _ _ _ _ => nP h [pd, pe] []
  | .vsel h _ p _ _ _ => nP h [p] []
  | .vsplat h _ a _ => nS h [a]
  | .vext h d _ _ _ => nS h [d]
  | .vins h _ a _ _ => nS h [a]
  | .vmaski h pd _ _ => nP h [pd] []
  | .vcntp h d pa => nP h [pa] [d]
  | .vadd h .. | .vsub h .. | .vmul h .. | .vfma h .. | .vfms h .. | .vfnma h .. | .vdiv h .. | .vmin h .. | .vmax h ..
  | .vabs h .. | .vneg h .. | .vmulh h .. | .vand h .. | .vor h .. | .vxor h .. | .vandn h .. | .vshl h .. | .vshr h ..
  | .vsar h .. | .vrcp h .. | .vrsq h .. | .vsqrt h .. | .vexp2 h .. | .vlog2 h .. | .vcvt h .. | .vmov h ..
  | .vsplati h .. | .vrsum h .. | .vrmax h .. | .vrmin h .. | .vramax h .. | .vshuf h .. | .vperm h .. | .vrot h ..
  | .vpack h .. | .vunpk h .. | .vclass h .. | .vscale h .. | .vrint h .. | .vsgn h .. | .vclz h .. | .vpopc h ..
  | .vrsumsq h .. | .vaccrd h .. | .vaccwr h .. | .vclamp h .. | .viota h .. | .vabd h .. => nS h []
  | .br g _ | .call g _ | .ret g | .phase g | .quiet g | .trapf g | .kend g | .fence g _ _ => { p := [g.gp.val] }
  | .bri g a => { p := [g.gp.val], s := [a.val] }
  | .loopReg g ln a => { p := [g.gp.val], s := [a.val], lc := [ln.val] }
  | .loopImm g ln _ | .endl g ln _ | .lexit g ln _ => { p := [g.gp.val], lc := [ln.val] }
  | _ => {}

/-- Declared counts of a header (R10): scalars and predicates of a stream. -/
def scnt (hdr : List Word) (m : Stm) : Nat := match m with
  | .c => bits (wd hdr 4) 63 58 | .a => bits (wd hdr 4) 53 48 | .v => bits (wd hdr 4) 43 38
def pcnt (hdr : List Word) (m : Stm) : Nat := match m with
  | .c => bits (wd hdr 4) 57 54 | .a => bits (wd hdr 4) 47 44 | .v => bits (wd hdr 4) 37 34
def lcnt (hdr : List Word) : Nat := bits (wd hdr 4) 33 30
def hcnt (hdr : List Word) : Nat := bits (wd hdr 3) 35 31
def tcnt (hdr : List Word) : Nat := bits (wd hdr 3) 30 26
def semcnt (hdr : List Word) : Nat := bits (wd hdr 3) 25 21
def ringcnt (hdr : List Word) : Nat := bits (wd hdr 3) 39 36
def barcnt (hdr : List Word) : Nat := bits (wd hdr 3) 43 40
def ntout (hdr : List Word) : Nat := bits (wd hdr 7) 43 40
def ntin (hdr : List Word) : Nat := bits (wd hdr 7) 39 36
def scrbytes (hdr : List Word) : Nat := bits (wd hdr 5) 63 40

/-- The check of R11: everything a form of stream m names is declared. -/
def declaredOk (hdr : List Word) (m : Stm) (i : Instr) : Bool :=
  let n := Instr.names i
  n.s.all (· < scnt hdr m) && n.p.all (· < pcnt hdr m) && n.lc.all (· < lcnt hdr) && n.h.all (· < hcnt hdr) &&
    n.t.all (· < tcnt hdr) && n.sem.all (· < semcnt hdr) && n.ring.all (· < ringcnt hdr) && n.bar.all (· < barcnt hdr) &&
    n.slot.all (· < ntout hdr) && n.bind.all (· < ntin hdr)

end Sys2Proof.Machine
end

