-- ==== Sys2Proof/Config.lean ====
section
/-!
DEFINITION. Sys2Proof/Config.lean: the values that the manual leaves open.  Each is an opaque constant: nothing can
evaluate it and no statement holds because of one of its values.
-/
namespace Sys2Proof

/-- A value the manual leaves open, by the number of free values drawn before it: which permitted value a read returns (R263,
R265), when a publication is performed (R267), the pool index of a waiter link (R45), the hit rate of R184 and others.
notes/assumptions/3.md. -/
opaque Config.freeNat : Nat → Nat

/-- The device's secret identity key (R402): it signs the attestation and recovery reports by Ed448.
notes/assumptions/5.md. -/
opaque Config.identity : List Byte

/-- Spare rows of each DRAM bank (R374), by LPDDR-6 or HBM4E, channel and bank: the manual gives no count.
notes/assumptions/21.md. -/
opaque Config.bankSpares : Bool → Nat → Nat → Nat

/-- The granules, by physical address / 16, that a DRAM row holds (R374), by LPDDR-6 or HBM4E, channel, bank and row: the
manual gives no geometry.  notes/assumptions/21.md. -/
opaque Config.rowGranules : Bool → Nat → Nat → Nat → List Nat

/-- The fused device serial (R403 MGMTID) and the bytes of IDCERT.  notes/assumptions/5.md. -/
opaque Config.serial : BitVec 32
opaque Config.idCert : List Byte

end Sys2Proof
end

