-- ==== Sys2Proof/Machine/Shape.lean ====
section
/-!
DEFINITION. Sys2Proof/Machine/Shape.lean: shape records, layouts and bank permutation (R188, R195).
-/
namespace Sys2Proof.Machine
open Sys2Proof

/-! ### Shape records (R188) -/

def tType (t : Word) : Ty := (Ty.ofCode (bits t.toNat 63 59)).getD .i8
def tPlace (t : Word) : Nat := bits t.toNat 58 58
def tRows (t : Word) : Nat := bits t.toNat 55 40 + 1
def tCols (t : Word) : Nat := bits t.toNat 39 24 + 1
def tStride (t : Word) : Nat := bits t.toNat 23 0

/-- Element width in a layout (R188). -/
def elemW (t : Ty) (scr : Bool) : Nat := if t.isBx && scr then 8 else t.width
/-- Row bytes in a layout. -/
def rowBytes (t : Word) (scr : Bool) : Nat :=
  if (tType t).isBx then (tCols t + 31) / 32 * (if scr then 32 else 4 * (tType t).width)
  else (tCols t * (tType t).width + 7) / 8
/-- Bytes of a row of the exponent plane. -/
def expRow (t : Word) : Nat := (tCols t + 31) / 32
/-- Footprint (R188). -/
def footprint (t : Word) (scr : Bool) : Nat :=
  (tRows t - 1) * tStride t + rowBytes t scr + (if (tType t).isBx then tRows t * expRow t else 0)

/-- Bank permutation (R195). -/
def bankPerm (o : Nat) : Nat := Nat.xor o (bits (o / 512) 4 0 * 16)

/-- View offsets of the granule-wise runs of a tensor: each row, and for BX each row of the exponent plane. -/
def tensorRuns (t : Word) (scr : Bool) : List (Nat × Nat) :=
  (upto 0 (tRows t)).flatMap fun i =>
    (i * tStride t, rowBytes t scr) ::
      (if (tType t).isBx then [(tRows t * tStride t + i * expRow t, expRow t)] else [])

end Sys2Proof.Machine
end

