-- ==== Sys2Proof/Machine/State.lean ====
section
/-!
DEFINITION. Sys2Proof/Machine/State.lean: the state of the whole device as plain data, and the state after reset.
Sparse storage is an association list with strictly rising keys in which an absent key stands for the reset value of
its kind (a `Map`); memory is a list of `Host.Cell` of the same form.  INVENTORY.md lists every field with its rule.
-/
namespace Sys2Proof.Machine
open Sys2Proof

/-- Why a step stops the model for good. It has no constructor: every fault the manual gives this device is a next
state (a context stops, a block fails, a phase is cancelled, a command reports a status), and every access goes through
an extent or a handle, which reach no hole of the physical space (R166, R169, R173, R358). Safe: nothing stops. -/
inductive Fault where
  deriving DecidableEq, Repr

/-- Why an instruction has no meaning here. -/
inductive Refusal where
  /-- the instruction has no meaning in this model yet: raised by Machine/Dispatch.lean only. Safe: nothing is
  claimed of it. -/
  | notModelled (mnemonic : String)
  deriving DecidableEq, Repr

/-- A sparse map with strictly rising keys. -/
abbrev Map (α : Type) := List (Nat × α)

/-- What happens before an event (R267): for each agent the newest of its writes, by number, that does.  The agents are
numbered in Machine/View.lean. -/
abbrev View := Map Nat

/-- What an engine reads through (R269): the issuing core's stores and knowledge as they stood at the push, with the number
of the write that placed what the core had last read of a byte in its refresh interval (R265 step 2), how many of the core's
publications of a byte after the push bring its store then in `pend`, the number of the newest write then, and the command's
number among the agents; `par`, the double-buffer parities at the push,
through which it reaches scratch (R207, R276). -/
structure EView where
  pend : List Host.Cell
  due  : Map Nat
  seen : Map Nat
  clk  : View
  rfc  : View
  seq  : Nat
  id   : Nat
  par  : Vector Bool 8
  deriving DecidableEq, Repr

/-- A position (R80): line index, the lane examined next, LSEQ. -/
structure Pos where
  line : Nat
  lane : Nat
  lseq : Nat
  deriving DecidableEq, Repr

/-- A steer entry (R83): the form that C decoded (R108), C's guard result, its operand value, whether control is taken
and to which line. -/
structure Steer where
  form   : Instr
  guard  : Bool
  val    : Word
  taken  : Bool
  target : Nat
  deriving DecidableEq, Repr

/-- How a stream waits (R91, R350). -/
inductive Blk where
  /-- not waiting -/
  | run
  /-- a wait of Table 5 of 05_fetch_and_streams.md -/
  | loose
  /-- in the work of, or at, an aligning form -/
  | align
  /-- on an engine queue among q10 to q24 -/
  | engineQ
  /-- to push q11, which is full (R242) -/
  | q11
  /-- in the work of an aligning form that waits on a command of q11 (R242) -/
  | work
  /-- in SEMWAIT -/
  | sem
  /-- a wait that R350 does not count: granules, q25, BAR, an answer of Campion, a refresh of translation -/
  | other
  deriving DecidableEq, Repr

/-- A vector-queue entry (R89, R217): 512 data bits and a byte mask. -/
structure QEntry where
  data : Vec
  mask : Word
  deriving DecidableEq, Repr

/-- One stream's private state (R135) with its progress inside the current form. -/
structure Stream where
  s      : Vector Word 32
  /-- predicates as 64-bit masks; in C and A all ones or all zeros (R136) -/
  p      : Vector Word 8
  lc     : Vector (BitVec 32) 8
  llim   : Vector (BitVec 32) 8
  /-- return stack, top first, at most 16 (R135) -/
  rstk   : List Nat
  tflags : BitVec 8
  pos    : Pos
  /-- steer entries awaiting this stream (R83); empty in C -/
  steer  : List Steer
  /-- LOOP with count 0 skips until ENDL names this counter (R155) -/
  skip   : Option (Fin 8)
  /-- the stream has begun its current line: WIN and the line checks of R79 are behind it -/
  begun  : Bool
  /-- the tokens named by WP and WN of the current form are popped (R86) -/
  popped : Bool
  /-- the form's effects are done and only its token pushes remain (R86) -/
  acted  : Bool
  blk    : Blk
  /-- source entries a waiting vector form has popped already (R219) -/
  opbuf  : List QEntry
  /-- what a waiting VACCRD or VACCWR sampled (R235): 4 × the position (8 × LSEQ + lane) of the newest matrix command on
  its set, plus the set -/
  sample : Option Nat
  /-- reads of this stream may be performed as far back as this write number (R263), its path-1 reads as far back as the
  second (they keep their order), and reads of a scratch granule it has acquired no further back than the map says -/
  hz     : Nat
  hz1    : Nat
  gk     : Map Nat
  /-- registers of C into which an answer of Campion has still to come (R285, R286) -/
  await  : List SIx
  deriving DecidableEq, Repr

/-- The six token counters (R86, R87). -/
structure Tokens where
  ca : Nat
  av : Nat
  vc : Nat
  ac : Nat
  va : Nat
  cv : Nat
  deriving DecidableEq, Repr

/-- What the record of a phase restores whole (R85, R135, R217, R90, R276). -/
structure Regs where
  c   : Stream
  a   : Stream
  v   : Stream
  vr  : Vector Vec 16
  /-- q0 to q3, oldest first -/
  qs  : Vector (List Word) 4
  /-- q4 to q8, oldest first -/
  qv  : Vector (List QEntry) 5
  tok : Tokens
  win : Nat
  /-- versions of h0 to h15, newest first, stamped with C's LSEQ and lane (R90) -/
  h   : Vector (List (Nat × Nat × Handle)) 16
  t   : Vector (List (Nat × Nat × Word)) 16
  /-- double-buffer parities (R276) -/
  par : Vector Bool 8
  deriving DecidableEq, Repr

/-- A scratch granule (R182): data, full, poison. -/
structure SGran where
  data : Gran
  full : Bool
  pois : Bool
  deriving DecidableEq, Repr

/-- An operand ring (R244); `done` lists panel numbers written ahead of an earlier unfinished one (R210). -/
structure Ring where
  cfg   : Bool
  ty    : Ty
  base  : Nat
  slots : Nat
  head  : Nat
  tail  : Nat
  rtail : Nat
  thead : Nat
  done  : List Nat
  deriving DecidableEq, Repr

/-- Who waits on a semaphore (R283). -/
inductive Waiter where
  | c
  | matrix
  | copy (q : Fin 4)
  deriving DecidableEq, Repr

/-- Where an address leads (R207 SKIND): memory, local scratch, elastic scratch, on-chip window. -/
inductive Kind where
  | mem | local | elastic | window
  deriving DecidableEq, Repr

/-- A resolved place: kind, path, extent index, first address or offset, and the length of the view behind it. -/
structure Place where
  kind : Kind
  path : Nat
  ext  : Nat
  addr : Nat
  len  : Nat
  deriving DecidableEq, Repr

/-- Which command of the matrix engine (R249 OP). -/
inductive MxOp where
  | mmul | mzero | accld | accst | flip
  deriving DecidableEq, Repr

/-- A q11 entry (R249) with the position of its issue and the number of the phase that issued it. -/
structure MxCmd where
  op    : MxOp
  set   : Fin 4
  ra    : Fin 8
  rb    : Fin 8
  m     : Nat
  n     : Nat
  ks    : Nat
  sems  : Sems
  phs   : Nat
  row   : Nat
  col   : Nat
  bit   : Nat
  place : Place
  shape : Word
  i     : Word
  j     : Word
  pos   : Pos
  ph    : Nat
  view : EView
  deriving DecidableEq, Repr

/-- The command the matrix engine runs (R250): its format word, how far it is, its flags. -/
structure MxRun where
  cmd    : MxCmd
  fw     : BitVec 32
  waited : Bool
  /-- first panels of the two rings -/
  pa     : Nat
  pb     : Nat
  step   : Nat
  flags  : BitVec 8
  deriving DecidableEq, Repr

/-- Copy operations (R207 OP). -/
inductive CpOp where
  | copy | fill | gather | scatter | tring
  deriving DecidableEq, Repr

/-- A transfer-queue record (R207). -/
structure CopyCmd where
  op     : CpOp
  q      : Fin 4
  flags  : CopyFlags
  sems   : Sems
  ring   : Fin 8
  panel  : Nat
  seq    : Nat
  src    : Place
  sshape : Word
  dst    : Place
  dshape : Word
  i      : Word
  j      : Word
  outb   : Bool
  ph     : Nat
  pos    : Pos
  /-- scratch byte of the index list, resolved at issue (R207, R208) -/
  list   : Nat
  /-- cancelled by CCANCEL before it started (R213) -/
  cancelled : Bool
  /-- performed again by a cancel: no wait, no signal, no entry (R366) -/
  silent : Bool
  view : EView
  deriving DecidableEq, Repr

/-- What a copy has moved of a destination granule that it has still to write: data, the bytes there, those of them whose
high element of 4 bits has still to come, poisoned (R114, R181). -/
structure CopyPart where
  data : Gran
  mask : Nat
  low  : Nat
  pois : Bool
  deriving DecidableEq, Repr

/-- The running command of a transfer queue (R212, R213): semaphore passed, units done, the first poisoned element. -/
structure CopyRun where
  cmd     : CopyCmd
  waited  : Bool
  next    : Nat
  first   : Option Nat
  cancel  : Bool
  done    : Bool
  /-- source granules taken under SFE: data and poison -/
  srcG    : Map (Gran × Bool)
  /-- destination granules begun and not yet written, by address / 16 -/
  buf     : Map CopyPart
  /-- destination granules written; those of memory that are poisoned -/
  dstG    : List Nat
  dstP    : List Nat
  /-- outbound data kept until completion makes it visible (R211, R269) -/
  out     : List (Nat × Byte)
  deriving DecidableEq, Repr

/-- An entry of the refetch log (R366). -/
structure LogEntry where
  cmd     : CopyCmd
  carried : Bool
  done    : Bool
  deriving DecidableEq, Repr

/-- A q16 record (R293). -/
structure PoolCmd where
  opc   : Nat
  sub   : Nat
  param : List Word
  list  : Place
  res   : Place
  sig   : Option (Fin 16)
  seq   : Nat
  ph    : Nat
  exts  : List Nat
  view : EView
  deriving DecidableEq, Repr

/-- The pool unit's running command: its result element once computed. -/
structure PoolRun where
  cmd  : PoolCmd
  bag  : Nat
  bad  : Nat
  first : Option (Nat × Nat)
  /-- a query's element bits below SEQ -/
  word : Option Word
  done : Bool
  deriving DecidableEq, Repr

/-- A q18 record (R313). -/
structure ScCmd where
  opt   : Nat
  param : List Word
  idx   : Place
  grad  : Place
  st    : Place
  sig   : Option (Fin 16)
  seq   : Nat
  ph    : Nat
  exts  : List Nat
  view : EView
  deriving DecidableEq, Repr

/-- The scatter-update engine's running command: rows with their coalesced gradients still to step (R314). -/
structure ScRun where
  cmd   : ScCmd
  rows  : List (Nat × List (BitVec 32))
  lost  : List Nat
  stat  : Nat
  first : Nat
  count : Nat
  /-- hot ways this command has pinned (R317) -/
  pins  : List Nat
  /-- memory bytes its steps have written -/
  outs  : List Nat
  deriving DecidableEq, Repr

/-- A q19 record (R322). -/
structure NmCmd where
  desc : List Word
  sig  : Option (Fin 16)
  seq  : Nat
  ph   : Nat
  exts : List Nat
  view : EView
  deriving DecidableEq, Repr

/-- A q20 record (R332) with TA and TB captured. -/
structure WalkCmd where
  param : List Word
  list  : Place
  rowP  : Place
  colP  : Place
  ta    : Word
  tb    : Word
  sig   : Option (Fin 16)
  seq   : Nat
  ph    : Nat
  exts  : List Nat
  view : EView
  deriving DecidableEq, Repr

/-- Teasel's walk of one core (R333). -/
structure WalkRun where
  cmd    : WalkCmd
  p      : Nat
  hi     : Nat
  na     : Nat
  nb     : Nat
  nclip  : Nat
  /-- end of the open segment; none between segments -/
  seg    : Option Nat
  /-- granules of the open segment written so far -/
  gran   : Nat
  /-- the open segment has met uncorrectable source data -/
  bad    : Bool
  /-- the status of the end record once the walk has nothing left to deliver -/
  last   : Option Nat
  deriving DecidableEq, Repr

/-- A q22 record (R339): the form (0 A2A.IDX, 1 A2A.VEC, 2 XRED, 3 XPUT), SUB, block, bases. -/
structure SpCmd where
  form  : Nat
  sub   : Nat
  param : List Word
  bases : List Place
  sig   : Option (Fin 16)
  seq   : Nat
  ph    : Nat
  exts  : List Nat
  view : EView
  deriving DecidableEq, Repr

/-- A running Speedwell command (R344, R345). -/
structure SpRun where
  cmd     : SpCmd
  ctx     : Fin 8
  grp     : Fin 64
  att     : BitVec 16
  cseq    : Nat
  start   : Nat
  /-- parts received: source rank, and the values of an all-reduce; packets of parts still incomplete, by 2^32 × rank +
  packet -/
  parts   : Map (List Byte)
  frs     : Map (List Byte)
  /-- the permutation of a vector return (R341) -/
  perm    : List Nat
  /-- writes still to perform, in order: place, address, bytes inside one granule -/
  outq    : List (Place × Nat × List Byte)
  /-- hot ways whose rows are in transfer (R301) -/
  pins    : List Nat
  status  : Nat
  info    : Nat
  refused : Bool
  mism    : Bool
  done    : Bool
  deriving DecidableEq, Repr

/-- A q24 request (R284, R286); a publication or an arm with what it releases (R33, R53). -/
inductive JobReq where
  | pub (slot : Nat) (tile : Nat) (view : View)
  | pending (slot : Nat) (tile : Nat) (ph : Nat)
  | ready (slot : Nat) (tile : Nat) (view : View)
  | patch (card : Nat) (word : Nat) (value : Word) (d : SIx)
  | arm (card : Nat) (d : SIx) (view : View)
  | stat (card : Nat) (d : SIx)
  | test (bn : Nat) (tile : Word) (d : SIx)
  deriving DecidableEq, Repr

/-- What is to become of the block on a core (R352, R178, R280). -/
inductive Mark where
  | none
  | drain
  | ckpt
  /-- a gang checkpoint at this phase count, for pre-emption or for a revocation -/
  | ckptAt (t : Nat) (pre : Bool)
  /-- killed: its streams have stopped and its commands of committed phases still complete -/
  | dying
  deriving DecidableEq, Repr

/-- A revocation that has reached a core (R177, R178): extent and arrival time. -/
structure Rvk where
  ext  : Nat
  at_  : Nat
  deriving DecidableEq, Repr

/-- The block on a core (R36, R65, R359): what its record, its job's snapshot and its header gave it. -/
structure Resident where
  ctx     : Fin 8
  card    : Nat
  block   : Nat
  serial  : BitVec 32
  rank    : Nat
  gang    : Nat
  gsize   : Nat
  prio    : Nat
  /-- header words 0 to 63 (R9) -/
  hdr     : List Word
  /-- physical address of the image and its extent (R8) -/
  img     : Nat
  imgExt  : Nat
  frame   : Word
  jarg    : List Word
  trip    : List (BitVec 32)
  /-- elastic grant in bytes (R12) -/
  llc     : Nat
  since   : Nat
  cyc0    : Nat
  deriving DecidableEq, Repr

/-- A containment trigger (R363): its code, the phase of the consuming form or command, the address, and who met it as
the records name it (R349): stream, or 3 and an agent. -/
structure Trig where
  code   : Nat
  ph     : Nat
  addr   : Nat
  stream : Nat
  agent  : Nat
  deriving DecidableEq, Repr

/-- An entry of q25 (R214): its 16 bytes, the phase of the command that pushed it, and the command it reports by engine
queue and SEQ; none for one written through the window. -/
structure Ev25 where
  data : Gran
  ph   : Nat
  src  : Option (Nat × Nat)
  deriving DecidableEq, Repr

/-- The record of a phase (R85, R274, R367). -/
structure PhaseRec where
  regs  : Regs
  /-- F and P of every granule whose bits are not both clear: of the core's scratchpad, of the gang's elastic scratch -/
  fp    : Map (Bool × Bool)
  efp   : Map (Bool × Bool)
  ring  : Vector Ring 8
  /-- counts of commands issued, so that commands issued again carry the same SEQ -/
  cseq  : Vector Nat 4
  eseq  : Vector Nat 5
  deriving DecidableEq, Repr

/-- Where granules are: a core's scratchpad, or a gang's elastic scratch. -/
inductive Where where
  | scr (core : Nat)
  | ela (ctx : Nat) (key : Nat)
  deriving DecidableEq, Repr

/-- What engines have for a halted core, in its holding buffer until the resume (R360): a scratch write, a signal, an entry
of q25, an element of another queue. -/
inductive Held where
  | gran (w : Where) (g : Nat) (data : Gran) (mask : Nat) (pois : Bool) (v : View)
  | sem (n : Fin 16) (v ph : Nat) (w : View)
  | ev (e : Ev25)
  | elem (q : Nat) (w : Word) (ph : Nat)
  deriving DecidableEq, Repr

/-- One core (R62 to R72, R135 to R187, R237 to R260, R274, R351 to R367). -/
structure Core where
  phys    : Nat
  inServ  : Bool
  cycle   : Nat
  blk     : Option Resident
  r       : Regs
  trapinfo : BitVec 9
  phasecnt : Nat
  sem     : Vector Nat 16
  /-- waiters, first in line first, each with the core clock in which its wait began (R283) -/
  semq    : Vector (List (Nat × Waiter)) 16
  scr     : Map SGran
  /-- accumulator element (i, j) of set n at key 4096 n + 64 i + j; absent is zero -/
  acc     : Map Acc
  ring    : Vector Ring 8
  /-- format words, each with the number of the phase that pushed it -/
  q10     : List (BitVec 32 × Nat)
  q11     : List MxCmd
  mx      : Option MxRun
  cq      : Vector (List CopyCmd) 4
  crun    : Vector (Option CopyRun) 4
  cseq    : Vector Nat 4
  q16     : List PoolCmd
  prun    : Option PoolRun
  /-- results, each with the number of the phase whose command pushed it; so q21 and q23 -/
  q17     : List (Word × Nat)
  q18     : List ScCmd
  srun    : Option ScRun
  q19     : List NmCmd
  q20     : List WalkCmd
  wrun    : Option WalkRun
  q21     : List (Word × Nat)
  q22     : List SpCmd
  sprun   : List SpRun
  q23     : List (Word × Nat)
  q24     : List JobReq
  q25     : List Ev25
  /-- commands pushed so far to the pool, update, near-memory, Teasel and Speedwell queues: their SEQ (R293, R313) -/
  eseq    : Vector Nat 5
  /-- the block's recent near-memory runs: SEQ and run number (R325) -/
  nmseq   : List (Nat × Nat)
  /-- extents whose handles a resume has still to translate again (R179) -/
  retr    : List Nat
  /-- extents whose revocation has ended while the block's checkpoint waits: the resume translates their handles again (R179) -/
  stale   : List Nat
  /-- pending stores of the phase by physical byte address (R199, R264) -/
  pend    : List Host.Cell
  /-- publications that the phase has committed and that are not yet performed, oldest first, each with what happens
  before it (R264, R268, R303) -/
  comm    : List (List Host.Cell × View)
  /-- bytes this core has read since its last refresh, each with the number of the write that placed it (R265) -/
  seen    : Map (Nat × Byte)
  /-- what happens before this core's next event (R267), and what happened before its last refresh -/
  clk     : View
  rfc     : View
  /-- what the pop of an entry or element acquires, by 2^32 × queue + SEQ: the command's writes, and the addresses they
  reached (R266) -/
  acqs    : Map (View × List Nat)
  /-- what happens before the signals each semaphore has received (R266) -/
  semv    : Vector View 16
  log     : List LogEntry
  pubs    : List (Nat × Nat)
  early   : Bool
  prec    : PhaseRec
  /-- accumulator sets at their first change in the phase (R257) -/
  snaps   : List (Fin 4 × Map Acc)
  /-- elements popped in the phase from q17, q21, q23 and q25, oldest first (R365) -/
  pop17   : List (Word × Nat)
  pop21   : List (Word × Nat)
  pop23   : List (Word × Nat)
  pop25   : List Ev25
  /-- semaphore changes by the phase: increments and decrements (R365) -/
  semInc  : Vector Nat 16
  semDec  : Vector Nat 16
  trigs   : Nat
  ph      : Nat
  injArm  : Bool
  quietPt : Bool
  /-- a translation fault that waits for service: code, detail, SA (R176) -/
  tfault  : Option (Nat × Nat × Nat)
  /-- triggers met by a debugger's steps, taken at resume (R369) -/
  ptrig   : List Trig
  starve  : Nat
  /-- KEND has issued with a true guard (R242) -/
  kend    : Bool
  /-- KEND has issued and its phase has ended: only retirement remains (R158, R275) -/
  ended   : Bool
  mark    : Mark
  heldFor : Option (Nat × Nat × Nat)
  rvks    : List Rvk
  lastCtx : Option (Fin 8)
  /-- writes to the accumulator window held until no queued command names the set (R186) -/
  aww     : List (Nat × BitVec 64)
  barWait : Option (Nat × Nat)
  /-- the holding buffer, oldest first (R360) -/
  hbuf    : List Held
  /-- figures of this residence for the card's statistics words (R396) -/
  nPhases : Nat
  nGrans  : Nat
  nCmds   : Nat
  nTiles  : Nat
  nCancel : Nat
  deriving DecidableEq, Repr

/-- An armed job (R32): words 0 to 21 as snapshot, the header, tokens left, its state of records. -/
structure Job where
  snap   : List Word
  hdr    : List Word
  img    : Nat
  imgExt : Nat
  trips  : List Nat
  tokens : Nat
  /-- the grid word of each binding's map in the producer's arm that it was bound to, 0 without a map (R285) -/
  grids  : List Nat
  /-- the near-memory descriptor of a variant, as the arm checked it, and its run (R327) -/
  nmdesc : List Word
  nmrun  : Option Nat
  /-- what the arm releases to the job's blocks (R33), and what the job's completion will release (R44) -/
  view   : View
  dview  : View
  deriving DecidableEq, Repr

/-- A continuation record (R35). -/
structure Rec where
  card   : Nat
  block  : Nat
  prio   : Nat
  join   : Nat
  ckpt   : Option Nat
  rerun  : Bool
  dieFix : Option Nat
  rank   : Nat
  serial : BitVec 32
  enqt   : BitVec 32
  gang   : Nat
  /-- escalation re-runs in a row (R368) -/
  escal  : Nat
  /-- running now, on this core -/
  core   : Option Nat
  /-- what the inputs satisfied so far release to the block (R54) -/
  view   : View
  deriving DecidableEq, Repr

/-- A gang's own state (R279, R185): placement, grant, barriers. -/
structure GangSt where
  placed  : Bool
  die     : Nat
  grant   : Option Nat
  size    : Nat
  retired : Nat
  cnt     : Vector Nat 8
  gen     : Vector Nat 8
  /-- elastic granules of the gang's grant (R184) -/
  elastic : Map SGran
  /-- what happens before the arrivals at each barrier (R266) -/
  bview   : Vector View 8
  deriving DecidableEq, Repr

/-- A waiter link (R49): its index in the package pool, the tag entry or the producer card it hangs on, and the record it
points to. -/
structure Link where
  ix    : Nat
  ctx   : Fin 8
  tag   : Option Nat
  prod  : Nat
  card  : Nat
  block : Nat
  deriving DecidableEq, Repr

/-- Tile states (R45). -/
inductive TagState where
  | empty | pending | ready | void
  deriving DecidableEq, Repr

/-- A tag-table entry (R45); an absent entry has every field zero. -/
structure Tag where
  gen   : BitVec 32
  card  : Nat
  ctx   : Fin 8
  slot  : Nat
  state : TagState
  tile  : Nat
  /-- what the publication of a READY tile releases (R53, R285) -/
  view  : View
  deriving DecidableEq, Repr

/-- A ready-queue entry (R63, R64): one record, or a gang as the list of its members' blocks. -/
structure REntry where
  ctx    : Fin 8
  card   : Nat
  blocks : List Nat
  gang   : Bool
  deriving DecidableEq, Repr

/-- A checkpoint slot's content (R353). -/
structure Ckpt where
  regs     : Regs
  trapinfo : BitVec 9
  phasecnt : Nat
  sem      : Vector Nat 16
  scr      : Map SGran
  acc      : Map Acc
  ring     : Vector Ring 8
  q10      : List (BitVec 32 × Nat)
  q17      : List (Word × Nat)
  q21      : List (Word × Nat)
  q23      : List (Word × Nat)
  q25      : List Ev25
  cseq     : Vector Nat 4
  eseq     : Vector Nat 5
  nmseq    : List (Nat × Nat)
  acqs     : Map (View × List Nat)
  /-- what happens before the checkpoint (R271) -/
  clk      : View
  semv     : Vector View 16
  frame    : Word
  /-- extents revoked since the checkpoint was taken (R179) -/
  revoked  : List Nat
  deriving DecidableEq, Repr

/-- A lease (R309). -/
structure Lease where
  ctx    : Fin 8
  period : Nat
  expiry : Nat
  lapsed : Bool
  deriving DecidableEq, Repr

/-- An exchange group (R337, R344). -/
structure Group where
  nrank : Nat
  rank  : Nat
  devs  : List Nat
  bcap  : Nat
  tmo   : Nat
  att   : BitVec 16
  cseq  : Nat
  drops : Nat
  deriving DecidableEq, Repr

/-- One of a near-memory run's units (R321 to R326). -/
structure NmUnit where
  unit   : Nat
  /-- iterations of the nest done, the accumulator, outputs written or poisoned -/
  iter   : Nat
  acc    : BitVec 32
  outs   : Nat
  fail   : Option Nat
  paused : Bool
  done   : Bool
  deriving DecidableEq, Repr

/-- A near-memory run: who asked (a core and SEQ, or a card), its descriptor with trips resolved, its units. -/
structure NmRun where
  ctx   : Fin 8
  core  : Option Nat
  card  : Option Nat
  sig   : Option (Fin 16)
  seq   : Nat
  desc  : List Word
  trips : List Nat
  units : List NmUnit
  /-- first row and length in rows of the broadcast source's region, the extent it stands for, and the elements of A that are
  read and that some unit still needs, by iteration: bits, uncorrectable (R323) -/
  abase : Nat
  alen  : Nat
  aext  : Option Nat
  abuf  : Map (Nat × Bool)
  view  : EView
  /-- completed: it stands for NMSTAT only (R325) -/
  done  : Bool
  deriving DecidableEq, Repr

/-- A packet sent and not acknowledged (R336): the command it belongs to by core and SEQ, none for an abort token; its rank
and device, retransmissions, the time of the last sending. -/
structure TxPkt where
  own   : Option (Nat × Nat)
  rank  : Nat
  dev   : Nat
  tries : Nat
  at_   : Nat
  pkt   : Packet
  deriving DecidableEq, Repr

/-- A one-sided write of a peer (R343): its message, the packets of it performed, and their writes. -/
structure RxPut where
  ctx  : Fin 8
  grp  : Fin 64
  src  : Nat
  cseq : Nat
  got  : List Nat
  view : View
  deriving DecidableEq, Repr

/-- A revocation in progress (R177): extent, new entry or none, the request to answer (address of its record and its
word 0), whether the entry is kept (R309), when it was sent. -/
structure Revoc where
  ext    : Nat
  new    : Option (BitVec 128)
  slot   : Option (Nat × Word)
  keep   : Bool
  start  : Nat
  deriving DecidableEq, Repr

/-- One context (R28, R40, R168, R288, R309, R337, R346, R354, R382). -/
structure Ctx where
  svc     : Bool
  stopped : Bool
  halted  : Bool
  exts    : Map (BitVec 128)
  /-- card words: word w of card n at key 32 n + w -/
  cards   : Map Word
  jobs    : Map Job
  /-- the header of each card's last accepted arm: later consumers' maps and TAGTEST are judged by it (R24, R285) -/
  hdrs    : Map (List Word)
  /-- what the completion of each card's job released (R44, R286) -/
  dviews  : Map View
  /-- records, block b of card n at key 2^24 n + b -/
  recs    : Map Rec
  gangs   : Map GangSt
  cks     : Map Ckpt
  ckslots : Nat
  rbase   : Nat
  rlen    : Nat
  tables  : Map (List Word)
  sketch  : Map Nat
  decayAt : Map Nat
  drops   : Map Nat
  regions : Map Nat
  groups  : Map Group
  bufs    : Map Nat
  must    : Map (List Word)
  revs    : List Revoc
  cqbase  : Word
  cqsize  : Nat
  cqhead  : Nat
  cqtail  : Nat
  cqphase : Bool
  /-- entries held, each with whether its interrupt follows it (R42) -/
  cqheld  : List (Word × Word × Bool)
  cqlost  : Nat
  cardwerr : Bool
  lostBit : Bool
  ithresh : BitVec 16
  cint    : BitVec 3
  pdrain  : BitVec 32
  pkill   : BitVec 32
  wdlim   : BitVec 16
  /-- the watchdog count, in reference ns (R359) -/
  wdcnt   : Nat
  err     : List Word
  brken   : Bool
  sstr    : Fin 4
  dbgsel  : BitVec 16
  dbgres  : BitVec 4
  deriving DecidableEq, Repr

/-- An event counter of R372: window start, count. -/
structure Counter where
  start : Nat
  count : Nat
  deriving DecidableEq, Repr

/-- A hot-row way's tag (R300). -/
structure Way where
  valid : Bool
  ctx   : Fin 8
  tid   : Nat
  row   : Nat
  pins  : Nat
  score : Nat
  data  : List Byte
  deriving DecidableEq, Repr

/-- Who runs the next step, and how much time passes first (reference ns, core clocks). -/
inductive Act where
  | stream (core : Nat) (s : Stm)
  | event (i : Instr)
  /-- the debugger's step of one form (R362) -/
  | dbg (ctx : Fin 8) (core : Nat) (s : Stm)
  deriving DecidableEq, Repr

/-- One entry of the schedule. -/
structure Turn where
  ns  : Nat
  cc  : Nat
  act : Act
  deriving DecidableEq, Repr

/-- An admitted must-save entry as the freeze captured it (R384): directory slot, the entry's words (R382), and its pieces:
linear or rank-0 index, and the granules, each with whether it is lost. -/
structure SaveItem where
  slot   : Nat
  desc   : List Word
  pieces : List (Nat × List (Bool × List Byte))
  deriving DecidableEq, Repr

/-- What is known of an extent of the save store (R386, R388): directory slot and entry, where it begins, pieces begun, data
bytes written, granules among them saved as zero. -/
structure Saved where
  slot    : Nat
  desc    : List Word
  at_     : Nat
  npiece  : Nat
  written : Nat
  pois    : Nat
  deriving DecidableEq, Repr

/-- The hold-up sequence in progress (R385 to R387). -/
structure Hold where
  /-- reference time of the event -/
  start  : Nat
  /-- 0 H0, 1 H1, 2 H2, 3 H3 -/
  step   : Nat
  /-- when the write in flight began or begins, and when it ends -/
  began  : Nat
  due    : Nat
  /-- handovers so far -/
  hands  : Nat
  /-- the supply has returned -/
  supply : Bool
  /-- extents still to be written, in save order, and where the next begins in the save store -/
  todo   : List SaveItem
  next   : Nat
  /-- units of H2 begun, and the energies the bank measures: at H0, at H1, before each unit -/
  units  : Nat
  meas   : List Nat
  deriving DecidableEq, Repr

/-- What a firmware slot keeps (R400): the image of boot stage 1, and that of stage 2 (R399). -/
structure FwSlot where
  first : Option FwImage
  main  : Option FwImage
  deriving DecidableEq, Repr

/-- What outlives power-off: the retirement tables, the boot parameters, the save store, the firmware slots, the fused
minimum (R376, R388, R400, R405). -/
structure NonVol where
  retire : List (Word × Word)
  hrcsz  : Nat
  lplease : Nat
  boots  : Nat
  /-- spares in use whose retirement entries the tables hold (R373, R374, R377) -/
  spares : Map Nat
  /-- a save is held: the bytes of the save store that it has written, by offset (R388), the recorder registers beside the
  black-box image, and its extents -/
  held   : Bool
  store  : List Host.Cell
  bbRegs : List Word
  saved  : List Saved
  slotA  : FwSlot
  slotB  : FwSlot
  /-- the fused public key and the fused minimum version -/
  fwKey  : List Byte
  fwMin  : BitVec 32
  /-- the last boot ended in recovery: the next one names the images that the host has written since (R399) -/
  recov  : Bool
  deriving DecidableEq, Repr

/-- The state of the device. -/
structure State where
  /-- the model's own: turns still to take (none: the default turn), core and stream of the current step -/
  schedule : List Turn
  cur      : Nat
  strm     : Stm
  /-- the model's own: how many free values have been drawn -/
  free     : Nat
  /-- the model's own: writes performed at points of coherence so far (R265), and agents numbered so far for single
  commands and writes -/
  wseq     : Nat
  agents   : Nat
  /-- the older values of each byte, newest first, each with the number and the agent of the write that ended it: with the
  newest value in `mem` the coherence order of the byte (R265) -/
  hist     : Map (List (Nat × Nat × Byte))
  /-- what a read of each write learns: the write, the rest of its publication, and what happens before it (R267) -/
  msgs     : Map View
  /-- the older data of scratch granules, newest first, each with the number of the write that ended it and the bytes that
  this write placed, as a mask (R263) -/
  ghist    : Map (List (Nat × Nat × Gran))
  /-- of each engine command, what it has read since its push, under twice its number, and its writes, under the next (R267) -/
  engs     : Map View
  /-- number of the newest host write (R33) -/
  hostN    : Nat
  rtime    : Nat
  mem      : List Host.Cell
  /-- granules that hold the poison code (R371), by physical address / 16, rising -/
  poison   : Map Unit
  cores    : Map Core
  ctxs     : Map Ctx
  tags     : Map Tag
  links    : List Link
  ready    : Vector (List REntry) 64
  /-- gang reservations: die, context, card, block of rank 0 (R67) -/
  resv     : Map (Nat × Nat × Nat)
  /-- arm requests of the hosts' ARM registers: context, card, and the host writes made before (R33) -/
  arms     : List (Fin 8 × Nat × Nat)
  /-- loop nodes whose target has completed or failed and that Campion re-evaluates next (R38) -/
  reev     : List (Fin 8 × Nat)
  runs     : Map NmRun
  nextRun  : Nat
  /-- the runs waiting at each near-memory unit, in order of arrival (R322) -/
  unitQ    : Map (List Nat)
  /-- NMBASE and NMLEN of each near-memory unit, the extent that they stand for, and the context they are loaded for (R319) -/
  nmbase   : Map (Nat × Nat)
  nmext    : Map Nat
  nmctx    : Map Nat
  /-- the core that each die's Teasel serves or served last (R335) -/
  teasel   : Map Nat
  leases   : Map Lease
  ways     : Map Way
  /-- host writes that wait at a chiplet for a pinned hot way (R303), oldest first, each with its number -/
  rowHold  : List (Nat × List Host.Cell)
  peers    : Map (List Word)
  /-- packets not yet acknowledged, by packet number (R336) -/
  tx       : Map TxPkt
  nextTx   : Nat
  /-- every packet handed to the ports: device number and packet -/
  txlog    : List (Nat × Packet)
  /-- packets that arrived before their collective began here, for a halted context, or for a row that is pinned or a full
  q25 (R186, R303, R344, R360) -/
  rxhold   : List Packet
  /-- one-sided writes of peers, the newest first (R343) -/
  rxPuts   : List RxPut
  portDrop : Map Nat
  config   : List Word
  lcores   : Word
  /-- the module has an input supply (R385, R399) -/
  power    : Bool
  booted   : Bool
  down     : Bool
  hold     : Option Hold
  bbring   : Map (List Word)
  bbnext   : Nat
  frozen   : Bool
  bblost   : Nat
  counters : Map Counter
  spares   : Map Nat
  hucap    : Nat
  hubud    : Word
  armed    : Bool
  report   : List Word
  repHeld  : Bool
  lowbank  : Bool
  bootstat : BitVec 8
  fwver    : Word
  pwrstat  : Word
  temp     : Word
  plim     : BitVec 16
  portstat : BitVec 16
  mint     : BitVec 4
  mr       : Vector (BitVec 512) 8
  mextd    : BitVec 512
  atnonce  : BitVec 256
  atbuild  : Option (List Word)
  atdone   : Bool
  atbusy   : Bool
  atrep    : List Word
  /-- the core clock in MHz, and the parts of a reference ns and of a core clock that have passed beyond the whole ones, in
  units of 1/freq ns and of 1/1000 clock (R398) -/
  freq     : Nat
  nsPart   : Nat
  ccPart   : Nat
  peak     : Bool
  rqbase   : Word
  rqsize   : Nat
  rqtail   : Nat
  rqhead   : Nat
  waitReq  : List (Nat × List Word)
  msixMask : BitVec 17
  msixPend : BitVec 17
  /-- the MSI-X table's message address and data words, two 64-bit words a vector (R41) -/
  msixTab  : Map Word
  /-- messages sent: vector, address, data -/
  msixSent : List (Nat × Nat × Nat)
  nv       : NonVol
  deriving DecidableEq, Repr

/-! ### The state after reset -/

/-- A stream at block start (R135, R136, R125, R80). -/
def Stream.init : Stream where
  s := Vector.replicate 32 0
  p := (Vector.replicate 8 0).set 0 0xFFFFFFFFFFFFFFFF
  lc := Vector.replicate 8 0
  llim := Vector.replicate 8 0
  rstk := []
  tflags := 0
  pos := ⟨0, 0, 0⟩
  steer := []
  skip := none
  begun := false
  popped := false
  acted := false
  blk := .run
  opbuf := []
  sample := none
  hz := 0
  hz1 := 0
  gk := []
  await := []

/-- What a phase record restores, at block start (R82, R86, R135, R217, R276). -/
def Regs.init : Regs where
  c := Stream.init
  a := Stream.init
  v := Stream.init
  vr := Vector.replicate 16 0
  qs := Vector.replicate 4 []
  qv := Vector.replicate 5 []
  tok := ⟨0, 0, 0, 0, 0, 0⟩
  win := 256
  h := Vector.replicate 16 []
  t := Vector.replicate 16 []
  par := Vector.replicate 8 false

/-- A ring that no RINGCFG has configured (R244). -/
def Ring.init : Ring := ⟨false, .i8, 0, 0, 0, 0, 0, 0, []⟩

/-- A core with no block: every store of it clean (R394). -/
def Core.init : Core where
  phys := 0
  inServ := false
  cycle := 0
  blk := none
  r := Regs.init
  trapinfo := 0
  phasecnt := 0
  sem := Vector.replicate 16 0
  semq := Vector.replicate 16 []
  scr := []
  acc := []
  ring := Vector.replicate 8 Ring.init
  q10 := []
  q11 := []
  mx := none
  cq := Vector.replicate 4 []
  crun := Vector.replicate 4 none
  cseq := Vector.replicate 4 0
  q16 := []
  prun := none
  q17 := []
  q18 := []
  srun := none
  q19 := []
  q20 := []
  wrun := none
  q21 := []
  q22 := []
  sprun := []
  q23 := []
  q24 := []
  q25 := []
  eseq := Vector.replicate 5 0
  nmseq := []
  retr := []
  stale := []
  pend := []
  comm := []
  seen := []
  clk := []
  rfc := []
  acqs := []
  semv := Vector.replicate 16 []
  log := []
  pubs := []
  early := false
  prec := ⟨Regs.init, [], [], Vector.replicate 8 Ring.init, Vector.replicate 4 0, Vector.replicate 5 0⟩
  snaps := []
  pop17 := []
  pop21 := []
  pop23 := []
  pop25 := []
  semInc := Vector.replicate 16 0
  semDec := Vector.replicate 16 0
  trigs := 0
  ph := 0
  injArm := false
  quietPt := false
  tfault := none
  ptrig := []
  starve := 0
  kend := false
  ended := false
  mark := .none
  heldFor := none
  rvks := []
  lastCtx := none
  aww := []
  barWait := none
  hbuf := []
  nPhases := 0
  nGrans := 0
  nCmds := 0
  nTiles := 0
  nCancel := 0

/-- A context that holds nothing, its registers at their reset values (R40, R346). -/
def Ctx.init : Ctx where
  svc := false
  stopped := false
  halted := false
  exts := []
  cards := []
  jobs := []
  hdrs := []
  dviews := []
  recs := []
  gangs := []
  cks := []
  ckslots := 0
  rbase := 0
  rlen := 0
  tables := []
  sketch := []
  decayAt := []
  drops := []
  regions := []
  groups := []
  bufs := []
  must := []
  revs := []
  cqbase := 0
  cqsize := 6
  cqhead := 0
  cqtail := 0
  cqphase := true
  cqheld := []
  cqlost := 0
  cardwerr := false
  lostBit := false
  ithresh := 0x0100
  cint := 0
  pdrain := 3125
  pkill := 6250
  wdlim := 1000
  wdcnt := 0
  err := [0, 0, 0, 0]
  brken := false
  sstr := 0
  dbgsel := 0
  dbgres := 0

/-- The configuration record before a boot: the floors (R74 Table 4). -/
def configReset : List Word :=
  [BitVec.ofNat 64 (48 * 2 ^ 16), 0, 0, 0, BitVec.ofNat 64 (160 * 2 ^ 56 + 8 * 2 ^ 48 + 48 * 2 ^ 40), 0, 0, 0]

/-- The device after reset: nothing booted, no context, memory with nothing listed; every register at the reset value
of its table (R40, R346, R376, R379, R403, R404, R405). -/
def State.reset : State where
  schedule := []
  cur := 0
  strm := .c
  free := 0
  wseq := 0
  agents := 0
  hist := []
  msgs := []
  ghist := []
  engs := []
  hostN := 0
  rtime := 0
  mem := []
  poison := []
  cores := []
  ctxs := []
  tags := []
  links := []
  ready := Vector.replicate 64 []
  resv := []
  arms := []
  reev := []
  runs := []
  nextRun := 0
  unitQ := []
  nmbase := []
  nmext := []
  nmctx := []
  teasel := []
  leases := []
  ways := []
  rowHold := []
  peers := []
  tx := []
  nextTx := 0
  txlog := []
  rxhold := []
  rxPuts := []
  portDrop := []
  config := configReset
  lcores := 0
  power := true
  booted := false
  down := false
  hold := none
  bbring := []
  bbnext := 1
  frozen := false
  bblost := 0
  counters := []
  spares := []
  hucap := 0
  hubud := 0
  armed := false
  report := []
  repHeld := false
  lowbank := false
  bootstat := 0x01
  fwver := 0
  pwrstat := 0
  temp := 0
  plim := 1800
  portstat := 0
  mint := 0
  mr := Vector.replicate 8 0
  mextd := 0
  atnonce := 0
  atbuild := none
  atdone := false
  atbusy := false
  atrep := []
  freq := 4000
  nsPart := 0
  ccPart := 0
  peak := false
  rqbase := 0
  rqsize := 4
  rqtail := 0
  rqhead := 0
  waitReq := []
  msixMask := BitVec.allOnes 17
  msixPend := 0
  msixTab := []
  msixSent := []
  nv := { retire := [], hrcsz := 64, lplease := 48, boots := 0, spares := [], held := false, store := [],
          bbRegs := [], saved := [], slotA := ⟨none, none⟩, slotB := ⟨none, none⟩,
          fwKey := List.replicate 57 0, fwMin := 0, recov := false }

end Sys2Proof.Machine
end

