-- ==== Sys2Proof/Machine/Access.lean ====
section
/-!
DEFINITION. Sys2Proof/Machine/Access.lean: the cores, contexts, streams and registers of the state, and free values.
-/
namespace Sys2Proof.Machine
open Sys2Proof

/-! ### Cores and contexts -/

def State.core (s : State) (k : Nat) : Core := mgetD s.cores k Core.init
def State.setCore (s : State) (k : Nat) (c : Core) : State := { s with cores := mset s.cores k c }
def State.modCore (s : State) (k : Nat) (f : Core → Core) : State := s.setCore k (f (s.core k))
/-- The core whose stream or engine acts. -/
def State.me (s : State) : Core := s.core s.cur
def State.setMe (s : State) (c : Core) : State := s.setCore s.cur c
def State.modMe (s : State) (f : Core → Core) : State := s.setMe (f s.me)

def State.hasCtx (s : State) (i : Nat) : Bool := (mget s.ctxs i).isSome
def State.ctx (s : State) (i : Nat) : Ctx := mgetD s.ctxs i Ctx.init
def State.setCtx (s : State) (i : Nat) (c : Ctx) : State := { s with ctxs := mset s.ctxs i c }
def State.modCtx (s : State) (i : Nat) (f : Ctx → Ctx) : State := s.setCtx i (f (s.ctx i))

/-- The block of a core without one: never read by a step that acts for a block. -/
def Resident.none : Resident where
  ctx := 0
  card := 0
  block := 0
  serial := 0
  rank := 0
  gang := 0
  gsize := 1
  prio := 0
  hdr := []
  img := 0
  imgExt := 0
  frame := 0
  jarg := []
  trip := []
  llc := 0
  since := 0
  cyc0 := 0

def Core.res (c : Core) : Resident := c.blk.getD Resident.none
/-- The block that runs on the current core. -/
def State.res (s : State) : Resident := s.me.res
/-- Its context's number. -/
def State.cx (s : State) : Nat := s.res.ctx.val

/-- Header word n of a block (R9). -/
def Resident.hw (r : Resident) (n : Nat) : Nat := wd r.hdr n

/-! ### Streams -/

def Regs.str (r : Regs) : Stm → Stream
  | .c => r.c
  | .a => r.a
  | .v => r.v
def Regs.setStr (r : Regs) (m : Stm) (x : Stream) : Regs :=
  match m with
  | .c => { r with c := x }
  | .a => { r with a := x }
  | .v => { r with v := x }
def Core.str (c : Core) (m : Stm) : Stream := c.r.str m
def Core.setStr (c : Core) (m : Stm) (x : Stream) : Core := { c with r := c.r.setStr m x }
/-- The stream that issues. -/
def State.st (s : State) : Stream := s.me.str s.strm
def State.setSt (s : State) (x : Stream) : State := s.setMe (s.me.setStr s.strm x)
def State.modSt (s : State) (f : Stream → Stream) : State := s.setSt (f s.st)
def State.modRegs (s : State) (f : Regs → Regs) : State := s.modMe fun c => { c with r := f c.r }

/-! ### Scalars, predicates, flags -/

/-- A scalar of the issuing stream (R135). -/
def State.sr (s : State) (i : SIx) : Word := s.st.s[i]
/-- Write a scalar of the issuing stream. -/
def State.setS (s : State) (i : SIx) (v : Word) : State := s.modSt fun x => { x with s := x.s.set i v }

/-- A predicate as a mask: p0 reads all ones (R135, R136). -/
def Stream.pm (x : Stream) (i : PIx) : Word := if i = 0 then BitVec.allOnes 64 else x.p[i]
/-- Write a predicate mask: a write to p0 is discarded (R135). -/
def Stream.setP (x : Stream) (i : PIx) (v : Word) : Stream := if i = 0 then x else { x with p := x.p.set i v }
/-- Bit 0 of a predicate. -/
def Stream.pb (x : Stream) (i : PIx) : Bool := (x.pm i).getLsbD 0
/-- A bit in every lane of a mask (R136). -/
def maskOf (b : Bool) : Word := if b then BitVec.allOnes 64 else 0

/-- The guard as a lane mask (R95, R136). -/
def State.guardM (s : State) (g : Guard) : Word := if g.ng then ~~~(s.st.pm g.gp) else s.st.pm g.gp
/-- The guard of a form: bit 0 of its mask (R136). -/
def State.guardB (s : State) (g : Guard) : Bool := (s.guardM g).getLsbD 0

/-- OR bits into the issuing stream's sticky flags (R125). -/
def State.orFlags (s : State) (f : BitVec 8) : State := s.modSt fun x => { x with tflags := x.tflags ||| f }

/-! ### Free values -/

/-- A value the manual leaves open: an uninterpreted number, a fresh one at every draw. -/
def State.draw (s : State) : Nat × State := (Config.freeNat s.free, { s with free := s.free + 1 })

/-- One core or another is in service and has no block and no work left (R66). -/
def Core.idle (c : Core) : Bool := c.inServ && c.blk.isNone

end Sys2Proof.Machine
end

