-- ==== Sys2Proof/Machine/Rows.lean ====
section
/-!
DEFINITION. Sys2Proof/Machine/Rows.lean: extent entries, table descriptors, where a table's rows lie, and the ways of the
hot-row cache (R168, R288, R289, R300, R303).
-/
namespace Sys2Proof.Machine
open Sys2Proof

/-! ### Extent entries (R168 Table 3) -/

abbrev Extent := BitVec 128
def xf (x : Extent) (hi lo : Nat) : Nat := bits x.toNat hi lo
def xValid (x : Extent) : Bool := bit x.toNat 127
def xRvk (x : Extent) : Bool := bit x.toNat 126
def xLog (x : Extent) : Nat := xf x 125 120
def xTier (x : Extent) : Nat := xf x 119 117
def xAtc (x : Extent) : Nat := xf x 116 115
def xRo (x : Extent) : Bool := bit x.toNat 114
def xPerm (x : Extent) : Nat := xf x 113 90
def xFrame (x : Extent) : Nat := xf x 89 59
def xVbase (x : Extent) : Nat := xf x 38 0
/-- First virtual address and the address after the last. -/
def xFirst (x : Extent) : Nat := xVbase x * 2 ^ 21
def xTop (x : Extent) : Nat := xFirst x + 2 ^ xLog x
/-- First physical address. -/
def xBase (x : Extent) : Nat := xFrame x * 2 ^ 21
/-- Physical address of a virtual address inside the extent. -/
def xPhys (x : Extent) (v : Nat) : Nat := xBase x + (v - xFirst x)
/-- A context's extent entry; an absent one is not valid. -/
def Ctx.ext (t : Ctx) (n : Nat) : Extent := mgetD t.exts n 0

/-! ### Table descriptors (R288 Table 1, R289) -/

abbrev Tab := List Word
def tbValid (d : Tab) : Bool := bit (wd d 0) 63
def tbType (d : Tab) : Nat := bits (wd d 0) 62 58
def tbPe (d : Tab) : Int := sgn 8 (bits (wd d 0) 57 50)
def tbW (d : Tab) : Nat := bits (wd d 0) 49 40 + 1
def tbStr (d : Tab) : Nat := bits (wd d 0) 39 28
def tbNsh (d : Tab) : Nat := bits (wd d 0) 27 21
def tbHot (d : Tab) : Bool := bit (wd d 0) 20
def tbSke (d : Tab) : Bool := bit (wd d 0) 19
def tbRows (d : Tab) : Nat := bits (wd d 1) 63 32
def tbExt0 (d : Tab) : Nat := bits (wd d 1) 31 18
def tbAdmit (d : Tab) : Nat := bits (wd d 2) 63 48
def tbDecay (d : Tab) : Nat := bits (wd d 2) 47 32
/-- The row element type: F32, BF16, F16, I8 or I4. -/
def tbTy (d : Tab) : Ty := (Ty.ofCode (tbType d)).getD .f32
/-- Data bytes of a row, and its row bytes (R289). -/
def tbData (d : Tab) : Nat := (tbW d * (tbTy d).width + 7) / 8
def tbBytes (d : Tab) : Nat := tbData d + if (tbTy d).isInt || tbTy d == .i4 then 4 else 0
/-- The extents that hold a table's shards. -/
def tbExts (d : Tab) : List Nat := upto (tbExt0 d) (tbNsh d)
/-- A context's descriptor; an absent one is not valid. -/
def Ctx.tab (t : Ctx) (tid : Nat) : Tab := mgetD t.tables tid []
/-- Physical address of row r (R289). -/
def Ctx.rowAddr (t : Ctx) (d : Tab) (r : Nat) : Nat := xBase (t.ext (tbExt0 d + r % tbNsh d)) + r / tbNsh d * tbStr d

/-- The rows of a table that an address lies in: of several where shards' extents share a frame (R169). -/
def Ctx.rowsOf (t : Ctx) (d : Tab) (a : Nat) : List Nat :=
  (upto 0 (tbNsh d)).filterMap fun k =>
    let x := t.ext (tbExt0 d + k)
    if xValid x ∧ xBase x ≤ a ∧ a < xBase x + 2 ^ xLog x ∧ 0 < tbStr d then
      let r := (a - xBase x) / tbStr d * tbNsh d + k
      if r < tbRows d then some r else none
    else none

/-! ### Hot ways (R300, R303) -/

/-- HRCSZ as the boot chose it (R74). -/
def State.hrcsz (s : State) : Nat := bits (wd s.config 1) 31 24
/-- The set of a row (R300). -/
def State.hotSet (s : State) (c tid r : Nat) : Nat :=
  Nat.xor (r * 0x9E3779B1) ((1024 * c + tid) * 0x85EBCA6B) % 2 ^ 32 % (s.hrcsz * 65536)
/-- Keys of the eight ways of a set. -/
def wayKeys (set : Nat) : List Nat := upto (8 * set) 8
/-- The ways whose tag names a row, valid or still pinned. -/
def State.wayTags (s : State) (c tid r : Nat) : List (Nat × Way) :=
  if s.ways.isEmpty ∨ s.hrcsz = 0 then []
  else (wayKeys (s.hotSet c tid r)).filterMap fun k => (mget s.ways k).bind fun w =>
    if w.ctx.val = c ∧ w.tid = tid ∧ w.row = r then some (k, w) else none
/-- The valid way that holds a row. -/
def State.hotWay (s : State) (c tid r : Nat) : Option (Nat × Way) := (s.wayTags c tid r).find? fun w => w.2.valid
/-- Whether a pin holds a row's ways. -/
def State.rowPinned (s : State) (c tid r : Nat) : Bool := (s.wayTags c tid r).any fun w => w.2.pins != 0
/-- Write a way; one that is neither valid nor pinned is listed no more. -/
def State.setWay (s : State) (k : Nat) (w : Way) : State :=
  { s with ways := if !w.valid && w.pins == 0 then mdel s.ways k else mset s.ways k w }
/-- Clear VALID of a way. -/
def State.clearWay (s : State) (k : Nat) : State :=
  match mget s.ways k with
  | some w => s.setWay k { w with valid := false }
  | none => s
/-- Clear VALID of every way that a test selects. -/
def State.clearWays (s : State) (p : Way → Bool) : State :=
  (s.ways.filter fun e => p e.2).foldl (fun t e => t.clearWay e.1) s
/-- Physical address of a way's slot in the carve-out (R166, R300). -/
def State.slotAddr (s : State) (k : Nat) : Nat := (bits (wd s.config 1) 63 56 * 2 - s.hrcsz) * 2 ^ 30 + 2048 * k

/-- The hot ways whose rows an address lies in. -/
def State.waysAt (s : State) (a : Nat) : List (Nat × Way) :=
  if s.ways.isEmpty then []
  else s.ctxs.flatMap fun e => e.2.tables.flatMap fun t =>
    if tbValid t.2 && tbHot t.2 then (e.2.rowsOf t.2 a).flatMap (s.wayTags e.1 t.1) else []
/-- The hot ways that a write to addresses reaches. -/
def State.waysOf (s : State) (as : List Nat) : List (Nat × Way) :=
  if s.ways.isEmpty then [] else ((as.map fun a => a / 16).dedup).flatMap fun g => s.waysAt (16 * g)
/-- Whether a pin keeps a write to these addresses from its row (R303). -/
def State.rowsPinned (s : State) (as : List Nat) : Bool := (s.waysOf as).any fun w => w.2.pins != 0
/-- The first step of a write to these addresses: the ways holding their rows lose VALID (R303). -/
def State.clearRows (s : State) (as : List Nat) : State := (s.waysOf as).foldl (fun t w => t.clearWay w.1) s

/-- Add a pin to ways, or take one away (R301). -/
def State.pinWays (s : State) (ks : List Nat) : State :=
  ks.foldl (fun t k => (mget t.ways k).elim t fun w => t.setWay k { w with pins := w.pins + 1 }) s
def State.unpinWays (s : State) (ks : List Nat) : State :=
  ks.foldl (fun t k => (mget t.ways k).elim t fun w => t.setWay k { w with pins := w.pins - 1 }) s

end Sys2Proof.Machine
end

