-- ==== Sys2Proof/Machine/View.lean ====
section
/-!
DEFINITION. Sys2Proof/Machine/View.lean: the agents of the memory model (R262), what happens before an event (R267), and the
coherence order of a byte (R265).
-/
namespace Sys2Proof.Machine
open Sys2Proof

/-! ### Agents (R262)

A core's publications happen in an order of their own (R267), so they stand under one agent, 4 k; the atomics of each of
its streams under 4 k + 1 to 4 k + 3.  The writes of one engine command, a single write of the host, of a peer or of the
package stand under an agent of their own, for no rule orders one of them before another. -/

/-- The agent of a core's publications. -/
def pubAgent (k : Nat) : Nat := 4 * k
/-- The agent of the atomics of a stream. -/
def atomAgent (k : Nat) (m : Stm) : Nat := 4 * k + match m with
  | .c => 1 | .a => 2 | .v => 3
/-- The agent that stands, in a view, for the first so many host writes (R33). -/
def hostAgent : Nat := 600
/-- Classes of the agents that are no core: of the module, the host, peers. -/
def moduleClass : Nat := 130
def hostClass : Nat := 131
def peerClass : Nat := 132
/-- The n-th agent numbered for a single command or write, of a class: the core it belongs to, or one of the above. -/
def oneOff (cls n : Nat) : Nat := 2 ^ 40 + 1024 * n + cls
/-- The class of an agent: its core, or one of the above. -/
def agentClass (g : Nat) : Nat := if g < 600 then g / 4 else if g = 600 then 131 else g % 1024
/-- Number an agent for one command or write of a class. -/
def State.newAgent (s : State) (cls : Nat) : Nat × State := (oneOff cls s.agents, { s with agents := s.agents + 1 })

/-! ### What happens before an event (R267) -/

def View.get (v : View) (g : Nat) : Nat := mgetD v g 0
/-- A write of an agent joins a view. -/
def View.put (v : View) (g n : Nat) : View := if n ≤ v.get g then v else mset v g n
/-- Everything of both views. -/
def View.join (v w : View) : View := w.foldl (fun x e => View.put x e.1 e.2) v
/-- Whether a view holds write n of agent g; number 0 is the initial value.  The n-th host write has the n-th agent of its
class, and `hostAgent` stands for the first so many of them (R33). -/
def View.knows (v : View) (n g : Nat) : Bool :=
  n == 0 || decide (n ≤ v.get g) || (agentClass g == hostClass && decide ((g - 2 ^ 40) / 1024 ≤ v.get hostAgent))
/-! ### The coherence order of a byte (R265) -/

/-- The values of a byte, newest first, each with the number and the agent of the write that placed it: 0 for the initial
value. -/
def versions : List (Nat × Nat × Byte) → Byte → List (Nat × Nat × Byte)
  | [], x => [(0, 0, x)]
  | (n, g, old) :: r, x => (n, g, x) :: versions r old
/-- The newest version that a test demands: a read may return nothing older. -/
def lowest (p : Nat → Nat → Bool) (vs : List (Nat × Nat × Byte)) : Nat := (vs.find? fun v => p v.1 v.2.1).elim 0 fun v => v.1
/-- The version that stood when t writes had been performed. -/
def versionAt (t : Nat) (vs : List (Nat × Nat × Byte)) : Nat × Nat × Byte := (vs.find? fun v => decide (v.1 ≤ t)).getD (0, 0, 0)

/-- A core learns what happens before an event it observes. -/
def Core.learn (v : View) (c : Core) : Core := { c with clk := c.clk.join v }
def State.learn (s : State) (k : Nat) (v : View) : State := if v.isEmpty then s else s.modCore k (Core.learn v)

/-- The reads of a stream that follow are performed after everything so far (R263). -/
def Stream.orderReads (n : Nat) (x : Stream) : Stream := { x with hz := n, hz1 := n, gk := [] }
def State.orderReads (s : State) : State := s.modSt (Stream.orderReads s.wseq)
/-- The same of all three streams of a core. -/
def Regs.orderReads (n : Nat) (r : Regs) : Regs :=
  { r with c := r.c.orderReads n, a := r.a.orderReads n, v := r.v.orderReads n }

/-- A stream that waited tries again. -/
def Stream.wake (x : Stream) : Stream := if x.blk = .run then x else { x with blk := .run }
def Core.retry (c : Core) : Core := { c with r := { c.r with c := c.r.c.wake, a := c.r.a.wake, v := c.r.v.wake } }
/-- The same once a stream has issued: the core's starvation count restarts (R350). -/
def Core.wake (c : Core) : Core := { c.retry with starve := 0 }

end Sys2Proof.Machine
end

