-- ==== Sys2Proof/Machine/Mem.lean ====
section
/-!
DEFINITION. Sys2Proof/Machine/Mem.lean: memory at the points of coherence, the core's view of it, pending stores, scratch
and elastic granules (R165, R181 to R186, R199, R264, R265, R371).
-/
namespace Sys2Proof.Machine
open Sys2Proof

/-! ### Memory at the points of coherence -/

/-- What an address that memory does not list reads as: the model's choice, notes/assumptions/2.md. -/
def Memory.blank : Byte := 0
/-- The canonical form: addresses strictly rising, no entry equal to what an unlisted address reads as. -/
def Memory.wf (m : List Host.Cell) : Bool := risingFrom 0 m && m.all fun c => c.2 != Memory.blank
/-- The newest value of a byte. -/
def Memory.get (m : List Host.Cell) (a : Nat) : Byte := mgetD m a Memory.blank
/-- Write one byte. -/
def Memory.set (m : List Host.Cell) (a : Nat) (b : Byte) : List Host.Cell := mput Memory.blank m a b
/-- Write bytes in the order given. -/
def Memory.setAll (m : List Host.Cell) (cells : List Host.Cell) : List Host.Cell :=
  cells.foldl (fun m c => Memory.set m c.1 c.2) m

/-- The newest n bytes from address a, as a number. -/
def State.peek (s : State) (a n : Nat) : Nat := ofBytes ((upto a n).map (Memory.get s.mem))
/-- The newest n bytes from address a. -/
def State.peekBytes (s : State) (a n : Nat) : List Byte := (upto a n).map (Memory.get s.mem)
/-- Bytes from address a up as cells. -/
def cellsAt (a : Nat) (bs : List Byte) : List Host.Cell := (upto a bs.length).zip bs

/-- Granules wholly covered by the bytes from a to a + n − 1. -/
def wholeGrans (a n : Nat) : List Nat := upto ((a + 15) / 16) ((a + n) / 16 - (a + 15) / 16)
/-- Granules touched by the bytes from a to a + n − 1. -/
def touchGrans (a n : Nat) : List Nat := if n = 0 then [] else upto (a / 16) ((a + n - 1) / 16 + 1 - a / 16)

/-- Whether all 16 bytes of a granule stand among the cells. -/
def coversGran (cells : List Host.Cell) (g : Nat) : Bool :=
  (upto (16 * g) 16).all fun a => cells.any fun c => c.1 == a

/-- Perform a write at the points of coherence (R264, R265): by agent `g`, after what `v` holds (R267); a whole-granule
write clears the poison code (R371). -/
def State.perform (s : State) (g : Nat) (v : View) (cells : List Host.Cell) : State :=
  if cells.isEmpty then s
  else
    { s with
      wseq := s.wseq + 1
      mem := Memory.setAll s.mem cells
      poison := s.poison.filter fun p => !(coversGran cells p.1)
      hist := cells.foldl (fun h c => mset h c.1 ((s.wseq + 1, g, Memory.get s.mem c.1) :: mgetD h c.1 [])) s.hist
      msgs := mset s.msgs (s.wseq + 1) (v.put g (s.wseq + 1)) }

/-- A write to memory that no pin holds back: ways that hold a row it reaches lose VALID first (R303). -/
def State.memWrite (s : State) (g : Nat) (v : View) (cells : List Host.Cell) : State :=
  (s.clearRows (cells.map fun c => c.1)).perform g v cells
/-- What a command has read since its push, and its writes. -/
def State.engReads (s : State) (e : EView) : View := mgetD s.engs (2 * e.id) []
def State.ownWrites (s : State) (e : EView) : View := mgetD s.engs (2 * e.id + 1) []
/-- What happens before the next write of an engine's command (R267, R269): none of its writes happens before another. -/
def State.engClk (s : State) (e : EView) : View := e.clk.join (s.engReads e)
/-- What happens before the completion of a command: its writes too (R212). -/
def State.engDone (s : State) (e : EView) : View := (s.engClk e).join (s.ownWrites e)
/-- A command learns what a read of its returns. -/
def State.engLearn (s : State) (e : EView) (ns : List Nat) : State :=
  let v := ns.foldl (fun v n => v.join (mgetD s.msgs n [])) (s.engReads e)
  if ns.isEmpty then s else { s with engs := mset s.engs (2 * e.id) v }
/-- The cells of one granule among several. -/
def cellsOf (cells : List Host.Cell) (g : Nat) : List Host.Cell := cells.filter fun c => c.1 / 16 == g
/-- A write of an engine's command inside one granule (R269): after the events before the command's push and what it has read,
under an agent of its own (R267). -/
def State.engWrite1 (s : State) (e : EView) (cells : List Host.Cell) : State :=
  let a := s.newAgent (agentClass e.id)
  let t := a.2.memWrite a.1 (s.engClk e) cells
  { t with engs := mset t.engs (2 * e.id + 1) ((t.ownWrites e).put a.1 t.wseq) }
/-- The same of several granules, each by itself (R181). -/
def State.engWrite (s : State) (e : EView) (cells : List Host.Cell) : State :=
  ((cells.map fun c => c.1 / 16).dedup).foldl (fun t g => t.engWrite1 e (cellsOf cells g)) s
/-- A write of the package or of a peer, which no rule orders after another. -/
def State.loneWrite (s : State) (cls : Nat) (cells : List Host.Cell) : State :=
  let g := s.newAgent cls
  g.2.memWrite g.1 [] cells

/-- Whether a host write of a byte must wait: its row's way is pinned, or an earlier host write of its granule waits. -/
def State.hostWaits (s : State) (a : Nat) : Bool :=
  s.rowsPinned [a] || s.rowHold.any fun e => e.2.any fun c => c.1 / 16 == a / 16
/-- A host write: the bytes of a row whose way is pinned wait at its chiplet, each row by itself and in their order (R303). -/
def State.hostWrite (s : State) (cells : List Host.Cell) : State :=
  let n := s.hostN + 1
  let held := cells.filter fun c => s.hostWaits c.1
  let s1 := (s.clearRows (cells.map fun c => c.1)).perform (oneOff hostClass n) [] (cells.filter fun c => !s.hostWaits c.1)
  { s1 with
    hostN := n
    rowHold := s1.rowHold ++ ((held.map fun c => c.1 / 16).dedup.map fun g => (n, cellsOf held g)) }
/-- Perform the waiting host writes whose rows are no longer pinned, in their order; a way filled meanwhile loses VALID
(R303). -/
def State.rowRelease (s : State) : State :=
  let go := s.rowHold.filter fun e => !s.rowsPinned (e.2.map fun c => c.1)
  go.foldl (fun t e => t.memWrite (oneOff hostClass e.1) [] e.2)
    { s with rowHold := s.rowHold.filter fun e => s.rowsPinned (e.2.map fun c => c.1) }
/-- Whether a host write among the first n waits for a pin. -/
def State.hostHeld (s : State) (n : Nat) : Bool := s.rowHold.any fun e => decide (e.1 ≤ n)

/-- Write the poison code into granules (R371). -/
def State.setPoison (s : State) (gs : List Nat) : State := { s with poison := gs.foldl (fun p g => mset p g ()) s.poison }
/-- Whether any granule of the bytes from a to a + n − 1 holds the poison code. -/
def State.poisoned (s : State) (a n : Nat) : Bool := (touchGrans a n).any fun g => (mget s.poison g).isSome

/-! ### The view of a core (R265) -/

/-- What a read of the core's own store, not yet performed, leaves for stability in place of a write's number. -/
def ownMark : Nat := 2 ^ 64
/-- What the core has read of its own stores stands, once their publication is performed as write n, for that write (R265
step 2). -/
def Core.seenPublished (n : Nat) (cells : List Host.Cell) (c : Core) : Core :=
  { c with seen := c.seen.map fun e =>
      if e.2.1 = ownMark ∧ (cells.any fun x => x.1 == e.1) ∧ !(c.pend.any fun x => x.1 == e.1) ∧
          !(c.comm.any fun p => p.1.any fun x => x.1 == e.1)
      then (e.1, n, e.2.2) else e }
/-- A byte of the core's stores that no other agent can see yet: pending, or committed and not yet performed. -/
def Core.ownStore (c : Core) (a : Nat) : Option Byte :=
  mget c.pend a <|> c.comm.reverse.findSome? fun e => mget e.1 a
/-- Whether a version is the core's own write since its last refresh. -/
def Core.ownNew (c : Core) (k n g : Nat) : Bool := n != 0 && decide (g < 512) && g / 4 == k && !c.rfc.knows n g
/-- The versions of a byte that core k's phase-view read may return: on path 2 (`own = false`) its own publications only
once refreshed (R270). -/
def State.versionsFor (s : State) (k : Nat) (own : Bool) (a : Nat) : List (Nat × Nat × Byte) :=
  let vs := versions (mgetD s.hist a []) (Memory.get s.mem a)
  if own then vs else vs.filter fun v => !(v.2.1 == pubAgent k && (s.core k).ownNew k v.1 v.2.1)
/-- The oldest write number at which core k may read a byte (R265 step 3, R268, R270). -/
def State.viewLow (s : State) (k : Nat) (own : Bool) (a : Nat) : Nat :=
  let c := s.core k
  lowest (fun n g => c.rfc.knows n g || (own && c.ownNew k n g)) (s.versionsFor k own a)
/-- A byte of a phase-view read that is settled: an own store (R265 step 1), or what the core read before in the interval
and has not written since (step 2).  On path 0 or 4 such a value does not hide a newer store of the core (R270 row 1).  On
path 2 it binds even where it is the core's own published store, which Table 2 of R270 shows there only after a later refresh:
step 2 is followed, a DESIGN CHOICE between the two (notes/assumptions/70.md). -/
def State.settled (s : State) (k : Nat) (own : Bool) (a : Nat) : Option Byte :=
  let c := s.core k
  (if own then c.ownStore a else none) <|> (mget c.seen a).bind fun v =>
    if v.1 = ownMark ∨ (own ∧ v.1 < s.viewLow k true a) then none else some v.2

/-- A write number from `lo` to the newest: the manual leaves open which; drawn only where a byte has a version newer than
`lo` (notes/assumptions/3.md). -/
def State.drawTime (s : State) (lo : Nat) (vss : List (List (Nat × Nat × Byte))) : Nat × State :=
  if vss.any fun vs => decide (lo < (vs.head?.elim 0 fun v => v.1)) then
    let d := s.draw
    (lo + d.1 % (s.wseq - lo + 1), d.2)
  else (max lo s.wseq, s)

/-- What the reads of versions teach a core (R267). -/
def State.learnReads (s : State) (k : Nat) (ns : List Nat) : State :=
  ns.foldl (fun t n => t.learn k (mgetD t.msgs n [])) s

/-- A phase-view read of n bytes inside one granule by core k: a value no older than what the core's last refresh obeys,
the manual leaving open which (R265).  `own`: the core's own stores are seen. -/
def State.viewRead (s : State) (k : Nat) (own : Bool) (a n : Nat) : List Byte × State :=
  let free := (upto a n).filter fun x => (s.settled k own x).isNone
  let d := s.drawTime ((free.map fun x => s.viewLow k own x).foldl max 0) (free.map fun x => s.versionsFor k own x)
  let at_ (x : Nat) := versionAt d.1 (s.versionsFor k own x)
  let bs := (upto a n).map fun x => (s.settled k own x).getD (at_ x).2.2
  let got := (free.map fun x => (x, (at_ x).1, (at_ x).2.2)) ++
    ((upto a n).filterMap fun x => if own then ((s.core k).ownStore x).map fun b => (x, ownMark, b) else none)
  (bs, (d.2.learnReads k (free.map fun x => (at_ x).1).dedup).modCore k fun c =>
    { c with seen := got.foldl (fun o x => mset o x.1 x.2) c.seen })

/-- The writes that placed the newest values of n bytes. -/
def State.newestOf (s : State) (a n : Nat) : List Nat :=
  ((upto a n).map fun x => ((mgetD s.hist x []).head?).elim 0 fun v => v.1).dedup
/-- A read of the newest value by core k, after its own stores where `own`: an atomic's (R268). -/
def State.latestRead (s : State) (k : Nat) (own : Bool) (a n : Nat) : List Byte :=
  (upto a n).map fun x => (if own then (s.core k).ownStore x else none).getD (Memory.get s.mem x)
/-- A read at the points of coherence by core k, performed at write number `lo` or later: a path-1 read, an LDL or a path-5
read, never older than what happens before it (R263, R265).  Answers the time of its performance. -/
def State.lateRead (s : State) (k : Nat) (own : Bool) (lo a n : Nat) : List Byte × Nat × State :=
  let c := s.core k
  let free := (upto a n).filter fun x => !(own && (c.ownStore x).isSome)
  let low := (free.map fun x => lowest c.clk.knows (s.versionsFor k true x)).foldl max lo
  let d := s.drawTime low (free.map fun x => s.versionsFor k true x)
  let at_ (x : Nat) := versionAt d.1 (s.versionsFor k true x)
  ((upto a n).map fun x => (if own then c.ownStore x else none).getD (at_ x).2.2, d.1,
    d.2.learnReads k (free.map fun x => (at_ x).1).dedup)

/-- Pieces of the bytes from a to a + n − 1 that lie in one granule each (R181): first address and length. -/
def granPieces (a n : Nat) : List (Nat × Nat) :=
  (touchGrans a n).map fun g => (max a (16 * g), min (a + n) (16 * g + 16) - max a (16 * g))

/-- A load of memory by stream m of core k on a path: each granule by itself (R181); path-1 reads keep their order (R263). -/
def State.memRead (s : State) (k : Nat) (m : Stm) (path a n : Nat) : List Byte × State :=
  (granPieces a n).foldl
    (fun acc p =>
      let x := (acc.2.core k).str m
      if path = 1 then
        let r := acc.2.lateRead k true (max x.hz x.hz1) p.1 p.2
        (acc.1 ++ r.1, r.2.2.modCore k fun c => c.setStr m { c.str m with hz1 := r.2.1 })
      else if path = 5 then
        let r := acc.2.lateRead k false x.hz p.1 p.2
        (acc.1 ++ r.1, r.2.2)
      else
        let r := acc.2.viewRead k (path != 2) p.1 p.2
        (acc.1 ++ r.1, r.2))
    ([], s)

/-- The view of a command before its push. -/
def EView.none : EView := ⟨[], [], [], [], [], 0, 0, Vector.replicate 8 false⟩
/-- What an engine's command reads through, at its push by core k (R269); its writes are of class `cls`. -/
def State.engView (s : State) (k cls : Nat) : EView × State :=
  let c := s.core k
  let g := s.newAgent cls
  let own := c.comm.foldr (fun e o => o.foldl (fun q x => mset q x.1 x.2) e.1) c.pend
  (⟨own, own.map fun x => (x.1, (c.comm.filter fun e => (mget e.1 x.1).isSome).length + b2n (mget c.pend x.1).isSome),
    (c.seen.filter fun e => e.2.1 != ownMark).map fun e => (e.1, e.2.1), c.clk, c.rfc, s.wseq, g.1, c.r.par⟩, g.2)
/-- The oldest write number at which the command may read a byte, none while the byte is a store of the core made before the
push and not published since (R269). -/
def State.engLow (s : State) (k : Nat) (e : EView) (own : Bool) (a : Nat) : Option Nat :=
  let vs := s.versionsFor k true a
  let mine (n g : Nat) : Bool := n != 0 && decide (g < 512) && g / 4 == k
  if own && (mget e.pend a).isSome then
    ((vs.reverse.filter fun v => v.2.1 == pubAgent k && decide (e.seq < v.1))[mgetD e.due a 1 - 1]?).map fun v => v.1
  else some (max (mgetD e.seen a 0) (lowest (fun n g => e.rfc.knows n g || (own && mine n g && decide (n ≤ e.seq))) vs))
/-- Whether an own store of the push view gives the byte (R269). -/
def State.fromPush (s : State) (k : Nat) (e : EView) (a : Nat) : Bool := (mget e.pend a).isSome && (s.engLow k e true a).isNone
/-- Whether a command's read of memory on a path takes a byte that is uncorrectable: none of those that its push view's pending
stores give (R269, R371). -/
def State.engPois (s : State) (k : Nat) (e : EView) (path a n : Nat) : Bool :=
  (touchGrans a n).any fun g => (mget s.poison g).isSome && (upto (16 * g) 16).any fun b =>
    decide (a ≤ b ∧ b < a + n) && !(path != 2 && path != 5 && s.fromPush k e b)
/-- A read of memory by an engine's command of core k: through the view of its push, or any newer value (R269;
notes/assumptions/3.md); on paths 1 and 5 the newest. -/
def State.engRead (s : State) (k : Nat) (e : EView) (path a n : Nat) : List Byte × State :=
  (granPieces a n).foldl
    (fun acc p =>
      let u := acc.2
      let own := path != 2 && path != 5
      let xs := upto p.1 p.2
      let free := xs.filter fun x => (u.engLow k e own x).isSome
      let low := if path = 1 ∨ path = 5 then u.wseq else (free.map fun x => (u.engLow k e own x).getD 0).foldl max 0
      let d := u.drawTime low (free.map fun x => u.versionsFor k true x)
      let at_ (x : Nat) := versionAt d.1 (u.versionsFor k true x)
      (acc.1 ++ xs.map (fun x => if (u.engLow k e own x).isSome then (at_ x).2.2 else mgetD e.pend x 0),
        d.2.engLearn e (free.map fun x => (at_ x).1).dedup))
    ([], s)

/-- A refresh of a core's view (R265): its reads obey everything that happens before it.  The scope of an acquire limits the
releases it pairs with (R262), and each that Table 1 lets an acquire observe comes from an agent its scope reaches: a gang's
members for BAR, the module's agents for SEMWAIT, TAGTEST and JSTAT; what a read returns happens before it at any scope. -/
def State.refresh (s : State) (k : Nat) : State := s.modCore k fun c => { c with seen := [], rfc := c.rfc.join c.clk }

/-! ### Pending stores (R199, R264) -/

/-- Add stores to the phase's pending stores. -/
def Core.hold_ (c : Core) (cells : List Host.Cell) : Core :=
  { c with pend := cells.foldl (fun p x => mset p x.1 x.2) c.pend
           seen := cells.foldl (fun p x => mdel p x.1) c.seen }
/-- Granules among the pending stores. -/
def pendGrans (p : List Host.Cell) : List Nat := (p.map fun x => x.1 / 16).dedup

/-! ### Scratch and elastic granules (R182 to R184) -/

def SGran.empty : SGran := ⟨0, false, false⟩
/-- The key of a gang, or of a record: card and block index. -/
def gkey (card block : Nat) : Nat := card * 2 ^ 24 + block
def GangSt.init : GangSt := ⟨false, 0, none, 1, 0, Vector.replicate 8 0, Vector.replicate 8 0, [], Vector.replicate 8 []⟩

def State.gran (s : State) (w : Where) (g : Nat) : SGran :=
  match w with
  | .scr k => mgetD (s.core k).scr g SGran.empty
  | .ela c key => mgetD (mgetD (s.ctx c).gangs key GangSt.init).elastic g SGran.empty
def State.setGran (s : State) (w : Where) (g : Nat) (x : SGran) : State :=
  match w with
  | .scr k => s.modCore k fun c => { c with scr := mput SGran.empty c.scr g x }
  | .ela c key => s.modCtx c fun t =>
      let gs := mgetD t.gangs key GangSt.init
      { t with gangs := mset t.gangs key { gs with elastic := mput SGran.empty gs.elastic g x } }

/-- One byte of scratch. -/
def State.granByte (s : State) (w : Where) (o : Nat) : Byte :=
  BitVec.ofNat 8 ((s.gran w (o / 16)).data.toNat / 256 ^ (o % 16))
/-- n bytes of scratch from offset o. -/
def State.granRead (s : State) (w : Where) (o n : Nat) : List Byte := (upto o n).map (s.granByte w)
/-- Whether any granule touched is poisoned. -/
def State.granPois (s : State) (w : Where) (o n : Nat) : Bool := (touchGrans o n).any fun g => (s.gran w g).pois
/-- Whether every granule touched is full. -/
def State.granFull (s : State) (w : Where) (o n : Nat) : Bool := (touchGrans o n).all fun g => (s.gran w g).full

/-- Data with bytes p, p + 1, … replaced. -/
def patchGran (d : Gran) (p : Nat) (bs : List Byte) : Gran :=
  BitVec.ofNat 128 (putBits d.toNat (8 * (p + bs.length) - 1) (8 * p) (ofBytes bs))

/-- A granule's number among all scratch and elastic granules. -/
def Where.key (w : Where) (g : Nat) : Nat :=
  match w with
  | .scr k => 2 ^ 20 * k + g
  | .ela c key => 2 ^ 60 + 2 ^ 27 * (8 * key + c) + g
/-- The bytes o to o + n − 1 of a granule as a mask. -/
def granMask (o n : Nat) : Nat := (2 ^ n - 1) * 2 ^ (o % 16)
/-- A granule with the bytes of a mask taken from another. -/
def mergeGran (old new : Gran) (mask : Nat) : Gran :=
  BitVec.ofNat 128 (ofBytes ((upto 0 16).map fun i =>
    BitVec.ofNat 8 ((if bit mask i then new else old).toNat / 256 ^ i)))
/-- Write the bytes of a mask into granule g, one indivisible write after what `v` holds (R181, R267): `full` sets F, a
whole-granule write clears P (R183).  Its older data stay known to reads performed earlier (R263). -/
def State.granPut (s : State) (v : View) (w : Where) (g : Nat) (data : Gran) (mask : Nat) (full : Bool) : State :=
  let x := s.gran w g
  let n := s.wseq + 1
  ({ s with wseq := n
            ghist := mset s.ghist (w.key g) ((n, mask, x.data) :: mgetD s.ghist (w.key g) [])
            msgs := if v.isEmpty then s.msgs else mset s.msgs n v } : State).setGran
    w g { data := mergeGran x.data data mask, full := x.full || full, pois := x.pois && mask != 65535 }
/-- The same of consecutive bytes inside one granule. -/
def State.granWrite1 (s : State) (v : View) (w : Where) (o : Nat) (bs : List Byte) (full : Bool) : State :=
  if bs.isEmpty then s else s.granPut v w (o / 16) (patchGran 0 (o % 16) bs) (granMask o bs.length) full

/-- A granule's data when t writes had been performed. -/
def pastGran (t : Nat) : List (Nat × Nat × Gran) → Gran → Gran
  | [], x => x
  | (n, _, old) :: r, x => if t < n then pastGran t r old else x
/-- The writes that placed the bytes of a mask, as they stood when t writes had been performed. -/
def granWriters (t : Nat) : List (Nat × Nat × Gran) → Nat → List Nat
  | [], _ => []
  | (n, m, _) :: r, mask =>
    if mask = 0 then []
    else if t < n ∨ Nat.land m mask = 0 then granWriters t r mask
    else n :: granWriters t r (mask - Nat.land m mask)
/-- The writes that placed the newest bytes o to o + n − 1 of a granule. -/
def State.writersOf (s : State) (w : Where) (o n : Nat) : List Nat :=
  granWriters s.wseq (mgetD s.ghist (w.key (o / 16)) []) (granMask o n)
/-- Bytes of one granule read by a stream's plain load, performed at write number `lo` or later: the newest value when it
is performed (R263, R265), with the writes that placed it. -/
def State.granReadFrom (s : State) (lo : Nat) (w : Where) (o n : Nat) : List Byte × List Nat × State :=
  let h := mgetD s.ghist (w.key (o / 16)) []
  let x := (s.gran w (o / 16)).data
  let d : Nat × State :=
    if (h.head?).any fun e => decide (lo < e.1) then (lo + s.draw.1 % (s.wseq - lo + 1), s.draw.2) else (s.wseq, s)
  ((toBytes 16 (pastGran d.1 h x).toNat).drop (o % 16) |>.take n, granWriters d.1 h (granMask o n), d.2)

/-- Write bytes of scratch, granule by granule. -/
def State.granWrite (s : State) (v : View) (w : Where) (o : Nat) (bs : List Byte) (full : Bool) : State :=
  (granPieces o bs.length).foldl (fun t p => t.granWrite1 v w p.1 ((bs.drop (p.1 - o)).take p.2) full) s

/-- Mark granules poisoned (R183). -/
def State.granSetPois (s : State) (w : Where) (gs : List Nat) : State :=
  gs.foldl (fun t g => t.setGran w g { t.gran w g with pois := true }) s
/-- Set or clear F of granules. -/
def State.granSetFull (s : State) (w : Where) (gs : List Nat) (f : Bool) : State :=
  gs.foldl (fun t g => t.setGran w g { t.gran w g with full := f }) s

/-- The queue a held item is for. -/
def Held.queue : Held → Nat
  | .ev _ => 25
  | .elem q _ _ => q
  | _ => 0
/-- Entries of a result or event queue, those in the holding buffer included. -/
def Core.qUsed (c : Core) (q : Nat) : Nat :=
  (match q with
    | 17 => c.q17.length
    | 21 => c.q21.length
    | 23 => c.q23.length
    | _ => c.q25.length) + (c.hbuf.filter fun h => h.queue == q).length
/-- Whether A and V have reached C's position (R84). -/
def Core.aligned (c : Core) : Bool := c.r.a.pos == c.r.c.pos && c.r.v.pos == c.r.c.pos
/-- Whether a walk of the block is incomplete (R335). -/
def Core.walking (c : Core) : Bool := !c.q20.isEmpty || c.wrun.isSome
/-- Whether a checkpoint or the acknowledgement of a revocation falls due at this PHASE (R178, R280, R335, R352). -/
def Core.ckptDue (c : Core) : Bool :=
  !c.walking && (match c.mark with
    | .ckpt => true
    | .ckptAt t _ => decide (t ≤ c.phasecnt)
    | _ => decide (c.res.gsize ≤ 1) && !c.rvks.isEmpty)
/-- Whether a checkpoint or kill of the block is under way, which a debugger's halt lets finish (R360): its phase has ended
and the checkpoint waits, or its last commands complete. -/
def Core.underWay (c : Core) : Bool := c.mark == .dying || (c.r.c.acted && c.aligned && c.ckptDue)
/-- Whether a core's block is halted by the debugger (R360). -/
def State.haltedCore (s : State) (k : Nat) : Bool :=
  ((s.core k).blk.any fun r => (s.ctx r.ctx.val).halted) && !(s.core k).underWay
/-- Whether a halted core's holding buffer of 64 KiB is full (R360). -/
def State.holdFull (s : State) (k : Nat) : Bool := s.haltedCore k && decide (4096 ≤ (s.core k).hbuf.length)
/-- Whether a granule is full, or will be once its core's holding buffer drains (R205, R360). -/
def State.granBusy (s : State) (w : Where) (g : Nat) : Bool :=
  (s.gran w g).full || match w with
    | .scr k => (s.core k).hbuf.any fun h => match h with
      | .gran v n .. => v == w && n == g
      | _ => false
    | .ela _ _ => false
/-- An engine's write of a granule: F set, and P where the data was received poisoned (R183). -/
def State.engPut (s : State) (v : View) (w : Where) (g : Nat) (data : Gran) (mask : Nat) (pois : Bool) : State :=
  let t := s.granPut v w g data mask true
  if pois then t.granSetPois w [g] else t
/-- The same as a command makes it: data bound for a halted core wait for the resume (R360). -/
def State.engGran (s : State) (v : View) (w : Where) (g : Nat) (data : Gran) (mask : Nat) (pois : Bool) : State :=
  match w with
  | .scr k =>
    if s.haltedCore k then s.modCore k fun c => { c with hbuf := c.hbuf ++ [.gran w g data mask pois v] }
    else s.engPut v w g data mask pois
  | .ela _ _ => s.engPut v w g data mask pois

/-- The elastic scratch of a block's gang (R184). -/
def Resident.elastic (r : Resident) : Where := .ela r.ctx.val (gkey r.card r.gang)

/-! ### Physical regions (R166, R186, R420) -/

def onChipBase : Nat := 0x40000000000
def hostBase : Nat := 0x8000000000000
def leaseBase : Nat := 0x20000000000
def lpBase : Nat := 0x10000000000
/-- The leasable channel whose slot holds a physical address (R166). -/
def leaseChannel (a : Nat) : Option Nat :=
  if leaseBase ≤ a ∧ a < leaseBase + 64 * 2 ^ 34 then some ((a - leaseBase) / 2 ^ 34) else none
/-- A core window: logical number (64 × die + core) and offset (R186). -/
def windowOf (a : Nat) : Option (Nat × Nat) :=
  if onChipBase ≤ a ∧ a < onChipBase + 128 * 2 ^ 23 then some ((a - onChipBase) / 2 ^ 23, (a - onChipBase) % 2 ^ 23) else none

end Sys2Proof.Machine
end

