-- ==== Sys2Proof/Machine/Log.lean ====
section
/-!
DEFINITION. Sys2Proof/Machine/Log.lean: the black-box record, interrupt messages, card words and completion entries
(R30, R41, R42, R378, R379, R421).
-/
namespace Sys2Proof.Machine
open Sys2Proof

/-! ### The black-box record (R378) -/

/-- The fields of an event. -/
structure Ev where
  type   : Nat
  code   : Nat
  detail : Nat
  ctx    : Nat
  die    : Nat
  lcore  : Nat
  stream : Nat
  agent  : Nat
  card   : Nat
  block  : Nat
  p0     : Nat
  p1     : Nat
  p2     : Nat
  p3     : Nat
  deriving DecidableEq, Repr

/-- An event of a context that names no core. -/
def Ev.of (type code ctx : Nat) : Ev := ⟨type, code, 0, ctx, 0, 0, 0, 0, 0, 0, 0, 0, 0, 0⟩

/-- The eight words of an event (R378 Table 4). -/
def Ev.words (e : Ev) (time seq : Nat) : List Word :=
  [w64 time,
   w64 (seq % 2 ^ 32 * 2 ^ 32 + e.type * 2 ^ 24 + e.code * 2 ^ 16 + e.detail * 2 ^ 8 + e.ctx * 2 ^ 5),
   w64 (e.die * 2 ^ 63 + e.lcore * 2 ^ 57 + e.stream * 2 ^ 55 + e.agent * 2 ^ 52 + e.card * 2 ^ 40 + e.block * 2 ^ 16),
   w64 e.p0, w64 e.p1, w64 e.p2, w64 e.p3, w64 (seq % 2 ^ 32 * 2 ^ 32)]

/-- Write an event, or count it as lost while the record is frozen (R378, R379). -/
def State.logEv (s : State) (e : Ev) : State :=
  if s.frozen then { s with bblost := min (s.bblost + 1) (2 ^ 32 - 1) }
  else { s with bbring := mset s.bbring (s.bbnext % 4096) (e.words s.rtime s.bbnext)
                bbnext := (s.bbnext + 1) % 2 ^ 32 }

/-- The sticky flags of a core's three streams (R160). -/
def State.flagsOf (s : State) (k : Nat) : Nat :=
  let r := (s.core k).r
  (r.c.tflags ||| r.a.tflags ||| r.v.tflags).toNat
/-- An event about the block of core k. -/
def State.evOf (s : State) (k type code detail : Nat) : Ev :=
  let r := (s.core k).res
  ⟨type, code, detail, r.ctx.val, k / 64, k % 64, 0, 0, r.card, r.block, 0, 0, 0, 0⟩

/-- A fault event about the block of core k: C's position, no address, the flags (R378 Table 5 type 0x01). -/
def State.faultEv (s : State) (k code detail : Nat) : Ev :=
  let p := (s.core k).r.c.pos
  { s.evOf k 0x01 code detail with
    p0 := p.line % 2 ^ 24 * 2 ^ 40 + p.lane * 2 ^ 37 + p.lseq % 2 ^ 37, p2 := s.flagsOf k }

/-! ### Interrupts (R41) -/

/-- A vector's message: its number, address and data (R41). -/
def State.msixMsg (s : State) (v : Nat) : Nat × Nat × Nat :=
  (v, (mgetD s.msixTab (2 * v) 0).toNat, bits (mgetD s.msixTab (2 * v + 1) 0).toNat 31 0)
/-- Send a vector's message, or record it pending while the vector is masked.  MSI-X stands enabled, without a function mask: a
DESIGN CHOICE (notes/assumptions/10.md). -/
def State.sendVec (s : State) (v : Nat) : State :=
  if s.msixMask.getLsbD v then { s with msixPend := s.msixPend ||| BitVec.ofNat 17 (2 ^ v) }
  else { s with msixSent := s.msixSent ++ [s.msixMsg v] }
/-- A cause of context c: bit 0 NOTIFY, 1 STOP, 2 HALT. -/
def State.raiseCtx (s : State) (c n : Nat) : State :=
  if (s.ctx c).cint.getLsbD n then s
  else (s.modCtx c fun t => { t with cint := t.cint ||| BitVec.ofNat 3 (2 ^ n) }).sendVec (2 * c + if n = 0 then 0 else 1)
/-- A cause of the module: bit 0 request response, 1 recovery report, 2 attestation, 3 record frozen. -/
def State.raiseMod (s : State) (n : Nat) : State :=
  if s.mint.getLsbD n then s
  else ({ s with mint := s.mint ||| BitVec.ofNat 4 (2 ^ n) } : State).sendVec 16

/-- Freeze the black-box record (R348, R379). -/
def State.freeze (s : State) : State := if s.frozen then s else ({ s with frozen := true } : State).raiseMod 3

/-! ### Card words (R28, R30) -/

/-- Word w of card n. -/
def Ctx.cw (t : Ctx) (n w : Nat) : Nat := (mgetD t.cards (32 * n + w) 0).toNat
def Ctx.setCw (t : Ctx) (n w v : Nat) : Ctx := { t with cards := mput 0 t.cards (32 * n + w) (w64 v) }
/-- Bits hi : lo of word w of card n. -/
def Ctx.cf (t : Ctx) (n w hi lo : Nat) : Nat := bits (t.cw n w) hi lo
def Ctx.setCf (t : Ctx) (n w hi lo v : Nat) : Ctx := t.setCw n w (putBits (t.cw n w) hi lo v)
/-- Add to a field, saturating (R396). -/
def Ctx.addCf (t : Ctx) (n w hi lo v : Nat) : Ctx :=
  t.setCf n w hi lo (min (t.cf n w hi lo + v) (2 ^ (hi + 1 - lo) - 1))

/-- STATE (R29): 0 FREE, 1 IDLE, 2 ARMED, 3 RUNNING, 4 DONE, 5 FAILED. -/
def Ctx.cstate (t : Ctx) (n : Nat) : Nat := t.cf n 0 31 28
def Ctx.cserial (t : Ctx) (n : Nat) : Nat := t.cf n 0 63 32

/-! ### Completion entries (R42) -/

/-- Entries in the ring. -/
def Ctx.cqlen (t : Ctx) : Nat := 2 ^ t.cqsize
def Ctx.cqfull (t : Ctx) : Bool := (t.cqtail + 1) % t.cqlen == t.cqhead % t.cqlen

/-- Whether the host rejects the write of an entry: its driver's mapping, which the manual leaves open, a free value (R40;
notes/assumptions/18.md). -/
def State.hostRejects (s : State) : Bool × State := (s.draw.1 % 2 == 1, s.draw.2)
/-- The event of an entry that is not written: 0 for want of room, 1 because the host rejected it (R421). -/
def State.logLost (s : State) (c : Nat) (w0 w1 : Word) (why : Nat) : State :=
  s.logEv { Ev.of 0x04 0 c with card := bits w1.toNat 47 36, block := bits w1.toNat 23 0, p0 := 3, p1 := bits w1.toNat 47 36,
                                p2 := w0.toNat % 2 ^ 32, p3 := why }
/-- Write an entry at CQTAIL, and raise its interrupt after it; an entry that the host rejects is dropped and logged
(R40, R42). -/
def State.cqWrite (s : State) (c : Nat) (w0 w1 : Word) (irq : Bool) : State :=
  let t := s.ctx c
  let a := hostBase + (t.cqbase.toNat / 4096 * 4096 + 16 * t.cqtail) % 2 ^ 51
  let v := putBits w1.toNat 63 63 (b2n t.cqphase)
  let nt := (t.cqtail + 1) % t.cqlen
  let d := s.hostRejects
  let s1 := if d.1 then d.2.logLost c w0 w1 1
    else d.2.loneWrite moduleClass (cellsAt a (toBytes 8 w0.toNat ++ toBytes 8 v))
  let s2 := s1.modCtx c fun t => { t with cqtail := nt, cqphase := if nt = 0 then !t.cqphase else t.cqphase }
  if irq then s2.raiseCtx c 0 else s2

/-- Write held entries while there is room (R42). -/
def State.cqDrain : Nat → State → Nat → State
  | 0, s, _ => s
  | n + 1, s, c =>
    let t := s.ctx c
    match t.cqheld with
    | [] => s
    | e :: r => if t.cqfull then s else ((s.cqWrite c e.1 e.2.1 e.2.2).modCtx c fun t => { t with cqheld := r }).cqDrain n c

/-- Give an entry to the ring: written, held with its interrupt, or lost and counted, when its interrupt is raised all
the same (R42). -/
def State.cqPut (s : State) (c : Nat) (w0 w1 : Word) (irq : Bool) : State :=
  let t := s.ctx c
  if t.cqheld.isEmpty && !t.cqfull then s.cqWrite c w0 w1 irq
  else if t.cqheld.length < 64 then s.modCtx c fun t => { t with cqheld := t.cqheld ++ [(w0, w1, irq)] }
  else
    let s1 := (s.modCtx c fun t => { t with cqlost := min (t.cqlost + 1) (2 ^ 32 - 1), lostBit := true }).logLost c w0 w1 0
    if irq then s1.raiseCtx c 0 else s1

/-- The two words of an entry, without its phase bit (R42 Table 6). -/
def cqWords (utag serial cstatus card fcode fblock : Nat) : Word × Word :=
  (w64 (utag * 2 ^ 32 + serial), w64 (cstatus * 2 ^ 48 + card * 2 ^ 36 + fcode * 2 ^ 24 + fblock))

end Sys2Proof.Machine
end

