-- ==== Sys2Proof/Machine/Jobs.lean ====
section
/-!
DEFINITION. Sys2Proof/Machine/Jobs.lean: continuation records, ready queues, tags, how a block leaves its core, and how a
job completes or fails (R35, R44 to R64, R348, R352, R392 to R396).
-/
namespace Sys2Proof.Machine
open Sys2Proof

/-! ### Records and ready queues -/

/-- Bits 41:10 of reference time (R35). -/
def State.enqt (s : State) : BitVec 32 := BitVec.ofNat 32 (s.rtime / 1024)

def State.appendReady (s : State) (lvl : Nat) (e : REntry) : State :=
  let i : Fin 64 := Fin.ofNat 64 lvl
  { s with ready := s.ready.set i (s.ready[i] ++ [e]) }

/-- Record keys of one gang. -/
def Ctx.gangRecs (t : Ctx) (card gang : Nat) : List (Nat × Rec) :=
  t.recs.filter fun e => e.2.card == card && e.2.gang == gang

/-- Whether an entry that names a record is queued. -/
def State.queued (s : State) (c card block : Nat) : Bool :=
  s.ready.toList.any fun q => q.any fun e => e.ctx.val == c && e.card == card && e.blocks.contains block

/-- A record whose join counter is 0 joins the queue of its level; a gang joins as one entry when its last member does
(R63, R64). -/
def State.enqueue (s : State) (c key : Nat) : State :=
  match mget (s.ctx c).recs key with
  | none => s
  | some r =>
    let ms := (s.ctx c).gangRecs r.card r.gang
    let go (es : List (Nat × Rec)) (gang : Bool) : State :=
      (s.modCtx c fun t =>
        { t with recs := es.foldl (fun q m => mset q m.1 { m.2 with enqt := s.enqt }) t.recs }).appendReady r.prio
        ⟨Fin.ofNat 8 c, r.card, es.map fun m => m.2.block, gang⟩
    if r.join ≠ 0 ∨ r.core.isSome ∨ s.queued c r.card r.block then s
    else if ms.length ≤ 1 && (mgetD (s.ctx c).gangs (gkey r.card r.gang) GangSt.init).size ≤ 1 then go [(key, r)] false
    else if ms.all fun m => m.2.join == 0 && m.2.core.isNone then go (sortBy (fun a b => a.2.rank ≤ b.2.rank) ms) true
    else s
/-- Several records join at one point: in ascending card index and linear block index, a gang in the place of its rank-0
member (R63). -/
def State.enqueueAll (s : State) (c : Nat) (keys : List Nat) : State :=
  let place (k : Nat) : Nat := (mget (s.ctx c).recs k).elim k fun r => gkey r.card r.gang
  (sortBy (fun a b => place a ≤ place b) keys).foldl (fun t k => t.enqueue c k) s

/-- Decrement the join counters of the records that links point to, which learn what the input releases, and queue those
that reach 0, in ascending card and block order (R52, R54, R63). -/
def State.decJoins (s : State) (c : Nat) (ls : List Link) (v : View) : State :=
  let hit := (s.ctx c).recs.filterMap fun e =>
    let k := (ls.filter fun l => l.card == e.2.card && l.block == e.2.block).length
    if k = 0 then none else some (e.1, { e.2 with join := e.2.join - k, view := e.2.view.join v })
  let s1 := s.modCtx c fun t => { t with recs := hit.foldl (fun q e => mset q e.1 e.2) t.recs }
  s1.enqueueAll c ((hit.filter fun e => e.2.join == 0).map fun e => e.1)

/-- Entries of one card leave every ready queue, its reservations end (R67). -/
def State.dropReady (s : State) (c n : Nat) : State :=
  { s with
    ready := s.ready.map fun q => q.filter fun e => !(e.ctx.val == c && e.card == n)
    resv := s.resv.filter fun r => !(r.2.1 == c && r.2.2.1 == n) }

/-! ### Tags (R45 to R60) -/

/-- Links that hang on tile entry e. -/
def State.linksOf (s : State) (e : Nat) : List Link := s.links.filter fun l => l.tag == some e
/-- A card's waiter count (R50). -/
def State.waiters (s : State) (c n : Nat) : Nat := (s.links.filter fun l => l.ctx.val == c && l.prod == n).length
/-- Entries allocated to a card's arm (R30, R47). -/
def State.tagRun (s : State) (c n : Nat) : List Nat :=
  upto ((s.ctx c).cf n 16 63 47) ((s.ctx c).cf n 16 46 27)

/-- A tile becomes READY by a publication: its linked records are decremented, its links freed (R52). -/
def State.tagReady (s : State) (e : Nat) (v : View) : State :=
  match mget s.tags e with
  | none => s
  | some t =>
    if t.state = .ready then s
    else
      let ls := s.linksOf e
      ({ s with tags := mset s.tags e { t with state := .ready, view := v }
                links := s.links.filter fun l => !(l.tag == some e) } : State).decJoins t.ctx.val ls v

/-- A tile becomes VOID and the black-box record logs it with the producer's block, 0 where the job fails as a whole (R48,
R421). -/
def State.tagVoid (s : State) (e block : Nat) : State :=
  match mget s.tags e with
  | none => s
  | some t =>
    if t.state = .ready ∨ t.state = .void then s
    else
      ({ s with tags := mset s.tags e { t with state := .void } } : State).logEv
        { Ev.of 0x04 0 t.ctx.val with card := t.card, block := block, p0 := 1, p1 := e, p2 := t.tile + t.slot * 2 ^ 17,
                                      p3 := t.card + t.gen.toNat * 2 ^ 32 }

/-- The state a tile takes when its phase is cancelled (R48). -/
def State.tagUnpend (s : State) (e : Nat) : State :=
  match mget s.tags e with
  | some t => if t.state = .pending then { s with tags := mset s.tags e { t with state := .empty } } else s
  | none => s

/-- A card's entries return to ALLOC 0 (R47). -/
def State.tagFree (s : State) (c n : Nat) : State :=
  { s with tags := (s.tagRun c n).foldl (fun m e => mdel m e) s.tags }

/-- First entry of a slot's grid in a card's run: the sizes of the grids of lower slots (R47); grid sizes by R23. -/
def gridSize (w : Nat) : Nat :=
  bits w 61 46 * (if 2 ≤ bits w 63 62 then bits w 45 30 else 1) * (if bits w 63 62 = 3 then bits w 29 14 else 1)
def slotBase (hdr : List Word) (slot : Nat) : Nat := ((upto 0 slot).map fun n => gridSize (wd hdr (48 + n))).sum

/-! ### How a block leaves its core (R392, R394, R396) -/

/-- The registers of a stream that no rule clears when its block leaves (R392, R417). -/
def Stream.kept (x : Stream) : Stream :=
  { Stream.init with s := x.s, p := x.p, lc := x.lc, llim := x.llim, tflags := x.tflags }
def Regs.kept (r : Regs) : Regs := { Regs.init with c := r.c.kept, a := r.a.kept, v := r.v.kept, vr := r.vr }
/-- A cleaned core (R392, R394): the registers that outlive a block stay. -/
def Core.leave (c : Core) : Core :=
  { Core.init with
    r := c.r.kept
    clk := c.clk
    rfc := c.rfc
    phys := c.phys
    inServ := c.inServ
    cycle := c.cycle
    lastCtx := (c.blk.map fun r => r.ctx) <|> c.lastCtx
    heldFor := c.heldFor }

/-- Add a residence's figures to the card's statistics words (R396). -/
def State.addStats (s : State) (k : Nat) : State :=
  let c := s.core k
  let r := c.res
  s.modCtx r.ctx.val fun t =>
    ((((t.setCw r.card 26 (min (t.cw r.card 26 + (c.cycle - r.cyc0)) (2 ^ 64 - 1))).addCf r.card 27 31 16 c.nCancel).addCf
      r.card 28 63 32 c.nPhases).addCf r.card 28 31 0 c.nTiles).setCw r.card 29
        (min (t.cw r.card 29 + c.nGrans) (2 ^ 64 - 1)) |>.addCf r.card 30 63 32 c.nCmds

/-- One arrival, or one member fewer: the barrier completes when the count equals the members not yet retired. -/
def GangSt.complete (g : GangSt) (n : Fin 8) : GangSt :=
  if g.size ≤ g.cnt[n] + g.retired then
    { g with cnt := g.cnt.set n 0, gen := g.gen.set n ((g.gen[n] + 1) % 65536) }
  else g
def GangSt.arrive (g : GangSt) (n : Fin 8) : GangSt := ({ g with cnt := g.cnt.set n (g.cnt[n] + 1) } : GangSt).complete n

/-- Free elastic grant and barriers of a gang when its last unretired member leaves for good, else count it (R392). -/
def State.gangLeave (s : State) (c card gang : Nat) : State :=
  s.modCtx c fun t =>
    let key := gkey card gang
    let g := mgetD t.gangs key GangSt.init
    if g.size ≤ g.retired + 1 then { t with gangs := mdel t.gangs key }
    else
      let h := (List.finRange 8).foldl GangSt.complete { g with retired := g.retired + 1 }
      { t with gangs := mset t.gangs key h }

/-- Whether a running command of a committed phase, or a publication that a pin holds back, keeps a killed block's core
busy (R264, R352). -/
def Core.finishing (c : Core) : Bool :=
  !c.comm.isEmpty || c.mx.isSome || c.crun.toList.any Option.isSome || c.prun.isSome || c.srun.isSome || !c.sprun.isEmpty

/-- Whether a near-memory run of core k's block has still to complete (R328). -/
def State.nmBusy (s : State) (k : Nat) : Bool := s.runs.any fun r => r.2.core == some k && !r.2.done

/-- Whether a command's phase has committed, at a PHASE or early (R264). -/
def Core.committed (c : Core) (ph : Nat) : Bool := c.early || decide (ph < c.ph)
/-- Discard a block's current phase as a kill does (R271, R352): only what is committed and not yet performed (nothing while its
PHASE or a KEND still waits: R264), running
outbound and engine commands of committed phases go on, and running commands of the package engines (R307, R328). -/
def Core.cutDown (c : Core) : Core :=
  { c.leave with
    blk := c.blk
    r := Regs.init
    ph := c.ph
    scr := c.scr
    acc := c.acc
    ring := c.ring
    mark := .dying
    rvks := c.rvks
    lastCtx := c.lastCtx
    early := c.early
    comm := if c.early then c.comm else []
    mx := if c.mx.any fun m => c.committed m.cmd.ph then c.mx else none
    crun := c.crun.map fun r => if r.any fun x => x.cmd.outb && c.committed x.cmd.ph then r else none
    prun := c.prun
    srun := c.srun
    sprun := c.sprun }

/-- The acknowledgements of the revocations that have reached core k (R178, R378). -/
def State.ackRvks (s : State) (k : Nat) : State :=
  (s.core k).rvks.foldl (fun t x => t.logEv { t.evOf k 0x03 0 0 with p0 := x.ext, p1 := (s.core k).phasecnt, p2 := 1 }) s

/-- A killed, failed or stopped block leaves its core, at once or when its finishing commands have (R352). -/
def State.vacate (s : State) (k : Nat) : State :=
  let busy := (s.core k).cutDown.finishing || s.nmBusy k
  let gone := (s.core k).nmseq.map fun e => e.2
  let t : State := { s with runs := s.runs.filter fun r => !(gone.contains r.1 && r.2.done) }
  if busy then t.modCore k Core.cutDown else (t.ackRvks k).modCore k Core.leave

/-- A dying core whose last command has completed becomes idle. -/
def State.settle (s : State) (k : Nat) : State :=
  let c := s.core k
  if c.mark = .dying && !c.finishing && !s.nmBusy k then (s.ackRvks k).setCore k c.leave else s

/-- Cores that run a block of a context that a test selects, in ascending order. -/
def State.coresOf (s : State) (c : Nat) (p : Resident → Bool) : List Nat :=
  s.cores.filterMap fun e => if e.2.mark != .dying && e.2.blk.any fun r => r.ctx.val == c && p r then some e.1 else none

/-- Log the fault code of a block's departure (R352, R378). -/
def State.logBlock (s : State) (k code : Nat) : State := s.logEv (s.faultEv k code 0)

/-- The tag entry of a tile of core k's job, when its arm is tagged (R47, R52). -/
def State.tileEntry (s : State) (k slot tile : Nat) : Option Nat :=
  let r := (s.core k).res
  let t := s.ctx r.ctx.val
  if t.cf r.card 16 46 27 = 0 then none else some (t.cf r.card 16 63 47 + slotBase r.hdr slot + tile)
/-- A TAGPUB.P reaches a tile (R48). -/
def State.tagPend (s : State) (e : Nat) : State :=
  match mget s.tags e with
  | some x =>
    if x.state = .empty ∨ x.state = .void then { s with tags := mset s.tags e { x with state := .pending } } else s
  | none => s
/-- A tile of core k's block becomes READY by its own publication, and is counted (R52, R396). -/
def State.publishTile (s : State) (k : Nat) (v : View) (e : Nat) : State :=
  if (mget s.tags e).any fun x => x.state != .ready then
    (s.tagReady e v).modCore k fun c => { c with nTiles := c.nTiles + 1 }
  else s
/-- The publication of a phase that has ended: the tile is READY unless it has left PENDING meanwhile (R48;
notes/assumptions/47.md). -/
def State.publishPending (s : State) (k : Nat) (v : View) (e : Nat) : State :=
  if (mget s.tags e).any fun x => x.state == .pending then s.publishTile k v e else s
/-- The publications of core k's ended phases stand whatever becomes of the block (R56): what its phases have sent and Campion
has still to take is applied in its order, a TAGPUB.P of an ended phase and what that phase's PHASE sent for it. -/
def State.sendPending (s : State) (k : Nat) : State :=
  let c := s.core k
  c.q24.foldl (fun t q =>
    match q with
    | .pending slot tile ph => if ph = c.ph then t else (t.tileEntry k slot tile).elim t t.tagPend
    | .ready slot tile v => (t.tileEntry k slot tile).elim t (t.publishPending k v)
    | _ => t) s
/-- A kill makes the tiles of core k's phase VOID (R48, R56): those that are PENDING, and those whose publication has still to
reach Campion, since the kill comes first (R61). -/
def State.voidPending (s : State) (k : Nat) : State :=
  let c := s.core k
  let void (t : State) (e : Nat) : State := t.tagVoid e c.res.block
  let s1 := c.pubs.foldl (fun t p => (t.tileEntry k p.1 p.2).elim t fun e =>
    if (mget t.tags e).any fun x => x.state == .pending then void t e else t) s
  c.q24.foldl (fun t q =>
    match q with
    | .pub slot tile _ => (t.tileEntry k slot tile).elim t (void t)
    | .pending slot tile ph => if ph = c.ph then (t.tileEntry k slot tile).elim t (void t) else t
    | _ => t) s1

/-- Kill the block of core k: requeued with RERUN (R352); KILLS counts the kills by pre-emption and escalation, `counts`
(R396). -/
def State.killBlock (s : State) (k code : Nat) (counts : Bool) : State :=
  let r := (s.core k).res
  let key := gkey r.card r.block
  let s1 := ((s.sendPending k).addStats k).modCtx r.ctx.val fun t => if counts then t.addCf r.card 27 63 48 1 else t
  let s3 := (s1.voidPending k).logBlock k code
  let s4 := s3.modCtx r.ctx.val fun t =>
    { t with
      recs := match mget t.recs key with
        | some x => mset t.recs key { x with core := none, rerun := true, ckpt := none, escal := if code = 0x43 then x.escal else 0 }
        | none => t.recs
      gangs :=
        let g := mgetD t.gangs (gkey r.card r.gang) GangSt.init
        mset t.gangs (gkey r.card r.gang)
          { g with placed := false, elastic := [], cnt := Vector.replicate 8 0, gen := Vector.replicate 8 0,
                   bview := Vector.replicate 8 [] } }
  (s4.vacate k).enqueue r.ctx.val key

/-- Kill a block and every resident member of its gang (R185). -/
def State.killGang (s : State) (k code : Nat) (counts : Bool) : State :=
  let r := (s.core k).res
  (s.coresOf r.ctx.val fun x => x.card == r.card && x.gang == r.gang).foldl (fun t j => t.killBlock j code counts) s

/-! ### How a job ends -/

/-- The completion entry of a job that has ended, and its interrupt (R42), by its snapshot. -/
def State.endEntry (s : State) (c n : Nat) (snap : List Word) : State :=
  let t := s.ctx c
  let e := cqWords (bits (wd snap 7) 63 32) (t.cserial n) (t.cf n 23 55 48) n (t.cf n 23 63 56) (t.cf n 23 47 24)
  if bit (wd snap 0) 8 then s.cqPut c e.1 e.2 (bit (wd snap 0) 9) else s

/-- Loop nodes that wait on card n; a target of 0xFFF names no card (R38). -/
def State.wakeNodes (s : State) (c n : Nat) : State :=
  let t := s.ctx c
  { s with reev := s.reev ++ (t.jobs.filterMap fun j =>
      if bits (wd j.2.snap 0) 27 25 = 2 && t.cstate j.1 == 3 && bits (wd j.2.snap 20) 63 52 == n && n != 0xFFF then
        some (Fin.ofNat 8 c, j.1) else none) }

/-- A job completes (R393): tiles published, whole inputs satisfied, entries freed, DONE, entry, interrupt. -/
def State.jobDone (s : State) (c n : Nat) : State :=
  let snap := (mget (s.ctx c).jobs n).elim [] fun j => j.snap
  let v := (mget (s.ctx c).jobs n).elim [] fun j => j.dview
  let ls := s.links.filter fun l => l.ctx.val == c && l.prod == n
  let s1 := ({ s with links := s.links.filter fun l => !(l.ctx.val == c && l.prod == n) } : State).decJoins c ls v
  let s2 := (s1.tagFree c n).modCtx c fun t =>
    { ((t.setCw n 25 s.rtime).setCf n 23 55 48 0).setCf n 0 31 28 4 with
      jobs := mdel t.jobs n
      dviews := mset t.dviews n v
      wdcnt := 0 }
  (s2.wakeNodes c n).endEntry c n snap

/-- Words of a card that fails (R30, R43). -/
def Ctx.failCard (t : Ctx) (n cstatus fcode fblock time : Nat) : Ctx :=
  ((((t.setCf n 23 63 56 fcode).setCf n 23 55 48 cstatus).setCf n 23 47 24 fblock).setCw n 25 time).setCf n 0 31 28 5

/-- One job ends FAILED: its running blocks stop, its records, links and tags go (R44, R50, R57, R348).
`log`: its tiles enter VOID. -/
def State.failOne (s : State) (c n cstatus fcode fblock : Nat) (tiles : Bool) : State :=
  let snap := (mget (s.ctx c).jobs n).elim [] fun j => j.snap
  let ks := s.coresOf c fun r => r.card == n
  let s1 := ks.foldl (fun t k => ((t.sendPending k).addStats k).vacate k) s
  let s2 := if tiles then (s1.tagRun c n).foldl (fun t e => t.tagVoid e 0) s1 else s1
  let s3 := (s2.tagFree c n).dropReady c n
  let runs := s3.runs.filter fun r => !(r.2.ctx.val == c && r.2.card == some n)
  let s4 : State := { s3 with links := s3.links.filter fun l => !(l.ctx.val == c && l.card == n)
                              runs := runs
                              unitQ := s3.unitQ.map fun q => (q.1, q.2.filter fun m => (mget runs m).isSome) }
  let s5 := s4.modCtx c fun t =>
    { t.failCard n cstatus fcode fblock s.rtime with
      jobs := mdel t.jobs n
      recs := t.recs.filter fun e => e.2.card != n
      cks := t.recs.foldl (fun q e => if e.2.card = n then e.2.ckpt.elim q (mdel q) else q) t.cks
      gangs := t.gangs.filter fun g => g.1 / 2 ^ 24 != n }
  (s5.wakeNodes c n).endEntry c n snap

/-- Consumers linked to failed cards: each card once, ascending, with its first linked block (R57). -/
def State.voidConsumers (s : State) (c : Nat) (failed : List Nat) : List (Nat × Nat) :=
  (s.links.filter fun l => l.ctx.val == c && failed.contains l.prod && !failed.contains l.card).foldl
    (fun m l => match mget m l.card with
      | some b => mset m l.card (min b l.block)
      | none => mset m l.card l.block) []

/-- Fail the consumers of failed cards, level by level (R57). -/
def State.failLevels : Nat → State → Nat → List Nat → State
  | 0, s, _, _ => s
  | f + 1, s, c, failed =>
    match s.voidConsumers c failed with
    | [] => s
    | cs =>
      let s1 := { s with links := s.links.filter fun l => !(l.ctx.val == c && failed.contains l.prod) }
      (cs.foldl (fun (t : State) x => t.failOne c x.1 0x20 0x64 x.2 true) s1).failLevels f c (cs.map fun x => x.1)

/-- A job fails, and its consumers with it (R44, R57, R348). -/
def State.jobFail (s : State) (c n cstatus fcode fblock : Nat) : State :=
  (s.failOne c n cstatus fcode fblock true).failLevels 4096 c [n]

end Sys2Proof.Machine
end

