-- ==== Sys2Proof/Machine/Ops.lean ====
section
/-!
DEFINITION. Sys2Proof/Machine/Ops.lean: the faults of the device as shared operations (a context stops, a block fails, a
trigger cancels a phase or escalates; R347 to R349, R363 to R369, R372, R375), early commits (R264), and how a form issues
(R81, R86).
-/
namespace Sys2Proof.Machine
open Sys2Proof

/-! ### Early commit (R264) -/

/-- Perform the oldest committed publication of core k as one whole, unless a pin holds one of its rows back: its ways
lose VALID first (R264, R267, R303). -/
def State.performComm (s : State) (k : Nat) : State :=
  match (s.core k).comm with
  | [] => s
  | e :: r =>
    let as := e.1.map fun c => c.1
    if s.rowsPinned as then s.clearRows as
    else
      let t := s.memWrite (pubAgent k) e.2 e.1
      t.modCore k fun c => ({ c with comm := r, clk := c.clk.put (pubAgent k) t.wseq } : Core).seenPublished t.wseq e.1
/-- Perform as many committed publications of core k as pins allow, at most n, in their order. -/
def State.flushComm : Nat → State → Nat → State
  | 0, s, _ => s
  | n + 1, s, k => (s.performComm k).flushComm n k
/-- Perform what core k has committed, as far as pins allow. -/
def State.settleComm (s : State) (k : Nat) : State := s.flushComm (s.core k).comm.length k
/-- The stores of core k that a test selects are committed (R264): they leave the store buffer as one publication, which
follows what happens before it. -/
def Core.commitStores (p : Nat → Bool) (c : Core) : Core :=
  let go := c.pend.filter fun x => p x.1
  if go.isEmpty then c
  else { c with comm := c.comm ++ [(go, c.clk)], pend := c.pend.filter fun x => !p x.1, nGrans := c.nGrans + (pendGrans go).length }
/-- Publish the pending stores of core k (R264): one publication, performed at once unless a pin holds it back (R303). -/
def State.publish (s : State) (k : Nat) : State := (s.modCore k (Core.commitStores fun _ => true)).settleComm k
/-- Whether everything core k has committed is performed. -/
def Core.commDone (c : Core) : Bool := c.comm.isEmpty

/-- F and P of every granule, for a phase record (R367). -/
def fpOf (m : Map SGran) : Map (Bool × Bool) :=
  m.filterMap fun e => if e.2.full || e.2.pois then some (e.1, e.2.full, e.2.pois) else none

/-- The phase of core k commits early: publication, rings' freed slots stand, snapshots drop, F and P are copied
(R258, R264, R367). -/
def Core.commitPhase (efp : Map (Bool × Bool)) (c : Core) : Core :=
  { c with
    early := true
    ring := c.ring.map fun r => { r with thead := r.head }
    snaps := []
    prec := { c.prec with fp := fpOf c.scr, efp := efp } }
/-- F and P of the elastic granules of core k's gang, for a phase record (R367). -/
def State.efpOf (s : State) (k : Nat) : Map (Bool × Bool) :=
  let r := (s.core k).res
  fpOf (mgetD (s.ctx r.ctx.val).gangs (gkey r.card r.gang) GangSt.init).elastic
def State.earlyCommit (s : State) (k : Nat) : State := (s.publish k).modCore k (Core.commitPhase (s.efpOf k))

/-! ### A context stops (R348, R349) -/

/-- The four words of the context error record (R349). -/
structure CtxErr where
  code   : Nat
  detail : Nat
  stream : Nat
  core   : Nat
  card   : Nat
  agent  : Nat
  block  : Nat
  line   : Nat
  lane   : Nat
  lseq   : Nat
  aux    : Nat
  deriving DecidableEq, Repr

def CtxErr.words (e : CtxErr) (time : Nat) : List Word :=
  [w64 (e.code * 2 ^ 56 + e.detail * 2 ^ 48 + e.stream * 2 ^ 46 + e.core / 64 % 2 * 2 ^ 45 + e.core % 64 * 2 ^ 39 +
        e.card * 2 ^ 27 + e.agent * 2 ^ 24 + e.block),
   w64 (e.line * 2 ^ 40 + e.lane * 2 ^ 37 + e.lseq % 2 ^ 37), w64 time, w64 e.aux]

/-- Groups of a context in which a collective is running (R344). -/
def State.liveGroups (s : State) (c : Nat) : List Nat :=
  ((s.cores.flatMap fun e => e.2.sprun.filterMap fun x =>
    if x.ctx.val = c ∧ !x.done ∧ x.cmd.form < 3 then some x.grp.val else none).dedup)
/-- A group takes a new attempt number: running collectives of an older one complete superseded, and sequence numbers
restart (R344). -/
def State.adoptAtt (s : State) (c g : Nat) (att : BitVec 16) : State :=
  ({ s with
    cores := s.cores.map fun e => (e.1, { e.2 with sprun := e.2.sprun.map fun x =>
      if x.ctx.val = c ∧ x.grp.val = g ∧ x.cmd.form < 3 ∧ !x.done ∧ x.att != att then
        { x with status := 0x56, info := 0, done := true, outq := [] } else x })
    tx := s.tx.filter fun e => !(e.2.pkt.ctx.val == c && e.2.pkt.grp.val == g && e.2.pkt.att != att &&
      (match e.2.pkt.body with
       | .put .. => false
       | _ => true)) } : State).modCtx c fun t =>
    match mget t.groups g with
    | some x => { t with groups := mset t.groups g { x with att := att, cseq := 0 } }
    | none => t
/-- Whether a device number names a reachable device (R338). -/
def State.reachable (s : State) (dev : Nat) : Bool := bit (wd (mgetD s.peers dev []) 0) 63
/-- The ports in service (R336, R403). -/
def State.portsUp (s : State) : List Nat := (upto 0 8).filter fun n => bits s.portstat.toNat (15 - 2 * n) (14 - 2 * n) != 3
/-- Hand a packet to the ports: it is sprayed over those in service, which one the manual leaves open (R336); one for a
device that the peer table does not name goes nowhere (R338). -/
def State.toPort (s : State) (dev : Nat) (p : Packet) : State :=
  if s.portsUp.isEmpty || !s.reachable dev then s
  else
    let d := s.draw
    { d.2 with txlog := d.2.txlog ++ [(dev, { p with port := Fin.ofNat 8 (s.portsUp.getD (d.1 % s.portsUp.length) 0) })] }
/-- Send a packet that its receiver acknowledges (R336). -/
def State.sendTx (s : State) (own : Option (Nat × Nat)) (rank dev : Nat) (p : Packet) : State :=
  let q := { p with id := s.nextTx }
  ({ s with tx := mset s.tx s.nextTx ⟨own, rank, dev, 0, s.rtime, q⟩, nextTx := s.nextTx + 1 } : State).toPort dev q
/-- The abort of a group: its attempt number rises and every other rank is sent a token (R344). -/
def State.abortGroup (s : State) (c g : Nat) : State :=
  match mget (s.ctx c).groups g with
  | none => s
  | some x =>
    let att := x.att + 1
    let p : Packet := ⟨0, Fin.ofNat 8 c, Fin.ofNat 64 g, att, 0, x.rank, 0, 0, 1, .token⟩
    (x.devs.zip (upto 0 x.nrank)).foldl
      (fun (t : State) d => if d.2 = x.rank ∨ !t.reachable d.1 then t else t.sendTx none d.2 d.1 p) (s.adoptAtt c g att)

/-- The first fatal error of a context fills its error record (R349). -/
def Ctx.fillErr (t : Ctx) (w : List Word) : Ctx := if wd t.err 0 = 0 then { t with err := w } else t
/-- Steps 1 to 5 of a stop of context c (R348): cores stop, what they have committed early is performed and no other store
is (R264), commands drop, jobs end in ascending card index, the error
record is written and the black-box record frozen, the host is told.  `card` is the job whose agent raised the error,
`fcode` its code and `fblock` its block. -/
def State.stopWork (s : State) (c : Nat) (card : Option Nat) (fcode fblock : Nat) (w : List Word) : State :=
  let live := s.coresOf c fun _ => true
  let mine := s.cores.filterMap fun x => if x.2.blk.any fun r => r.ctx.val == c then some x.1 else none
  let a := live.foldl State.addStats ((s.liveGroups c).foldl (fun (t : State) g => t.abortGroup c g) s)
  let s0 := (mine.filter fun k => (a.core k).early).foldl State.settleComm ({ a with ways := a.ways.filter fun w => w.2.ctx.val != c } : State).rowRelease
  let s1 : State := { s0 with
    cores := s0.cores.map fun x => if x.2.blk.any fun r => r.ctx.val == c then (x.1, x.2.leave) else x
    runs := s0.runs.filter fun r => r.2.ctx.val != c
    unitQ := s0.unitQ.map fun q => (q.1, q.2.filter fun n => (mget s0.runs n).any fun r => r.ctx.val != c)
    arms := s0.arms.filter fun a => a.1.val != c
    resv := s0.resv.filter fun r => r.2.1 != c
    leases := s0.leases.map fun l => if l.2.ctx.val = c then (l.1, { l.2 with lapsed := true }) else l
    tx := s0.tx.filter fun e => e.2.pkt.ctx.val != c || e.2.own.isNone
    rxhold := s0.rxhold.filter fun p => p.ctx.val != c }
  let s2 := s1.modCtx c fun t => { t.fillErr w with stopped := true, halted := false }
  let t := s2.ctx c
  let live := (upto 0 4096).filter fun n => t.cstate n == 2 || t.cstate n == 3
  let s3 := live.foldl
    (fun (x : State) n =>
      if card = some n then x.failOne c n 0x20 fcode fblock false
      else x.failOne c n 0x21 0x65 0 false) s2
  ((({ s3 with reev := s3.reev.filter fun a => a.1.val != c } : State).modCtx c fun t =>
    { t with recs := [], gangs := [], cks := [] }).freeze).raiseCtx c 1

/-- A fatal context error: it is logged, and the first of a context stops it (R348, R349); `card` is the job whose agent
raised it, if any. -/
def State.contextStopBy (s : State) (c : Nat) (card : Option Nat) (fcode : Nat) (e : CtxErr) : State :=
  let w := e.words s.rtime
  let ev : Ev := ⟨0x01, e.code, e.detail, c, e.core / 64 % 2, e.core % 64, e.stream, e.agent, e.card, e.block,
    (w.getD 1 0).toNat, e.aux, if e.agent = 7 then 0 else s.flagsOf e.core, 0⟩
  let t := s.logEv ev
  if (s.ctx c).stopped then t else t.stopWork c card fcode e.block w
/-- The same of an error that an agent of a job raised. -/
def State.contextStop (s : State) (c : Nat) (fcode : Nat) (e : CtxErr) : State := s.contextStopBy c (some e.card) fcode e

/-- Stream numbers of R349. -/
def Stm.code : Stm → Nat
  | .c => 0 | .a => 1 | .v => 2

/-- The record of a fault at a position of a stream of core k. -/
def State.errAt (s : State) (k : Nat) (m : Stm) (p : Pos) (code detail aux : Nat) : CtxErr :=
  let r := (s.core k).res
  ⟨code, detail, Stm.code m, k, r.card, 0, r.block, p.line, p.lane, p.lseq, aux⟩
/-- The record of a fault of another agent of core k (R349 AGENT). -/
def State.errAgent (s : State) (k agent code detail aux : Nat) : CtxErr :=
  let r := (s.core k).res
  ⟨code, detail, 3, k, r.card, agent, r.block, 0, 0, 0, aux⟩

/-- A fatal context error at the form the current stream issues (R347). -/
def State.fatal (s : State) (code detail aux : Nat) : State :=
  s.contextStop s.cx code (s.errAt s.cur s.strm s.st.pos code detail aux)
/-- A fatal error of an engine's command, reported against C at the command's issue (R349). -/
def State.fatalC (s : State) (k : Nat) (p : Pos) (code detail aux : Nat) : State :=
  s.contextStop (s.core k).res.ctx.val code (s.errAt k .c p code detail aux)
/-- A fatal error of another agent of core k. -/
def State.fatalAgent (s : State) (k agent code detail aux : Nat) : State :=
  s.contextStop (s.core k).res.ctx.val code (s.errAgent k agent code detail aux)

/-! ### A block fails (R348, R160) -/

/-- The block on core k fails: its job becomes FAILED with the code and the block (R30, R348). -/
def State.blockFail (s : State) (k code detail stream : Nat) : State :=
  let r := (s.core k).res
  let s1 := s.logEv { s.faultEv k code detail with stream := stream }
  s1.jobFail r.ctx.val r.card 0x20 code r.block

/-! ### Counters and fencing (R372, R375, R376) -/

/-- A counter's key: its row of R372 Table 2 and its unit. -/
def counterKey (row unit : Nat) : Nat := row * 2 ^ 48 + unit
/-- Windows (reference ns) and thresholds of R372 Table 2, rows 0 to 6. -/
def counterWindow (row : Nat) : Nat := if row = 0 ∨ row = 1 ∨ row = 6 then 86400000000000 else 1000000000
def counterLimit (row : Nat) : Nat := match row with
  | 0 => 16 | 1 => 16 | 2 => 32 | 3 => 32 | 4 => 64 | 5 => 3 | _ => 4

/-- Count an event (R372): a window opens at the first event while none is open.  Answers the window's start where the
threshold is reached, when the counter clears and a threshold event is logged. -/
def State.count (s : State) (row unit : Nat) : Option Nat × State :=
  let key := counterKey row unit
  let c := match mget s.counters key with
    | some c => if s.rtime < c.start + counterWindow row then { c with count := c.count + 1 } else ⟨s.rtime, 1⟩
    | none => ⟨s.rtime, 1⟩
  if counterLimit row ≤ c.count then
    (some c.start, ({ s with counters := mdel s.counters key } : State).logEv
      { Ev.of 0x05 0 0 with p0 := row, p1 := unit, p2 := c.count, p3 := c.start })
  else (none, { s with counters := mset s.counters key c })

/-- Why a part retires: the source row of R372 Table 2 and the start of the window in which its counter filled. -/
abbrev Cause := Nat × Nat
/-- Write a retirement entry; a full table loses it, and a threshold event of its cause is logged with DETAIL 0xFF
(R376). -/
def State.retirePart (s : State) (why : Cause) (kind unit spare : Nat) (when_ : Nat) (spareLeft : Nat) : State :=
  let w0 := w64 (2 ^ 63 + kind * 2 ^ 59 + unit * 2 ^ 40 + spare * 2 ^ 32 + s.nv.boots % 2 ^ 32)
  if s.nv.retire.length < 4096 then
    ({ s with nv := { s.nv with retire := s.nv.retire ++ [(w0, w64 when_)] } } : State).logEv
      { Ev.of 0x06 0 0 with p0 := w0.toNat, p1 := when_, p2 := spareLeft }
  else s.logEv { Ev.of 0x05 0 0 with detail := 0xFF, p0 := why.1, p1 := unit, p2 := counterLimit why.1, p3 := why.2 }

/-- LCORES with one more fenced core of a die (R72). -/
def fencedOne (l : Word) (die : Nat) : Word :=
  let lo := if die = 0 then 16 else 24
  w64 (putBits l.toNat (lo + 7) lo (bits l.toNat (lo + 7) lo + 1))

/-- Fence core k (R71, R375): a restartable block is killed with its gang, another runs on; no further block.  A block of a
context that the debugger has halted is killed at once too, and its PENDING tiles with it: R375 names no wait, and R60
freezes what the halted block itself does, a DESIGN CHOICE (notes/assumptions/55.md). -/
def State.fence (s : State) (k : Nat) (why : Cause) : State :=
  let c := s.core k
  if !c.inServ then s
  else
    let s1 := (s.logEv { s.evOf k 0x02 0x46 0 with stream := 3, agent := 7, p0 := c.phasecnt, p1 := c.trigs, p3 := 3 }).modCore k fun c =>
      { c with inServ := false }
    let s2 := ({ s1 with lcores := fencedOne s1.lcores (k / 64 % 2) } : State).retirePart why 0 (k / 64 * 68 + c.phys) 0
      s1.rtime 0
    if c.blk.isSome && bit (c.res.hw 3) 51 && c.mark != .dying then s2.killGang k 0x46 false else s2

/-! ### Containment triggers (R363 to R369) -/

/-- Clamp a semaphore count after a rollback (R365). -/
def rollSem (n inc dec : Nat) : Nat := min (n + dec - min inc (n + dec)) 65535

/-! ### The double-buffer mapping (R18, R276) -/

/-- The double-buffer mapping of one pair (R18, R276). -/
def dblPair (w : Nat) (o : Nat) : Nat :=
  let a := bits w 63 47
  let b := bits w 46 30
  let n := bits w 29 13
  let g := o / 16
  if a ≤ g ∧ g < a + n then o + 16 * b - 16 * a
  else if b ≤ g ∧ g < b + n then o + 16 * a - 16 * b
  else o
/-- The granule an offset of a core's scratchpad reaches (R276). -/
def dblMap (hdr : List Word) (par : Vector Bool 8) (o : Nat) : Nat :=
  (upto 0 (bits (wd hdr 7) 59 56)).foldl (fun x n => if par.toList.getD n false then dblPair (wd hdr (16 + n)) x else x) o

/-- Destination granules of a logged copy (R366): local scratch always, as mapped at its issue (R207). -/
def CopyCmd.destGrans (hdr : List Word) (x : CopyCmd) : List Nat :=
  ((tensorRuns x.dshape true).flatMap fun r =>
    (touchGrans (x.dst.addr + r.1) r.2).map fun g =>
      let o := dblMap hdr x.view.par (16 * g)
      (if x.flags.bpd then bankPerm o else o) / 16).dedup

/-- A carried copy at a cancel (R366): one that has completed is performed again silently, one that has not restarts
from its first granule. -/
def carriedAgain (e : LogEntry) : CopyCmd := { e.cmd with silent := e.done }
/-- Whether a running copy is one of the log's entries. -/
def Core.logged (c : Core) (x : CopyCmd) : Bool := c.log.any fun e => e.cmd.q == x.q && e.cmd.seq == x.seq && e.cmd.ph == x.ph

/-- Granules with F and P put back to a copy of them, those of the list empty (R367). -/
def backFp (m : Map SGran) (fp : Map (Bool × Bool)) (dests : List Nat) : Map SGran :=
  let keep := fp.filter fun e => !dests.contains e.1
  (((m.map fun e => e.1) ++ (keep.map fun e => e.1)).dedup).foldl
    (fun q g =>
      let b := mgetD keep g (false, false)
      mput SGran.empty q g { mgetD m g SGran.empty with full := b.1, pois := b.2 }) m

/-- What becomes of a running transfer at a cancel (R364, R366): a command of the phase and a silent one are dropped, a
logged one starts again from its first granule, any other runs on.  What a CCANCEL has cancelled stays so. -/
def Core.cancelRun (c : Core) (x : CopyRun) : Option CopyRun :=
  if x.cmd.ph = c.ph ∨ x.cmd.silent then none
  else if x.cmd.outb || !c.logged x.cmd then some x
  else some { x with next := 0, first := none, done := false, srcG := [], buf := [], dstG := [], dstP := [], out := [] }
/-- A running transfer that starts again, as the command behind an earlier one of its queue that is performed again first
(R212): what it has waited for it waits for no more. -/
def CopyRun.requeued (x : CopyRun) : CopyCmd :=
  { x.cmd with sems := { x.cmd.sems with wen := x.cmd.sems.wen && !x.waited }, cancelled := x.cancel }

/-- Cancel the phase of core k (R364 to R367).  What its PHASE had given up for publication and a pin still held back is
discarded with its pending stores. -/
def State.cancelPhase (s : State) (k : Nat) : State :=
  let c := s.core k
  let s1 := c.pubs.foldl (fun (t : State) p => (t.tileEntry k p.1 p.2).elim t t.tagUnpend) s
  let carried := c.log.filter fun e => e.carried
  let redo (q : Fin 4) : List CopyCmd := (carried.filter fun e => e.cmd.q == q && e.done).map carriedAgain
  let behind (q : Fin 4) : Option CopyCmd :=
    if (redo q).isEmpty then none else (c.crun[q].bind c.cancelRun).bind fun x => if x.cmd.outb then none else some x.requeued
  let mxGone := c.mx.any fun m => m.cmd.ph == c.ph
  let acc := c.snaps.foldl
    (fun (m : Map Acc) e => sortBy (fun a b => a.1 ≤ b.1) (mcut m (4096 * e.1.val) (4096 * (e.1.val + 1)) ++ e.2)) c.acc
  let key := gkey c.res.card c.res.gang
  (s1.modCtx c.res.ctx.val fun t =>
    match mget t.gangs key with
    | some g => { t with gangs := mset t.gangs key { g with elastic := backFp g.elastic c.prec.efp [] } }
    | none => t).setCore k
    { c with
      r := c.prec.regs.orderReads s.wseq
      pend := []
      comm := []
      nGrans := c.nGrans - (c.comm.map fun e => (pendGrans e.1).length).sum
      q10 := c.q10.filter fun w => w.2 != c.ph
      q11 := c.q11.filter fun m => m.ph != c.ph
      mx := if mxGone then none else c.mx
      acc := acc
      snaps := []
      ring := c.prec.ring.map fun x => { x with head := x.thead }
      cseq := c.prec.cseq
      eseq := c.prec.eseq
      sem := Vector.ofFn fun i => rollSem c.sem[i] c.semInc[i] c.semDec[i]
      semq := c.semq.map fun ws => ws.filter fun w => match w.2 with
        | .c => false
        | .matrix => !mxGone
        | .copy q => (c.crun[q]).any fun x => x.cmd.ph != c.ph
      semInc := Vector.replicate 16 0
      semDec := Vector.replicate 16 0
      scr := backFp c.scr c.prec.fp (c.log.flatMap fun e => e.cmd.destGrans c.res.hdr).dedup
      crun := Vector.ofFn fun q => if (behind q).isSome then none else c.crun[q].bind c.cancelRun
      cq := Vector.ofFn fun q => redo q ++ (behind q).toList ++ (c.cq[q].filter fun x => x.ph != c.ph && !x.silent)
      log := carried
      q16 := c.q16.filter fun x => x.ph != c.ph
      q18 := c.q18.filter fun x => x.ph != c.ph
      q19 := c.q19.filter fun x => x.ph != c.ph
      q20 := c.q20.filter fun x => x.ph != c.ph
      q22 := c.q22.filter fun x => x.ph != c.ph
      q24 := c.q24.filter fun x => match x with
        | .pub .. | .patch .. | .arm .. | .ready .. => true
        | .pending _ _ ph => ph != c.ph
        | _ => false
      q17 := (c.pop17.filter fun x => x.2 != c.ph) ++ c.q17.filter fun x => x.2 != c.ph
      q21 := (c.pop21.filter fun x => x.2 != c.ph) ++ c.q21.filter fun x => x.2 != c.ph
      q23 := (c.pop23.filter fun x => x.2 != c.ph) ++ c.q23.filter fun x => x.2 != c.ph
      q25 := (c.pop25.filter fun x => x.ph != c.ph) ++ c.q25.filter fun x => x.ph != c.ph
      pop17 := []
      pop21 := []
      pop23 := []
      pop25 := []
      pubs := []
      seen := []
      quietPt := false
      kend := false
      tfault := none
      ptrig := []
      barWait := none
      nCancel := c.nCancel + 1 }

/-- The event of a containment trigger (R378): the action is 0 a cancel, 1 a restart, 2 a context error. -/
def State.logTrig (s : State) (k : Nat) (x : Trig) (action : Nat) : State :=
  let c := s.core k
  s.logEv { s.evOf k 0x02 x.code 0 with
    stream := x.stream, agent := x.agent, p0 := c.phasecnt, p1 := c.trigs, p2 := x.addr, p3 := action }
/-- A trigger counts at its PHASECNT (R368). -/
def State.countTrig (s : State) (k : Nat) : State := s.modCore k fun c => { c with trigs := c.trigs + 1 }
/-- A matrix command that met the trigger of an escalation goes no further (R258). -/
def Core.dropMx (x : Trig) (c : Core) : Core :=
  if x.stream = 3 ∧ x.agent = 0 then
    { c with mx := none, semq := c.semq.map fun ws => ws.filter fun w => w.2 != .matrix } else c

/-- Escalation re-runs in a row of the block of core k, this escalation not among them (R368). -/
def State.escalRuns (s : State) (k : Nat) : Nat :=
  let r := (s.core k).res
  (mget (s.ctx r.ctx.val).recs (gkey r.card r.block)).elim 0 fun y => y.escal
/-- Whether an escalation kills the block of core k, rather than stops its context (R368). -/
def State.restarts (s : State) (k : Nat) : Bool := bit ((s.core k).res.hw 3) 51 && decide (s.escalRuns k < 2)
/-- Escalate a trigger (R368): its own event, then that of the restart or of the context error. -/
def State.escalate (s : State) (k : Nat) (x : Trig) : State :=
  let r := (s.core k).res
  let key := gkey r.card r.block
  let runs := s.escalRuns k
  let s0 := ((s.logTrig k x (if s.restarts k then 1 else 2)).modCtx r.ctx.val fun t => t.addCf r.card 27 15 0 1).modCore k
    (Core.dropMx x)
  if s.restarts k then
    ((s0.modCtx r.ctx.val fun t =>
      match mget t.recs key with
      | some y => { t with recs := mset t.recs key { y with escal := runs + 1 } }
      | none => t).logTrig k { x with code := 0x43 } 1).killGang k 0x43 true
  else
    (s0.logTrig k { x with code := 0x44 } 2).contextStop r.ctx.val 0x44
      { (s0.errAt k .c (s0.core k).r.c.pos x.code 0 x.addr) with stream := x.stream, agent := x.agent }

/-- Whether a trigger escalates, where the trigger and those taken with it make `n` at its PHASECNT (R366, R368). -/
def Core.escalates (c : Core) (n : Nat) (x : Trig) : Bool :=
  x.code == 0x45 || c.early || decide (x.ph < c.ph) || decide (3 ≤ n)
/-- Take the triggers of one core clock (R364, R368, R369): each is counted and logged, and they make one cancel, unless
one escalates, which is the last to be logged.  A block that is being killed has nothing left to cancel: the command ends. -/
def State.takeTrigs (s : State) (k : Nat) (xs : List Trig) : State :=
  let c := s.core k
  match xs.find? (c.escalates (c.trigs + xs.length)) with
  | some x =>
    if c.mark = .dying then (xs.foldl (fun (t : State) y => t.logTrig k y 1) s).modCore k (Core.dropMx x)
    else
      let act := if s.restarts k then 1 else 2
      (((xs.erase x).foldl (fun (t : State) y => (t.countTrig k).logTrig k y act) s).countTrig k).escalate k x
  | none => (xs.foldl (fun (t : State) y => (t.countTrig k).logTrig k y 0) s).cancelPhase k
/-- The same, each shadow mismatch counted against its core first (R372). -/
def State.takeCounted (s : State) (k : Nat) (xs : List Trig) : State :=
  let n := (xs.filter fun x => x.code == 0x41).foldl
    (fun (a : Option Nat × State) _ => let m := a.2.count 5 k; (m.1 <|> a.1, m.2)) (none, s)
  let t := n.2.takeTrigs k xs
  n.1.elim t fun start => t.fence k (5, start)

/-- A containment trigger on core k (R363).  While the context is halted it is taken at resume (R369): an engine's, which a
later step of its command meets again, once. -/
def State.trigger (s : State) (k : Nat) (x : Trig) : State :=
  if (s.ctx (s.core k).res.ctx.val).halted then
    if x.stream = 3 ∧ x ∈ (s.core k).ptrig then s else s.modCore k fun c => { c with ptrig := c.ptrig ++ [x] }
  else s.takeCounted k [x]
/-- A trigger that the current stream's form meets (R363). -/
def State.streamTrigger (s : State) (code addr : Nat) : State :=
  s.trigger s.cur ⟨code, s.me.ph, addr, Stm.code s.strm, 0⟩

/-! ### How a form issues (R81, R86) -/

/-- What a form's effects come to: they are done; the form waits; or the stream stops where it stands because the
context stopped, the block failed or the phase was cancelled. -/
inductive Res where
  | done (s : State)
  | wait (b : Blk) (s : State)
  | stop (s : State)

/-- The current stream waits. -/
def State.blocked (s : State) (b : Blk) : State := s.modSt fun x => { x with blk := b }
/-- The current stream goes on to the next lane. -/
def Stream.advance (x : Stream) : Stream :=
  { x with
    pos := { x.pos with lane := x.pos.lane + 1 }
    popped := false
    acted := false
    blk := .run
    opbuf := []
    sample := none }
/-- The core's waiting streams try again once a stream has issued (R88, R350). -/
def State.advance (s : State) : State := (s.modSt Stream.advance).modMe Core.wake

/-- The counters that WP and WN of a stream name, as a function of the token state (R86). -/
def Tokens.fromPrev (t : Tokens) : Stm → Nat
  | .c => t.vc | .a => t.ca | .v => t.av
def Tokens.fromNext (t : Tokens) : Stm → Nat
  | .c => t.ac | .a => t.va | .v => t.cv
def Tokens.toNext (t : Tokens) : Stm → Nat
  | .c => t.ca | .a => t.av | .v => t.vc
def Tokens.toPrev (t : Tokens) : Stm → Nat
  | .c => t.cv | .a => t.ac | .v => t.va
def Tokens.setFromPrev (t : Tokens) (m : Stm) (n : Nat) : Tokens :=
  match m with
  | .c => { t with vc := n } | .a => { t with ca := n } | .v => { t with av := n }
def Tokens.setFromNext (t : Tokens) (m : Stm) (n : Nat) : Tokens :=
  match m with
  | .c => { t with ac := n } | .a => { t with va := n } | .v => { t with cv := n }
def Tokens.setToNext (t : Tokens) (m : Stm) (n : Nat) : Tokens :=
  match m with
  | .c => { t with ca := n } | .a => { t with av := n } | .v => { t with vc := n }
def Tokens.setToPrev (t : Tokens) (m : Stm) (n : Nat) : Tokens :=
  match m with
  | .c => { t with cv := n } | .a => { t with ac := n } | .v => { t with va := n }

/-- Whether the tokens a head waits on are there (R86). -/
def canPop (t : Tokens) (m : Stm) (h : Head) : Bool :=
  (!h.wp || decide (0 < t.fromPrev m)) && (!h.wn || decide (0 < t.fromNext m))
/-- Pop them together. -/
def popTokens (t : Tokens) (m : Stm) (h : Head) : Tokens :=
  let t1 := if h.wp then t.setFromPrev m (t.fromPrev m - 1) else t
  if h.wn then t1.setFromNext m (t1.fromNext m - 1) else t1
/-- Give back the tokens a head waits on. -/
def unpopTokens (t : Tokens) (m : Stm) (h : Head) : Tokens :=
  let t1 := if h.wp then t.setFromPrev m (t.fromPrev m + 1) else t
  if h.wn then t1.setFromNext m (t1.fromNext m + 1) else t1
/-- Whether the counters a head pushes have room (R86). -/
def canPush (t : Tokens) (m : Stm) (h : Head) : Bool :=
  (!h.pn || decide (t.toNext m < 15)) && (!h.pp || decide (t.toPrev m < 15))
/-- Push them together. -/
def pushTokens (t : Tokens) (m : Stm) (h : Head) : Tokens :=
  let t1 := if h.pn then t.setToNext m (t.toNext m + 1) else t
  if h.pp then t1.setToPrev m (t1.toPrev m + 1) else t1

def State.toks (s : State) : Tokens := s.me.r.tok
def State.setToks (s : State) (t : Tokens) : State := s.modRegs fun r => { r with tok := t }

/-- Whether a form that pushes tokens has still to wait for an answer of Campion: its effects are not complete (R86,
R286). -/
def State.unanswered (s : State) (h : Head) : Bool := (h.pn || h.pp) && !s.st.await.isEmpty
/-- The end of a form: its pushes, and the stream's next lane; or the wait for room or for an answer (R86). -/
def State.finish (s : State) (h : Head) : State :=
  if s.unanswered h then (s.modSt fun x => { x with acted := true }).blocked .other
  else if canPush s.toks s.strm h then
    let t := s.setToks (pushTokens s.toks s.strm h)
    (if h.pn || h.pp then t.orderReads else t).advance
  else (s.modSt fun x => { x with acted := true }).blocked .loose

/-- Pop the tokens a form waits on; its later reads follow what they order (R86, R263). -/
def State.popFor (s : State) (h : Head) : State :=
  let t := s.setToks (popTokens s.toks s.strm h)
  if h.wp || h.wn then t.orderReads else t
/-- A form that a trigger stops in a halted context has moved no token (R363, R369). -/
def State.unpop (s : State) (h : Head) : State :=
  if s.me.ptrig.isEmpty then s
  else (s.setToks (unpopTokens s.toks s.strm h)).modSt fun x => { x with popped := false }

/-- A form with a head, its effects given the guard (R86): tokens popped, effects, tokens pushed. -/
def State.issueG (s : State) (h : Head) (eff : Bool → State → Res) : State :=
  if s.st.acted then s.finish h
  else if !s.st.popped && !canPop s.toks s.strm h then s.blocked .loose
  else
    let s1 := if s.st.popped then s else s.popFor h
    match eff (s1.guardB h.g) s1 with
    | .done s2 => s2.finish h
    | .wait b s2 => (s2.modSt fun x => { x with popped := true }).blocked b
    | .stop s2 => s2.unpop h

/-- A form whose false guard suppresses every effect. -/
def State.issue (s : State) (h : Head) (eff : State → Res) : State :=
  s.issueG h fun g t => if g then eff t else .done t

/-- A form whose effect never waits and never faults. -/
def State.issue1 (s : State) (h : Head) (eff : State → State) : State := s.issue h fun t => .done (eff t)

/-- The outcome of a form or event: a next state always. -/
abbrev Out := Host.Outcome State Fault Refusal

end Sys2Proof.Machine
end

