-- ==== Sys2Proof/Machine/Operands.lean ====
section
/-!
DEFINITION. Sys2Proof/Machine/Operands.lean: operand forms: handles and shape records by version (R90, R172, R188), the checks
of an access (R170, R173, R193, R196), where a handle's bytes lie (R166, R186), the double-buffer mapping (R276) and bank
permutation (R195), element addresses (R193), and vector sources and destinations (R97, R219).
-/
namespace Sys2Proof.Machine
open Sys2Proof

/-! ### Positions and versions (R80, R90) -/

/-- Position order: LSEQ, then lane. -/
def posLt (l1 n1 l2 n2 : Nat) : Bool := decide (l1 < l2) || (l1 == l2 && decide (n1 < n2))

/-- The version a stream reads at its position; none while C has not passed it (R90). -/
def readVersion {α : Type} (vs : List (Nat × Nat × α)) (m : Stm) (c p : Pos) (d : α) : Option α :=
  match m with
  | .c => some ((vs.head?.map fun v => v.2.2).getD d)
  | _ =>
    if posLt p.lseq p.lane c.lseq c.lane then
      some (((vs.find? fun v => posLt v.1 v.2.1 p.lseq p.lane).map fun v => v.2.2).getD d)
    else none

/-- Versions still needed: an older one is freed once A and V have passed the stamp of the next newer (R90). -/
def pruneVersions {α : Type} (a v : Pos) : List (Nat × Nat × α) → List (Nat × Nat × α)
  | [] => []
  | [x] => [x]
  | x :: r =>
    if posLt x.1 x.2.1 a.lseq a.lane && posLt x.1 x.2.1 v.lseq v.lane then [x] else x :: pruneVersions a v r

def State.readH (s : State) (i : HIx) : Option Handle := readVersion s.me.r.h[i] s.strm s.me.r.c.pos s.st.pos 0
def State.readT (s : State) (i : TIx) : Option Word := readVersion s.me.r.t[i] s.strm s.me.r.c.pos s.st.pos 0

/-- A new version of a handle, stamped with C's position; none when it would be a fifth (R90).  The content at block start
counts as none: a DESIGN CHOICE (notes/assumptions/46.md). -/
def State.writeH (s : State) (i : HIx) (x : Handle) : Option State :=
  let r := s.me.r
  let vs := pruneVersions r.a.pos r.v.pos r.h[i]
  if 4 ≤ vs.length then none
  else some (s.modRegs fun r => { r with h := r.h.set i ((r.c.pos.lseq, r.c.pos.lane, x) :: vs) })
def State.writeT (s : State) (i : TIx) (x : Word) : Option State :=
  let r := s.me.r
  let vs := pruneVersions r.a.pos r.v.pos r.t[i]
  if 4 ≤ vs.length then none
  else some (s.modRegs fun r => { r with t := r.t.set i ((r.c.pos.lseq, r.c.pos.lane, x) :: vs) })

/-! ### Handle fields (R172) -/

def hf (h : Handle) (hi lo : Nat) : Nat := bits h.toNat hi lo
def hValid (h : Handle) : Bool := bit h.toNat 255
def hKind (h : Handle) : Nat := hf h 254 252
def hPath (h : Handle) : Nat := hf h 251 248
def hTier (h : Handle) : Nat := hf h 247 245
def hLog (h : Handle) : Nat := hf h 244 239
def hAtc (h : Handle) : Nat := hf h 238 237
def hRo (h : Handle) : Bool := bit h.toNat 236
def hExt (h : Handle) : Nat := hf h 235 222
def hPerm (h : Handle) : Nat := hf h 221 198
def hFrame (h : Handle) : Nat := hf h 190 160
def hBase (h : Handle) : Nat := hf h 127 64
def hLen (h : Handle) : Nat := hf h 63 0

/-- A handle from its parts: `top` holds bits 255 to 128. -/
def mkHandle (top base len : Nat) : Handle := BitVec.ofNat 256 (top * 2 ^ 128 + base % 2 ^ 64 * 2 ^ 64 + len % 2 ^ 64)

/-! ### Agents and permissions (R170) -/

/-- Agents of R170 Table 4 in its order: 0 C, 1 A, 2 to 5 transfer queues, 6 matrix, 7 pool, 8 update, 9 near-memory,
10 Teasel, 11 Speedwell. -/
def permOk (perm agent : Nat) (write : Bool) : Bool := bit perm (if write then 22 - 2 * agent else 23 - 2 * agent)

/-- A fault: code and detail. -/
abbrev Flt := Nat × Nat
def accBounds : Flt := (0x28, 1)
def accPerm : Flt := (0x28, 2)
def undeclared : Flt := (0x27, 0)

/-- The permission of a use of a handle by an agent: a write through RO or path 2 is refused too (R164, R170). -/
def usePerm (h : Handle) (agent : Nat) (write : Bool) : Option Flt :=
  if hKind h = 0 then
    if write && (hRo h || hPath h == 2) then some accPerm
    else if permOk (hPerm h) agent write then none else some accPerm
  else none

/-! ### Scratch offsets (R195, R276) -/

/-- Where the bytes of a place lie. -/
inductive Tgt where
  /-- scratch of a core (the double-buffer mapping still to apply) -/
  | loc (core off : Nat)
  | ela (off : Nat)
  | mem (path addr : Nat)
  | win (core off : Nat)
  deriving DecidableEq, Repr

/-- The target of a virtual address or offset of a handle. -/
def hTgt (cur : Nat) (h : Handle) (a : Nat) : Tgt :=
  if hKind h = 1 then .loc cur a
  else if hKind h = 2 then .ela a
  else
    let p := hFrame h * 2 ^ 21 + a % 2 ^ 60 % 2 ^ (hLog h)
    match (if hTier h = 4 then windowOf p else none) with
    | some w => .win w.1 w.2
    | none => .mem (hPath h) p

/-- Whether a handle selects scratch layout (R188). -/
def scratchLayout (h : Handle) : Bool :=
  if hKind h = 0 then hTier h == 4 && (match hTgt 0 h (hBase h) with
    | .win _ o => decide (o < 0x200000)
    | _ => false)
  else true

/-- The place of a handle's base (R207): a scratch offset is mapped granule by granule through the parities that the
command's view holds (R276). -/
def hPlace (s : State) (h : Handle) : Place :=
  match hTgt s.cur h (hBase h) with
  | .loc _ o => ⟨.local, 0, 0, o, hLen h⟩
  | .ela o => ⟨.elastic, 0, 0, o, hLen h⟩
  | .win k o => ⟨.window, 3, hExt h, onChipBase + k * 2 ^ 23 + o, hLen h⟩
  | .mem p a => ⟨.mem, p, hExt h, a, hLen h⟩

/-! ### Windows of other cores (R186, R358, R395) -/

/-- How a path-3 access meets its target core. -/
inductive Meet where
  | block
  | between
  | foreign
  deriving DecidableEq, Repr

def State.meet (s : State) (ctx : Fin 8) (k : Nat) : Meet :=
  match mget s.cores k with
  | none => .foreign
  | some c =>
    match c.blk with
    | some r => if r.ctx = ctx then .block else .foreign
    | none => if c.inServ && c.lastCtx == some ctx then .between else .foreign

/-- One accumulator element in its 8-byte container (R122): bits 63:56 copy bit 55. -/
def accContainer (x : Acc) : Nat := x.toNat + (if bit x.toNat 55 then 255 * 2 ^ 56 else 0)
/-- Element (i, j) of set n is at key 4,096 n + 64 i + j. -/
def Core.accGet (c : Core) (key : Nat) : Acc := mgetD c.acc key 0
def Core.accSet (c : Core) (key : Nat) (v : Acc) : Core := { c with acc := mput 0 c.acc key v }

/-- One byte of the accumulator area of a window (R186). -/
def Core.accByte (c : Core) (o : Nat) : Byte :=
  let r := o - 0x200000
  if r % 0x20000 < 0x8000 then
    BitVec.ofNat 8 (accContainer (c.accGet (4096 * (r / 0x20000) + r % 0x20000 / 8)) / 256 ^ (r % 8))
  else 0

/-! ### Reading and writing bytes of a target -/

/-- The result of reading bytes: data, whether a poisoned scratch granule or poisoned memory was met, the state. -/
structure Got where
  data  : List Byte
  pois  : Bool
  unc   : Bool
  s     : State

/-- Scratch bytes of core k through the double-buffer mapping and, when `bp`, bank permutation: offset of one byte. -/
def State.scrOff (s : State) (k : Nat) (bp : Bool) (o : Nat) : Nat :=
  let x := dblMap (s.core k).res.hdr (s.core k).r.par o
  if bp then bankPerm x else x

/-- The scratch fault of R12 and R26, for offsets o to o + n − 1. -/
def scrLimit (lim o n : Nat) : Option Flt := if o + n ≤ lim then none else some undeclared

/-- Whether the bytes o to o + n − 1 of a target may be reached (R12, R26, R186, R358). -/
def State.tgtFault (s : State) (t : Tgt) (bp : Bool) (n : Nat) : Option Flt :=
  match t with
  | .loc k o =>
    let lim := scrbytes (s.core k).res.hdr
    if bp && (granPieces o n).any fun p => decide (lim < s.scrOff k true p.1 + p.2) then some undeclared else scrLimit lim o n
  | .ela o => if bp then some accPerm else scrLimit s.res.llc o n
  | .mem _ _ => if bp then some accPerm else none
  | .win k o =>
    if bp then some accPerm
    else match s.meet s.res.ctx k with
      | .foreign => some accPerm
      | .between => none
      | .block => if o < 0x200000 then scrLimit (scrbytes (s.core k).res.hdr) o n else none

/-- How a read is performed: a plain load, LDL, one that found a granule full, or at the newest value (an atomic's, an
engine's). -/
inductive Rd where
  | plain | late | full | newest
  deriving DecidableEq, Repr

/-- Read bytes of one scratch granule.  A plain load of a stream may have been performed earlier in its program's order
(R263); a load that found the granule full acquires its last write (R266). -/
def State.readScr (s : State) (md : Rd) (w : Where) (o n : Nat) : List Byte × State :=
  match md with
  | .plain | .late =>
    let r := s.granReadFrom (max s.st.hz (mgetD s.st.gk (w.key (o / 16)) 0)) w o n
    (r.1, r.2.2.learnReads s.cur r.2.1)
  | .full =>
    (s.granRead w o n,
      (s.learnReads s.cur (s.writersOf w (16 * (o / 16)) 16)).modSt fun x => { x with gk := mset x.gk (w.key (o / 16)) s.wseq })
  | .newest => (s.granRead w o n, s)

/-- Read bytes of one granule of core c's window (R186 Table 8): data, whether the granule is poisoned, the state.  What a
read of the write-only queue area returns is not stated: a free value. -/
def State.readWin (s : State) (md : Rd) (c o n : Nat) : List Byte × Bool × State :=
  if o < 0x200000 then
    let r := s.readScr md (.scr c) (s.scrOff c false o) n
    (r.1, s.granPois (.scr c) (s.scrOff c false o) n, r.2)
  else if o < 0x280000 then ((upto o n).map (s.core c).accByte, false, s)
  else if o / 16 = 0x28000 then (toBytes n s.draw.1, false, s.draw.2)
  else (List.replicate n 0, false, s)

/-- Whether a read of n bytes of memory takes uncorrectable or poisoned data: bytes that the core's own stores give are none
of memory's (R198, R265, R371). -/
def State.memPois (s : State) (k : Nat) (own : Bool) (a n : Nat) : Bool :=
  (granPieces a n).any fun p =>
    s.poisoned p.1 p.2 && !(own && (upto p.1 p.2).all fun x => ((s.core k).ownStore x).isSome)
/-- Read n bytes of a target for core k, granule by granule (R165, R181, R201, R265); on paths 0 and 4 an atomic's read
comes after the core's own stores. -/
def State.readTgt (s : State) (k : Nat) (t : Tgt) (bp : Bool) (md : Rd) (n : Nat) : Got :=
  let scr (c : Nat) (g : Got) (p : Nat × Nat) : Got :=
    let o := s.scrOff c bp p.1
    let r := g.s.readScr md (.scr c) o p.2
    ⟨g.data ++ r.1, g.pois || g.s.granPois (.scr c) o p.2, false, r.2⟩
  match t with
  | .loc c o => (granPieces o n).foldl (scr c) ⟨[], false, false, s⟩
  | .ela o =>
    (granPieces o n).foldl
      (fun (g : Got) p =>
        let r := g.s.readScr md (s.core k).res.elastic p.1 p.2
        ⟨g.data ++ r.1, g.pois || g.s.granPois (s.core k).res.elastic p.1 p.2, false, r.2⟩) ⟨[], false, false, s⟩
  | .mem p a =>
    let path := if md = .late ∧ p = 0 then 1 else p
    let r := if md = .newest then (s.latestRead k true a n, s) else s.memRead k s.strm path a n
    ⟨r.1, false, s.memPois k (md == .newest || (path != 2 && path != 5)) a n, r.2⟩
  | .win c o =>
    match s.meet (s.core k).res.ctx c with
    | .block =>
      (granPieces o n).foldl
        (fun (g : Got) p =>
          let r := g.s.readWin md c p.1 p.2
          ⟨g.data ++ r.1, g.pois || r.2.1, false, r.2.2⟩) ⟨[], false, false, s⟩
    | _ => ⟨List.replicate n 0, false, false, s⟩

/-- Write scratch bytes of core c through the mapping, after what `v` holds. -/
def State.scrWrite (s : State) (v : View) (c : Nat) (bp : Bool) (o : Nat) (bs : List Byte) (full : Bool) : State :=
  (granPieces o bs.length).foldl
    (fun t p => t.granWrite1 v (.scr c) (s.scrOff c bp p.1) ((bs.drop (p.1 - o)).take p.2) full) s

/-- Whether a queued or running matrix command of a core names a set (R186). -/
def MxCmd.names (x : MxCmd) (n : Nat) : Bool := x.set.val == n
def Core.namesSet (c : Core) (n : Nat) : Bool := c.q11.any (fun x => x.names n) || c.mx.any fun m => m.cmd.names n

/-- Write one 8-byte accumulator container of a core (R122, R186): bits 63:56 are ignored. -/
def Core.accPut (c : Core) (key v : Nat) : Core := c.accSet key (BitVec.ofNat 56 v)
/-- The same through a window: no cancel undoes it, so a set's snapshot takes it too (R257). -/
def Core.accWindow (c : Core) (key v : Nat) : Core :=
  { c.accPut key v with
    snaps := c.snaps.map fun e => if e.1.val = key / 4096 then (e.1, mput 0 e.2 key (BitVec.ofNat 56 v)) else e }

/-- A path-3 write of bytes to the accumulator area: performed on each element it touches, or held at the target while
a queued command names the set (R186). -/
def State.accWindowWrite (s : State) (c o : Nat) (bs : List Byte) : State :=
  let els := ((upto o bs.length).map fun x => x / 8 * 8).dedup
  els.foldl
    (fun t e =>
      let r := e - 0x200000
      if r % 0x20000 < 0x8000 then
        let key := 4096 * (r / 0x20000) + r % 0x20000 / 8
        let old := toBytes 8 (match ((t.core c).aww.filter fun w => w.1 == key).getLast? with
          | some w => w.2.toNat
          | none => accContainer ((t.core c).accGet key))
        let new := ofBytes ((upto e 8).map fun x =>
          if o ≤ x ∧ x < o + bs.length then bs.getD (x - o) 0 else old.getD (x - e) 0)
        if (t.core c).namesSet (r / 0x20000) || !((t.core c).aww.filter fun w => w.1 / 4096 == r / 0x20000).isEmpty then
          t.modCore c fun x => { x with aww := x.aww ++ [(key, BitVec.ofNat 64 new)] }
        else t.modCore c fun x => x.accWindow key new
      else t) s

/-- A store to memory joins the pending stores granule by granule; one that needs a 4,097th granule first commits the
phase early (R199). -/
def State.pendStore (s : State) (k a : Nat) (bs : List Byte) : State :=
  (granPieces a bs.length).foldl
    (fun t p =>
      let gs := pendGrans (t.core k).pend
      let u := if !gs.contains (p.1 / 16) && decide (4096 ≤ gs.length) then t.earlyCommit k else t
      u.modCore k fun c => c.hold_ (cellsAt p.1 ((bs.drop (p.1 - a)).take p.2))) s

/-- Write bytes of one granule of core c's window (R186): scratch, accumulators, or a whole entry of q25; a write of fewer than
16 bytes to the queue granule pushes nothing, a DESIGN CHOICE (notes/assumptions/65.md). -/
def State.writeWin (s : State) (v : View) (c o : Nat) (full : Bool) (bs : List Byte) : State :=
  if o < 0x200000 then s.scrWrite v c false o bs full
  else if o < 0x280000 then s.accWindowWrite c o bs
  else if o = 0x280000 ∧ bs.length = 16 then
    let e : Ev25 := ⟨BitVec.ofNat 128 (ofBytes bs), 0, none⟩
    s.modCore c fun x => if s.haltedCore c then { x with hbuf := x.hbuf ++ [.ev e] } else { x with q25 := x.q25 ++ [e] }
  else s

/-- Write bytes of a target by core k at once (scratch, elastic, window); memory goes to the pending stores.
`full` sets F of scratch granules written. -/
def State.writeTgt (s : State) (k : Nat) (t : Tgt) (bp full : Bool) (bs : List Byte) : State :=
  match t with
  | .loc c o => s.scrWrite (s.core k).clk c bp o bs full
  | .ela o => s.granWrite (s.core k).clk (s.core k).res.elastic o bs full
  | .mem _ a => s.pendStore k a bs
  | .win c o =>
    match s.meet (s.core k).res.ctx c with
    | .block =>
      (granPieces o bs.length).foldl (fun u p => u.writeWin (s.core k).clk c p.1 full ((bs.drop (p.1 - o)).take p.2)) s
    | _ => s

/-- A store by the current stream, on core k: one on path 3 commits the phase early (R165, R199); the stream's later reads
follow it (R263). -/
def State.storeTgt (s : State) (k : Nat) (t : Tgt) (bp full : Bool) (bs : List Byte) : State :=
  (match t with
    | .win _ _ => (s.earlyCommit k).writeTgt k t bp full bs
    | _ => s.writeTgt k t bp full bs).orderReads

/-- Consecutive bytes among ascending cells, as runs. -/
def runsOf : List (Nat × Byte) → List (Nat × List Byte)
  | [] => []
  | (a, b) :: r =>
    match runsOf r with
    | [] => [(a, [b])]
    | (x, bs) :: q => if x = a + 1 then (a, b :: bs) :: q else (a, [b]) :: (x, bs) :: q

/-- Bytes of one granule as its data and their mask. -/
def cellsGran (cs : List (Nat × Byte)) : Gran × Nat :=
  cs.foldl (fun a c => (patchGran a.1 c.1 [c.2], Nat.lor a.2 (2 ^ c.1))) (0, 0)
/-- A store by the current stream, on core k, of some bytes of one granule, given by their places in it, in one operation
(R181, R203); `t` names the granule's first byte. -/
def State.storeGran (s : State) (k : Nat) (t : Tgt) (bp full : Bool) (cs : List (Nat × Byte)) : State :=
  let d := cellsGran cs
  let v := (s.core k).clk
  match t with
  | .loc c o => (s.granPut v (.scr c) (s.scrOff c bp o / 16) d.1 d.2 full).orderReads
  | .ela o => (s.granPut v (s.core k).res.elastic (o / 16) d.1 d.2 full).orderReads
  | .mem _ a => (cs.foldl (fun u c => u.pendStore k (a + c.1) [c.2]) s).orderReads
  | .win c o =>
    let u := s.earlyCommit k
    if o < 0x200000 ∧ s.meet (s.core k).res.ctx c = .block then
      (u.granPut (u.core k).clk (.scr c) (u.scrOff c false o / 16) d.1 d.2 full).orderReads
    else (runsOf cs).foldl (fun w r => w.storeTgt k (.win c (o + r.1)) bp full r.2) u

/-- Whether a write of n bytes pushes an entry into a q25 that is full (R186). -/
def State.pushFull (s : State) (k : Nat) (t : Tgt) (n : Nat) : Bool :=
  match t with
  | .win c o => decide (o ≤ 0x280000 ∧ 0x280010 ≤ o + n ∧ 64 ≤ (s.core c).qUsed 25) &&
      s.meet (s.core k).res.ctx c == .block
  | _ => false

/-- The address a target names, for a record. -/
def Tgt.addr : Tgt → Nat
  | .loc _ o => o
  | .ela o => o
  | .mem _ a => a
  | .win c o => onChipBase + c * 2 ^ 23 + o

/-- The granule of a scratch target that holds its first byte: where and number; none off scratch. -/
def State.tgtGran (s : State) (k : Nat) (t : Tgt) (bp : Bool) : Option (Where × Nat) :=
  match t with
  | .loc c o => some (.scr c, s.scrOff c bp o / 16)
  | .ela o => some ((s.core k).res.elastic, o / 16)
  | .win c o => if o < 0x200000 then some (.scr c, s.scrOff c false o / 16) else none
  | .mem _ _ => none

/-! ### Tensor checks (R193) -/

/-- The first three checks of R193. -/
def tensorFault (h : Handle) (t : Word) : Option Flt :=
  if !hValid h then some accBounds
  else if tStride t < rowBytes t (scratchLayout h) then some accBounds
  else if hLen h < footprint t (scratchLayout h) then some accBounds
  else none

/-- The scratch rules of R12 and R26 for a whole tensor. -/
def State.tensorScratch (s : State) (h : Handle) (t : Word) (bp : Bool) : Option Flt :=
  s.tgtFault (hTgt s.cur h (hBase h)) bp (footprint t (scratchLayout h))

/-- The checks of R193 and R195 for one handle and shape pair used by an agent; the bytes accessed are checked against
SCRBYTES at the access (R26). -/
def tensorCheck (h : Handle) (t : Word) (agent : Nat) (write bp : Bool) : Option Flt :=
  match tensorFault h t with
  | some f => some f
  | none =>
    match usePerm h agent write with
    | some f => some f
    | none => if bp && hKind h != 1 then some accPerm else none

/-- First of several checks. -/
def firstFlt : List (Option Flt) → Option Flt
  | [] => none
  | some f :: _ => some f
  | none :: r => firstFlt r

/-! ### Clipping (R194) -/

/-- Where element (i, j) of an access is taken: its own place, a clamped place, or nowhere. -/
def clipElem (clip : Clip) (t : Word) (i j : Int) : Option (Nat × Nat) :=
  if 0 ≤ i ∧ i < tRows t ∧ 0 ≤ j ∧ j < tCols t then some (i.toNat, j.toNat)
  else match clip with
    | .clamp => some ((min (max i 0) (tRows t - 1)).toNat, (min (max j 0) (tCols t - 1)).toNat)
    | _ => none
/-- Whether element (i, j) lies inside the shape. -/
def inShape (t : Word) (i j : Int) : Bool := decide (0 ≤ i ∧ i < tRows t ∧ 0 ≤ j ∧ j < tCols t)

/-- A scalar as a signed coordinate. -/
def coord (w : Word) : Int := sgn 64 w.toNat

/-! ### Vector operands (R97, R217, R219) -/

/-- The sources of a vector form, popped in order; none while a queue among them is empty.  Entries popped stand in
`opbuf` until the form issues. -/
def State.popSrc (s : State) (x : VSrc) : Option (QEntry × State) :=
  match x with
  | .v n => some (⟨s.me.r.vr[n], BitVec.allOnes 64⟩, s)
  | .z => some (⟨0, BitVec.allOnes 64⟩, s)
  | .q n =>
    match s.me.r.qv.toList.getD n.val [] with
    | [] => none
    | e :: r => some (e, s.modRegs fun x => { x with qv := x.qv.set (Fin.ofNat 5 n.val) r })

end Sys2Proof.Machine
end

