-- ==== Sys2Proof/Machine/Fetch.lean ====
section
/-!
DEFINITION. Sys2Proof/Machine/Fetch.lean: lines and the fetch checks (R8, R77 to R82), and how a stream finds its next form
(R80, R83, R108).
-/
namespace Sys2Proof.Machine
open Sys2Proof

/-- CODELINES of a block's image (R10). -/
def Resident.codelines (r : Resident) : Nat := bits (r.hw 1) 63 40
/-- The eight lanes of line n of a block's image (R8, R77). -/
def State.lineOf (s : State) (r : Resident) (n : Nat) : List Nat :=
  (upto 0 8).map fun k => s.peek (r.img + 512 + 32 * n + 4 * k) 4
/-- Header nibble n of a line (R77). -/
def tagOf (l : List Nat) (n : Nat) : Nat := bits (l.getD 0 0) (4 * n + 3) (4 * n)
/-- The branch-target flag (R77). -/
def flagged (l : List Nat) : Bool := bit (l.getD 0 0) 3
/-- Whether a line may be a branch target: the fault of R79 and R153 otherwise. -/
def State.targetFault (s : State) (r : Resident) (n : Nat) : Option Nat :=
  if r.codelines ≤ n then some 0x26 else if flagged (s.lineOf r n) then none else some 0x25

/-- The space of a tag (R77). -/
def tagSpace : Nat → Option Space
  | 1 => some .c
  | 2 => some .a
  | 3 => some .v
  | 4 => some .all
  | _ => none
/-- Lanes tagged 5 directly after lane n, looking at most k lanes ahead. -/
def contCount : Nat → List Nat → Nat → Nat
  | 0, _, _ => 0
  | k + 1, l, n => if tagOf l (n + 1) = 5 then contCount k l (n + 1) + 1 else 0

/-- The fetch check of one lane (R79): code and detail.  Where an ALL lane fails both a lane-count row and the token-bit row
of Table 2 the manual does not say which detail is reported: the lane count comes first, a DESIGN CHOICE
(notes/assumptions/52.md). -/
def laneFault (l : List Nat) (n : Nat) : Option (Nat × Nat) :=
  if n = 0 then (if bits (l.getD 0 0) 2 0 = 0 then none else some (0x23, 0x07))
  else
    let t := tagOf l n
    if 6 ≤ t then some (0x24, 0)
    else if t = 5 then (if n = 1 ∨ tagOf l (n - 1) = 0 then some (0x23, 0x06) else none)
    else match tagSpace t with
      | none => none
      | some sp =>
        match laneCount sp (bits (l.getD n 0) 23 16) with
        | none => if sp = .all ∧ bits (l.getD n 0) 27 24 ≠ 0 then some (0x23, 0x08) else none
        | some k =>
          if contCount (7 - n) l n + 1 ≠ k then some (0x23, 0x06)
          else if sp = .all ∧ bits (l.getD n 0) 27 24 ≠ 0 then some (0x23, 0x08)
          else none

/-- The lowest faulting lane from n up (R79). -/
def lineFaultFrom : Nat → List Nat → Nat → Option (Nat × Nat × Nat)
  | 0, _, _ => none
  | k + 1, l, n =>
    match laneFault l n with
    | some f => some (f.1, f.2, n)
    | none => lineFaultFrom k l (n + 1)
def lineFault (l : List Nat) : Option (Nat × Nat × Nat) := lineFaultFrom 8 l 0

/-- Whether a tag belongs to a stream (R80): its own or ALL. -/
def ownTag (m : Stm) (t : Nat) : Bool := t == 4 || t == (match m with
  | .c => 1 | .a => 2 | .v => 3)
/-- The first lane from n up, k lanes at most, that belongs to a stream. -/
def nextLane : Nat → Stm → List Nat → Nat → Option Nat
  | 0, _, _, _ => none
  | k + 1, m, l, n => if ownTag m (tagOf l n) then some n else nextLane k m l (n + 1)

/-- The smallest LSEQ of the three streams (R82). -/
def Regs.minLseq (r : Regs) : Nat := min r.c.pos.lseq (min r.a.pos.lseq r.v.pos.lseq)

/-- Whether the current core's streams may issue at all. -/
def State.mayIssue (s : State) (dbg : Bool) : Bool :=
  let c := s.me
  match c.blk with
  | none => false
  | some r =>
    let t := s.ctx r.ctx.val
    !s.down && !t.stopped && (dbg || !t.halted || c.underWay) && c.mark != .dying && !c.ended && c.retr.isEmpty && !(s.strm == .c && c.tfault.isSome)

/-- C's position after a faulting lane is named. -/
def State.atLane (s : State) (n : Nat) : State := s.modSt fun x => { x with pos := { x.pos with lane := n } }

/-- What a stream meets next: a state in which it issues nothing this time, a form to execute, or a line or form that
the checks refuse: code, detail, lane (R79, R80, R82, R83, R108, R155). -/
inductive Next where
  | idle (s : State)
  | form (s : State) (i : Instr)
  | bad (s : State) (code detail lane : BitVec 8)

/-- The forms that leave a quiet point open (R176). -/
def keepsQuiet : Instr → Bool
  | .xlate .. | .probe .. => true
  | .qsend .. | .qrecv .. | .qtest .. => false
  | i => i.spaces.contains .a && i.spaces.contains .v

/-- The aligning forms PHASE, QUIET, TRAPF and KEND (R84, R106). -/
def alignOp (op : Nat) : Bool := decide (7 ≤ op ∧ op ≤ 10)

/-- A and V at an ALL form: they decode nothing and take its effect from the steer entry, or wait: for the entry, or at an
aligning form, which has none, for the other streams (R83, R84, R108). -/
def State.steered (s : State) (op : Nat) : Next :=
  match s.st.steer with
  | e :: _ => .form s e.form
  | [] => .idle (s.blocked (if alignOp op then .align else .loose))
/-- Whether a form names a scalar into which an answer of Campion has still to come (R140, R286). -/
def State.awaited (s : State) (i : Instr) : Bool := s.st.await.any fun d => (Instr.names i).s.contains d.val
/-- The form at lane n of a line for the current stream: its own, or an ALL form decoded by C (R108). -/
def State.decodeAt (s : State) (l : List Nat) (n : Nat) : Next :=
  let st := s.atLane n
  match tagSpace (tagOf l n) with
  | none => .idle st
  | some sp =>
    if sp = .all ∧ s.strm ≠ .c then st.steered (bits (l.getD n 0) 23 16)
    else
      match decodeForm sp (l.getD n 0) (l.getD (n + 1) 0) (l.getD (n + 2) 0) with
      | .error e => .bad st 0x23 e.detail (BitVec.ofNat 8 n)
      | .ok i =>
        if !declaredOk s.res.hdr s.strm i then .bad st 0x27 0 (BitVec.ofNat 8 n)
        else if st.awaited i then .idle (st.blocked .other)
        else if s.strm = .c ∧ !keepsQuiet i then .form (st.modMe fun c => { c with quietPt := false }) i
        else .form st i

/-- A stream that skips to an ENDL passes one form (R155). -/
def State.passForm (s : State) (l : List Nat) (n : Nat) (ln : Fin 8) : State :=
  let w := l.getD n 0
  let hit := tagOf l n == 4 && bits w 23 16 == 0x05 && bits w 15 13 == ln.val
  ((s.atLane n).modSt fun x => { x with skip := if hit then none else x.skip }).advance

/-- The next form of the current stream on its current line, or the next line. -/
def State.inLine (s : State) (l : List Nat) : Next :=
  let p := s.st.pos
  match nextLane (8 - p.lane) s.strm l p.lane with
  | none =>
    .idle ((s.modSt fun x => { x with pos := ⟨p.line + 1, 1, p.lseq + 1⟩, begun := false, blk := .run }).modMe Core.wake)
  | some n =>
    match s.st.skip with
    | some ln => .idle (s.passForm l n ln)
    | none => s.decodeAt l n

/-- Begin the line if it is not begun (R79, R82), then look for the next form. -/
def State.fetchForm (s : State) (dbg : Bool) : Next :=
  if !s.mayIssue dbg then .idle s
  else
    let r := s.res
    let p := s.st.pos
    if !s.st.begun && decide (s.me.r.minLseq + s.me.r.win < p.lseq) then .idle (s.blocked .loose)
    else if r.codelines ≤ p.line then .bad s 0x26 0 0
    else
      let l := s.lineOf r p.line
      if s.st.begun then s.inLine l
      else match lineFault l with
        | some f => .bad s (BitVec.ofNat 8 f.1) (BitVec.ofNat 8 f.2.1) (BitVec.ofNat 8 f.2.2)
        | none => (s.modSt fun x => { x with begun := true }).inLine l

end Sys2Proof.Machine
end

