-- ==== Sys2Proof/Machine/Push.lean ====
section
/-!
DEFINITION. Sys2Proof/Machine/Push.lean: how C places an entry in an engine queue, after the shadow comparison (R256, R370), and
a debugger halt (R360).
-/
namespace Sys2Proof.Machine
open Sys2Proof

/-- A shadow mismatch: nothing is placed, and it is trigger 0x41 (R370). -/
def State.mismatch (s : State) : Res := .stop ((s.modMe fun c => { c with injArm := false }).streamTrigger 0x41 0)
/-- Place an entry in one of q10 to q24: after the shadow comparison C waits, in the way given, while the queue is full (R187,
R241, R248, R370). -/
def State.enginePushOn (s : State) (b : Blk) (full : Bool) (put : State → State) : Res :=
  if s.me.injArm then s.mismatch
  else if full then .wait b s
  else .done (put s).orderReads
def State.enginePush (s : State) (full : Bool) (put : State → State) : Res := s.enginePushOn .engineQ full put

/-- One more command of q11 to q23 (R396 ENGCMD). -/
def State.countCmd (s : State) : State := s.modMe fun c => { c with nCmds := c.nCmds + 1 }

/-- A place that no command field uses. -/
def Place.none : Place := ⟨.mem, 0, 0, 0, 0⟩

/-- Place a command in q11 (R249). -/
def State.pushMx (s : State) (x : MxCmd) : Res :=
  s.enginePushOn .q11 (decide (16 ≤ s.me.q11.length + b2n s.me.mx.isSome)) fun t =>
    let v := t.engView t.cur t.cur
    (v.2.modMe fun c => { c with q11 := c.q11 ++ [{ x with view := v.1 }] }).countCmd

/-- Halt a context for the debugger (R360): CTXSTAT, the event, the interrupt. -/
def State.haltCtx (s : State) (c k brk : Nat) : State :=
  if (s.ctx c).halted then s
  else (((s.modCtx c fun t => { t with halted := true }).logEv { s.evOf k 0x09 0x61 brk with ctx := c, p0 := brk }).raiseCtx c 2)

/-- A form's fault as the end of its effects. -/
def State.fault (s : State) (f : Flt) (aux : Nat) : Res := .stop (s.fatal f.1 f.2 aux)

end Sys2Proof.Machine
end

