-- ==== Sys2Proof/Machine/Handles.lean ====
section
/-!
DEFINITION. Sys2Proof/Machine/Handles.lean: extents, translation, and the handle and shape-record forms (R168, R172 to R176,
R188 to R192).
-/
namespace Sys2Proof.Machine
open Sys2Proof

/-! ### Translation (R174 to R176) -/

/-- The valid extent that maps virtual address v, with its index (R174). -/
def Ctx.findExt (t : Ctx) (v : Nat) : Option (Nat × Extent) :=
  t.exts.find? fun e => xValid e.2 && decide (xFirst e.2 ≤ v ∧ v < xTop e.2)

/-- Tiers a path allows (R164 Table 1). -/
def pathAllowed (path tier : Nat) : Bool := match path with
  | 0 => tier ≤ 1 | 1 => tier ≤ 1 | 2 => tier ≤ 2 | 3 => tier == 4 | 4 => tier == 2 | 5 => tier == 3 | _ => false

/-- Whether a context holds a lease in force on a channel (R309). -/
def State.leased (s : State) (c ch : Nat) : Bool := (mget s.leases ch).any fun l => l.ctx.val == c && !l.lapsed
/-- Whether an extent's channel is leased no more to its context (R174, R309). -/
def State.lapsed (s : State) (c : Nat) (x : Extent) : Bool :=
  xTier x == 2 && !(leaseChannel (xBase x)).any fun ch => s.leased c ch

/-- The extent a handle names (R177). -/
def handleExts (h : Handle) : List Nat := if hKind h = 0 then [hExt h] else []
/-- The fault of a command of context c that names an extent whose lease has lapsed (R309). -/
def State.leaseFaultOf (s : State) (c : Nat) (ids : List Nat) : Option Flt :=
  if ids.any fun n => s.lapsed c ((s.ctx c).ext n) then some (0x13, 0) else none
/-- The same of the form that C issues. -/
def State.leaseFault (s : State) (ids : List Nat) : Option Flt := s.leaseFaultOf s.cx ids
/-- The checks that XLATE and PROBE share, in order (R174, R175): a fault, or the extent. -/
def State.lookup (s : State) (c a : Nat) : Except Flt (Nat × Extent) :=
  match (s.ctx c).findExt (a % 2 ^ 60) with
  | none => .error (0x10, 0)
  | some e =>
    if xRvk e.2 then .error (0x11, 0)
    else if s.lapsed c e.2 then .error (0x13, 0)
    else .ok e

/-- A handle of KIND 0 over an extent (R172). -/
def extHandle (id : Nat) (x : Extent) (path a len : Nat) : Handle :=
  mkHandle (2 ^ 127 + path * 2 ^ 120 + xTier x * 2 ^ 117 + xLog x * 2 ^ 111 + xAtc x * 2 ^ 109 + b2n (xRo x) * 2 ^ 108 +
    id * 2 ^ 94 + xPerm x * 2 ^ 70 + xFrame x * 2 ^ 32) a len

/-- XLATE's result for address a and length len (R174). -/
def State.translate (s : State) (c a len : Nat) : Except Flt Handle :=
  match s.lookup c a with
  | .error f => .error f
  | .ok e =>
    let path := bits a 63 60
    let v := a % 2 ^ 60
    if !pathAllowed path (xTier e.2) then .error (0x12, 0)
    else
      let n := if len = 0 then xTop e.2 - v else len
      if xTop e.2 < v + n then .error (0x10, 1) else .ok (extHandle e.1 e.2 path a n)

/-- The probe word (R175 Table 7). -/
def probeWord (id : Nat) (x : Extent) (a : Nat) : Word :=
  w64 (2 ^ 63 + xTier x * 2 ^ 60 + xLog x * 2 ^ 54 + xAtc x * 2 ^ 52 + b2n (xRo x) * 2 ^ 51 + id * 2 ^ 37 +
    (a % 2 ^ 60 - xFirst x))

/-- A translation fault of the form C issues: exact inside a quiet point, else the context stops (R176). -/
def State.transFault (s : State) (f : Flt) (a : Nat) : Res :=
  if s.me.quietPt then .wait .other (s.modMe fun c => { c with tfault := some (f.1, f.2, a) }) else s.fault f a

/-- Write a new version of a handle, or wait for one of its versions to be freed (R90). -/
def State.putH (s : State) (i : HIx) (x : Handle) : Res :=
  match s.writeH i x with
  | some t => .done t
  | none => .wait .loose s
/-- Write a new version of a shape record (R90). -/
def State.putT (s : State) (i : TIx) (x : Word) : Res :=
  match s.writeT i x with
  | some t => .done t
  | none => .wait .loose s
/-- C's newest version of a handle or shape record. -/
def State.newH (s : State) (i : HIx) : Handle := (s.readH i).getD 0
def State.newT (s : State) (i : TIx) : Word := (s.readT i).getD 0

def execXlate (h : Head) (hd : HIx) (a b : SIx) (s : State) : Out :=
  .next (s.issue h fun t =>
    match t.translate t.cx (t.sr a).toNat (t.sr b).toNat with
    | .error f => t.transFault f (t.sr a).toNat
    | .ok x => t.putH hd x)
def execProbe (h : Head) (d a : SIx) (s : State) : Out :=
  .next (s.issue h fun t =>
    match t.lookup t.cx (t.sr a).toNat with
    | .error f => t.transFault f (t.sr a).toNat
    | .ok e => .done (t.setS d (probeWord e.1 e.2 (t.sr a).toNat)))

/-- HLOC's result (R191). -/
def hloc (scr llc a len : Nat) : Except Flt Handle :=
  let k := bits a 63 60
  let o := a % 2 ^ 60
  if 2 ≤ k then .error accBounds
  else
    let lim := if k = 0 then scr else llc
    let n := if len = 0 then lim - o else len
    if lim < o + n ∨ n = 0 then .error undeclared else .ok (mkHandle (2 ^ 127 + (k + 1) * 2 ^ 124) o n)
def execHloc (h : Head) (hd : HIx) (a b : SIx) (s : State) : Out :=
  .next (s.issue h fun t =>
    match hloc (scrbytes t.res.hdr) t.res.llc (t.sr a).toNat (t.sr b).toNat with
    | .error f => t.fault f (t.sr a).toNat
    | .ok x => t.putH hd x)
def execHmov (h : Head) (hd hs : HIx) (s : State) : Out := .next (s.issue h fun t => t.putH hd (t.newH hs))

/-- HSUB's result (R192). -/
def hsub (x : Handle) (t : Word) (i j : Nat) : Except Flt Handle :=
  let ty := tType t
  let off := i * tStride t + j * elemW ty (scratchLayout x) / 8
  if !hValid x then .error accBounds
  else if ty.isBx ∨ (ty.width = 4 ∧ j % 2 = 1) then .error accBounds
  else if hLen x ≤ off then .error accBounds
  else .ok (mkHandle (x.toNat / 2 ^ 128) (hBase x + off) (hLen x - off))
def execHsub (h : Head) (hd hs : HIx) (tt : TIx) (i j : SIx) (s : State) : Out :=
  .next (s.issue h fun t =>
    match hsub (t.newH hs) (t.newT tt) (t.sr i).toNat (t.sr j).toNat with
    | .error f => t.fault f (hBase (t.newH hs))
    | .ok x => t.putH hd x)

/-- One field of a handle (R190). -/
def hget (x : Handle) : HField → Nat
  | .valid => b2n (hValid x)
  | .kind => hKind x
  | .path => hPath x
  | .tier => hTier x
  | .log2sz => hLog x
  | .atc => hAtc x
  | .ro => b2n (hRo x)
  | .extid => hExt x
  | .perm => hPerm x
  | .frame => hFrame x
  | .base => hBase x
  | .len => hLen x
def execHget (h : Head) (d : SIx) (hs : HIx) (f : HField) (s : State) : Out :=
  .next (s.issue1 h fun t => t.setS d (w64 (hget (t.newH hs) f)))
def execTset (h : Head) (td : TIx) (imm : BitVec 64) (s : State) : Out := .next (s.issue h fun t => t.putT td imm)
/-- One field of a shape record (R190). -/
def tget (x : Word) : TField → Nat
  | .whole => x.toNat
  | .type => bits x.toNat 63 59
  | .place => tPlace x
  | .rows => tRows x
  | .cols => tCols x
  | .rstride => tStride x
def execTget (h : Head) (d : SIx) (ts : TIx) (f : TField) (s : State) : Out :=
  .next (s.issue1 h fun t => t.setS d (w64 (tget (t.newT ts) f)))

end Sys2Proof.Machine
end

