-- ==== Sys2Proof/Machine/LoadStore.lean ====
section
/-!
DEFINITION. Sys2Proof/Machine/LoadStore.lean: scalar access, atomics and the vector queue forms of A (R196 to R204).
-/
namespace Sys2Proof.Machine
open Sys2Proof

/-- The agent number of a stream (R170). -/
def Stm.agent : Stm → Nat
  | .c => 0 | .a => 1 | .v => 1

/-- Read a handle by version, or wait for C (R90). -/
def State.withH (s : State) (i : HIx) (k : Handle → Res) : Res :=
  match s.readH i with
  | some x => k x
  | none => .wait .loose s
/-- Read a shape record by version, or wait for C (R90). -/
def State.withT (s : State) (i : TIx) (k : Word → Res) : Res :=
  match s.readT i with
  | some x => k x
  | none => .wait .loose s

/-! ### Scalar access (R197) -/

/-- HS.BASE + SB + SignExtend(DISP21). -/
def scalarAddr (x : Handle) (b : Word) (disp : BitVec 21) : Nat :=
  (hBase x + b.toNat + (disp.signExtend 64).toNat) % 2 ^ 64

/-- The checks of a scalar access of n bytes (R170, R173, R196, R198): `scr` for one that needs a scratch granule, which a window's
accumulators and queue area have not: a DESIGN CHOICE (notes/assumptions/73.md). -/
def State.scalarCheck (s : State) (x : Handle) (a n : Nat) (rd wr scr : Bool) : Option Flt :=
  firstFlt
    [ if hValid x && decide (hBase x ≤ a ∧ a + n ≤ hBase x + hLen x) then none else some accBounds,
      if a % n = 0 then none else some accBounds,
      if rd then usePerm x (Stm.agent s.strm) false else none,
      if wr then usePerm x (Stm.agent s.strm) true else none,
      if scr && (!scratchLayout x || (s.tgtGran s.cur (hTgt s.cur x a) false).isNone) then some accPerm else none,
      s.tgtFault (hTgt s.cur x a) false n ]

/-- F and P of the granule that a target lies in. -/
def State.granBits (s : State) (t : Tgt) : Bool × Bool :=
  match s.tgtGran s.cur t false with
  | some g => ((s.gran g.1 g.2).full, (s.gran g.1 g.2).pois)
  | none => (false, false)
/-- Whether a target lies at a core between two blocks of the context: nothing is written there (R395). -/
def State.discards (s : State) (t : Tgt) : Bool :=
  match t with
  | .win c _ => s.meet s.res.ctx c != .block
  | _ => false
/-- Set or clear F of that granule. -/
def State.setGranFull (s : State) (t : Tgt) (f : Bool) : State :=
  match (if s.discards t then none else s.tgtGran s.cur t false) with
  | some g => s.granSetFull g.1 [g.2] f
  | none => s

/-- What a stream read that met poisoned or uncorrectable data does: a containment trigger (R183, R363). -/
def State.readTrigger (s : State) (g : Got) (t : Tgt) : Option State :=
  if g.pois then some (s.streamTrigger 0x42 t.addr)
  else if g.unc then some (s.streamTrigger 0x40 t.addr)
  else none

/-- How a load reads under its full/empty code (R198). -/
def Fe.rd (fe : Fe) (latest : Bool) : Rd := if fe != .plain then .full else if latest then .late else .plain
/-- A loaded value in a scalar (R198). -/
def loadValue (ty : Ty) (w : Nat) : Word := if ty.isInt then w64 (wrap 64 (intOf ty w)) else w64 w

/-- LD and LDL. -/
def State.loadForm (s : State) (hs : HIx) (d b : SIx) (ty : Ty) (fe : Fe) (disp : BitVec 21) (latest : Bool) : Res :=
  s.withH hs fun x =>
    let a := scalarAddr x (s.sr b) disp
    let n := ty.width / 8
    let g := hTgt s.cur x a
    match s.scalarCheck x a n true false (fe != .plain) with
    | some f => s.fault f a
    | none =>
      if fe != .plain && !(s.granBits g).1 then .wait .other s
      else
        let r := s.readTgt s.cur g false (Fe.rd fe latest) n
        match r.s.readTrigger r g with
        | some t => .stop t
        | none => .done ((if fe = .two then r.s.setGranFull g false else r.s).setS d (loadValue ty (ofBytes r.data)))
def execLd (h : Head) (hs : HIx) (d b : SIx) (ty : Ty) (fe : Fe) (disp : BitVec 21) (s : State) : Out :=
  .next (s.issue h fun t => t.loadForm hs d b ty fe disp false)
def execLdl (h : Head) (hs : HIx) (d b : SIx) (ty : Ty) (disp : BitVec 21) (s : State) : Out :=
  .next (s.issue h fun t => t.loadForm hs d b ty .plain disp true)

/-- ST: Bits(SA, w − 1, 0), under its full/empty code. -/
def State.storeForm (s : State) (hs : HIx) (a b : SIx) (ty : Ty) (fe : Fe) (disp : BitVec 21) : Res :=
  s.withH hs fun x =>
    let ad := scalarAddr x (s.sr b) disp
    let n := ty.width / 8
    let g := hTgt s.cur x ad
    match s.scalarCheck x ad n false true (fe != .plain) with
    | some f => s.fault f ad
    | none =>
      if fe = .one ∧ (s.granBits g).1 then .wait .other s
      else .done (s.storeTgt s.cur g false (fe != .plain) (toBytes n (s.sr a).toNat))
def execSt (h : Head) (hs : HIx) (a b : SIx) (ty : Ty) (fe : Fe) (disp : BitVec 21) (s : State) : Out :=
  .next (s.issue h fun t => t.storeForm hs a b ty fe disp)

def execGtest (h : Head) (hs : HIx) (d b : SIx) (disp : BitVec 21) (s : State) : Out :=
  .next (s.issue h fun t => t.withH hs fun x =>
    let a := scalarAddr x (t.sr b) disp
    match t.scalarCheck x a 1 true false true with
    | some f => t.fault f a
    | none =>
      let g := t.granBits (hTgt t.cur x a)
      .done (t.setS d (w64 (b2n g.1 + 2 * b2n g.2))))
/-- F ← Bits(SA, 0, 0); through path 3 it is a write that commits the phase early, as a store is (R165). -/
def execGset (h : Head) (hs : HIx) (a b : SIx) (disp : BitVec 21) (s : State) : Out :=
  .next (s.issue h fun t => t.withH hs fun x =>
    let ad := scalarAddr x (t.sr b) disp
    let g := hTgt t.cur x ad
    match t.scalarCheck x ad 1 false true true with
    | some f => t.fault f ad
    | none =>
      let u := match g with
        | .win _ _ => t.earlyCommit t.cur
        | _ => t
      .done (u.setGranFull g ((t.sr a).getLsbD 0)).orderReads)

/-! ### Atomics (R200, R201) -/

/-- The new value of AMO at width w. -/
def amoNew (op : AOp) (w old v : Nat) : Nat :=
  match op with
  | .swap => v
  | .add => (old + v) % 2 ^ w
  | .and => Nat.land old v
  | .or => Nat.lor old v
  | .xor => Nat.xor old v
  | .min => if sgn w old < sgn w v then old else v
  | .max => if sgn w old < sgn w v then v else old
  | .minn => min old v
  | .maxn => max old v

/-- Whether an order releases, acquires. -/
def Ord.rels : Ord → Bool
  | .rel | .acqrel => true
  | _ => false
def Ord.acqs : Ord → Bool
  | .acq | .acqrel => true
  | _ => false

/-- The checks of R171 and R165 for an atomic: `cas` for ACAS, `plain` for an AMO that path 5 carries. -/
def State.atomicCheck (s : State) (x : Handle) (a : Nat) (cas plain : Bool) : Option Flt :=
  firstFlt
    [ if hKind x = 0 ∧ (hAtc x = 2 ∨ hAtc x = 1 ∧ !cas) then some (0x2A, 0) else none,
      match hTgt s.cur x a with
      | .win _ o => if o < 0x200000 then none else some accPerm
      | _ => none,
      if hKind x = 0 ∧ hPath x = 5 ∧ !cas ∧ !plain then some (0x2A, 0) else none ]

/-- Write the result of an atomic at its target by the current stream, at once: on memory a write that follows what happens
before it, and an own write in the core's view (R268). -/
def State.atomicWrite (s : State) (g : Tgt) (bs : List Byte) : State :=
  match g with
  | .mem _ a =>
    let me := atomAgent s.cur s.strm
    let t := s.memWrite me s.me.clk (cellsAt a bs)
    t.modMe fun c => { c with
      clk := c.clk.put me t.wseq
      seen := (cellsAt a bs).foldl (fun q x => mdel q x.1) c.seen }
  | _ => s.writeTgt s.cur g false false bs
/-- What the value that an atomic reads teaches its core (R267). -/
def State.atomicLearn (s : State) (g : Tgt) (n : Nat) : State :=
  match g with
  | .mem _ a => s.learnReads s.cur (s.newestOf a n)
  | _ => match s.tgtGran s.cur g false with
    | some w => s.learnReads s.cur (s.writersOf w.1 (16 * w.2 + g.addr % 16) n)
    | none => s

/-- Publications of core k that touch a granule, from the oldest to the last of them. -/
def Core.commUpTo (c : Core) (g : Nat) : Nat :=
  (upto 0 c.comm.length).foldl (fun n i => if ((c.comm.getD i ([], [])).1.any fun x => x.1 / 16 == g) then i + 1 else n) 0
/-- The commit of an atomic that does not release (R268): the stores to its own granule are published first; how much of the
rest is, before the atomic is performed, the manual leaves open. -/
def State.atomicCommit1 (s : State) (a : Nat) : State :=
  let k := s.cur
  let s1 := (s.modMe fun c => (c.commitStores fun x => x / 16 == a / 16).commitStores fun _ => true)
  let s2 := s1.flushComm (s1.me.commUpTo (a / 16)) k
  let s3 := if s2.me.comm.isEmpty then s2 else s2.draw.2.flushComm (s2.draw.1 % (s2.me.comm.length + 1)) k
  s3.modCore k (Core.commitPhase (s3.efpOf k))
/-- The commit an atomic makes at issue: one on memory or path 3, and one on elastic scratch whose release acts at scope
die (R201, R264, R268). -/
def State.atomicCommit (s : State) (g : Tgt) (ord : Ord) : State :=
  match g with
  | .loc _ _ => s
  | .ela _ => if Ord.rels ord then s.earlyCommit s.cur else s
  | .mem _ a => if Ord.rels ord then s.earlyCommit s.cur else s.atomicCommit1 a
  | .win _ _ => s.earlyCommit s.cur

/-- Whether an atomic waits: for its row's way, for the stores to its own granule, or, where it releases, for the whole
commit (R266, R268, R303). -/
def State.atomicHeld (s : State) (g : Tgt) (ord : Ord) : Bool :=
  match g with
  | .loc _ _ => false
  | .mem _ a => s.rowsPinned [a] || if Ord.rels ord then !s.me.comm.isEmpty else decide (s.me.commUpTo (a / 16) ≠ 0)
  | _ => Ord.rels ord && !s.me.comm.isEmpty
/-- AMO and ACAS: `f w old` is the new value.  One that releases waits for the answers that earlier forms have still to get
(R266). -/
def State.atomicForm (s : State) (hs : HIx) (d b : SIx) (ty : Ty) (ord : Ord) (disp : BitVec 21)
    (cas plain : Bool) (f : Nat → Nat → Nat) : Res :=
  s.withH hs fun x =>
    let a := scalarAddr x (s.sr b) disp
    let n := ty.width / 8
    let g := hTgt s.cur x a
    match firstFlt [s.scalarCheck x a n true true false, s.atomicCheck x a cas plain] with
    | some e => s.fault e a
    | none =>
      if Ord.rels ord && !s.st.await.isEmpty then .wait .other s
      else match s.readTrigger (s.readTgt s.cur g false .newest n) g with
      | some t => .stop t
      | none =>
        let s1 := s.atomicCommit g ord
        if s1.atomicHeld g ord then .wait .other s1
        else
          let old := ofBytes (s1.readTgt s.cur g false .newest n).data
          let s2 := (((s1.atomicLearn g n).atomicWrite g (toBytes n (f ty.width old))).setS d (loadValue ty old)).orderReads
          .done (if Ord.acqs ord then s2.refresh s.cur else s2)

/-- SCP names the agents whose releases the acquire may pair with; what those are depends on the value read alone (R262). -/
def execAmo (h : Head) (hs : HIx) (d b : SIx) (ty : Ty) (ord : Ord) (_scp : Scp) (disp : BitVec 21) (v : SIx) (op : AOp)
    (s : State) : Out :=
  .next (s.issue h fun t =>
    t.atomicForm hs d b ty ord disp false (op == .swap || op == .add) fun w old =>
      amoNew op w old ((t.sr v).toNat % 2 ^ w))
def execAcas (h : Head) (hs : HIx) (d b : SIx) (ty : Ty) (ord : Ord) (_scp : Scp) (disp : BitVec 21) (v e : SIx)
    (s : State) : Out :=
  .next (s.issue h fun t =>
    t.atomicForm hs d b ty ord disp true false fun w old =>
      if old = (t.sr e).toNat % 2 ^ w then (t.sr v).toNat % 2 ^ w else old)

/-! ### Vector queue forms (R202 to R204) -/

/-- Element count and element width of a vector access: BX elements are bytes of scratch. -/
def vecW (t : Word) : Nat := if (tType t).isBx then 8 else (tType t).width
def vecN (t : Word) : Nat := 512 / vecW t

/-- Byte offset in the view of the byte that holds element (i, j) (R193). -/
def elemOff (t : Word) (i j : Int) : Int := i * tStride t + j * vecW t / 8

/-- The checks of LDQ and STQ at issue (R193 to R196, R202, R204).  STQ of a BX shape needs a scratch-layout handle as LDQ does
(R202; R203 does not say): a DESIGN CHOICE (notes/assumptions/73.md). -/
def vqFault (x : Handle) (t : Word) (i j : Int) (clip : Clip) (fe : Fe) (bp write : Bool) : Option Flt :=
  firstFlt
    [ tensorCheck x t 1 write bp,
      if (tType t).isBx && !scratchLayout x then some accBounds else none,
      if fe != .plain && !scratchLayout x then some accPerm else none,
      if vecW t = 4 then (if j % 2 = 0 then none else some accBounds)
      else if ((hBase x : Int) + elemOff t i j) % ((vecW t / 8 : Nat) : Int) = 0 then none else some accBounds,
      if clip = .none ∧ !(inShape t i j && inShape t i (j + (vecN t - 1 : Nat))) then some accBounds else none ]

/-- The places of the elements of a vector access (R194). -/
def vqElems (t : Word) (i j : Int) (clip : Clip) : List (Option (Nat × Nat)) :=
  (upto 0 (vecN t)).map fun (e : Nat) => clipElem clip t i (j + e)

/-- The run of view bytes that the accessed elements cover: first offset and length; they lie in one row. -/
def vqSpan (t : Word) (es : List (Option (Nat × Nat))) : Nat × Nat :=
  match es.filterMap id with
  | [] => (0, 0)
  | e :: r =>
    let lo := r.foldl (fun n x => min n x.2) e.2
    let hi := r.foldl (fun n x => max n x.2) e.2
    let b0 := e.1 * tStride t + lo * vecW t / 8
    (b0, e.1 * tStride t + hi * vecW t / 8 + max 1 (vecW t / 8) - b0)

/-- One element out of the bytes of a span that starts at view offset b0. -/
def vqElem (t : Word) (b0 : Nat) (bs : List Byte) (p : Nat × Nat) : Nat :=
  let o := p.1 * tStride t + p.2 * vecW t / 8 - b0
  if vecW t = 4 then bits (bs.getD o 0).toNat (4 * (p.2 % 2) + 3) (4 * (p.2 % 2))
  else ofBytes ((bs.drop o).take (vecW t / 8))

/-- The distinct granules under n bytes of a handle from view offset o. -/
def State.spanGrans (s : State) (x : Handle) (bp : Bool) (o n : Nat) : List (Where × Nat) :=
  (granPieces (hBase x + o) n).filterMap fun p => s.tgtGran s.cur (hTgt s.cur x p.1) bp

/-- Vector queue q4 + n. -/
def State.vq (s : State) (n : Nat) : List QEntry := s.me.r.qv[Fin.ofNat 5 n]
def State.setVq (s : State) (n : Nat) (l : List QEntry) : State :=
  s.modRegs fun r => { r with qv := r.qv.set (Fin.ofNat 5 n) l }

/-- LDQ. -/
def State.ldqForm (s : State) (hs : HIx) (tt : TIx) (q : Fin 4) (i j : SIx) (clip : Clip) (fe : Fe) (bp : Bool) : Res :=
  s.withH hs fun x => s.withT tt fun t =>
    let ci := coord (s.sr i)
    let cj := coord (s.sr j)
    let a := hBase x
    match vqFault x t ci cj clip fe bp false with
    | some f => s.fault f a
    | none =>
      let es := vqElems t ci cj clip
      let sp := vqSpan t es
      let g := hTgt s.cur x (a + sp.1)
      match (if sp.2 = 0 then none else s.tgtFault g bp sp.2) with
      | some f => s.fault f (a + sp.1)
      | none =>
        if 16 ≤ (s.vq q.val).length then .wait .loose s
        else
          let gs := s.spanGrans x bp sp.1 sp.2
          if fe != .plain && gs.any fun w => !(s.gran w.1 w.2).full then .wait .other s
          else
            let r := s.readTgt s.cur g bp (Fe.rd fe false) sp.2
            match r.s.readTrigger r g with
            | some u => .stop u
            | none =>
              let v := (upto 0 (vecN t)).foldl
                (fun n e => n + ((es.getD e none).elim 0 (vqElem t sp.1 r.data)) * 2 ^ (vecW t * e)) 0
              let u := if fe = .two then gs.foldl (fun u w => u.granSetFull w.1 [w.2] false) r.s else r.s
              .done (u.setVq q.val (u.vq q.val ++ [⟨BitVec.ofNat 512 v, BitVec.allOnes 64⟩]))
def execLdq (h : Head) (hs : HIx) (t : TIx) (q : Fin 4) (i j : SIx) (clip : Clip) (fe : Fe) (bp : Bool) (s : State) : Out :=
  .next (s.issue h fun u => u.ldqForm hs t q i j clip fe bp)

/-- Ascending cells by the granule they lie in: its number, and their places in it. -/
def gransOf (cs : List (Nat × Byte)) : List (Nat × List (Nat × Byte)) :=
  (cs.map fun c => c.1 / 16).dedup.map fun g => (g, (cs.filter fun c => c.1 / 16 == g).map fun c => (c.1 % 16, c.2))

/-- The bytes that STQ writes: view offset and value, for entry e, ascending (R114, R203). -/
def stqBytes (t : Word) (i j : Int) (e : QEntry) : List (Nat × Byte) :=
  (upto 0 64).filterMap fun b =>
    let k : Nat := b * 8 / vecW t
    if !e.mask.getLsbD b || !inShape t i (j + k) then none
    else
      let v := e.data.toNat / 256 ^ b % 256
      some ((elemOff t i j + (b : Nat)).toNat, BitVec.ofNat 8 (if vecW t = 4 ∧ !inShape t i (j + k + 1) then v % 16 else v))

/-- STQ. -/
def State.stqForm (s : State) (hs : HIx) (tt : TIx) (i j : SIx) (clip : Clip) (fe : Fe) (bp : Bool) : Res :=
  s.withH hs fun x => s.withT tt fun t =>
    let ci := coord (s.sr i)
    let cj := coord (s.sr j)
    match vqFault x t ci cj clip fe bp true with
    | some f => s.fault f (hBase x)
    | none =>
      match s.vq 4 with
      | [] => .wait .loose s
      | e :: r =>
        let cs := stqBytes t ci cj e
        let rs := runsOf cs
        let tg (p : Nat × List Byte) := hTgt s.cur x (hBase x + p.1)
        match firstFlt (rs.map fun p => s.tgtFault (tg p) bp p.2.length) with
        | some f => s.fault f (hBase x)
        | none =>
          if fe = .one ∧ (rs.any fun p => (s.spanGrans x bp p.1 p.2.length).any fun w => (s.gran w.1 w.2).full) then
            .wait .other s
          else if rs.any fun p => s.pushFull s.cur (tg p) p.2.length then .wait .other s
          else .done ((gransOf (cs.map fun c => (hBase x + c.1, c.2))).foldl
            (fun u g => u.storeGran s.cur (hTgt s.cur x (16 * g.1)) bp (fe != .plain) g.2) (s.setVq 4 r).orderReads)
def execStq (h : Head) (hs : HIx) (t : TIx) (i j : SIx) (clip : Clip) (fe : Fe) (bp : Bool) (s : State) : Out :=
  .next (s.issue h fun u => u.stqForm hs t i j clip fe bp)

/-- A vector whose every element of width w is v. -/
def splat (w v : Nat) : Vec := BitVec.ofNat 512 ((upto 0 (512 / w)).foldl (fun n e => n + v % 2 ^ w * 2 ^ (w * e)) 0)
def execQsplat (h : Head) (q : Fin 4) (a : SIx) (ew : Ew) (s : State) : Out :=
  .next (s.issue h fun t =>
    if 16 ≤ (t.vq q.val).length then .wait .loose t
    else .done (t.setVq q.val (t.vq q.val ++ [⟨splat (ew.bits) (t.sr a).toNat, BitVec.allOnes 64⟩])))

end Sys2Proof.Machine
end

