-- ==== Sys2Proof/Machine/Scalar.lean ====
section
/-!
DEFINITION. Sys2Proof/Machine/Scalar.lean: the scalar forms of the three streams (R138 to R152, R159, R161, R162).
-/
namespace Sys2Proof.Machine
open Sys2Proof

/-- A line or form that a check of R79, R107, R108 or R11 refuses: the context stops (R109, R348). -/
def execIllegalEncoding (code detail lane : BitVec 8) (s : State) : Out :=
  .next ((s.atLane lane.toNat).fatal code.toNat detail.toNat 0)

/-! ### Integer arithmetic (R141 to R144) -/

/-- A result at width 64 or 32; the 32-bit one is sign-extended (R141). -/
def widen (w : Bool) (r : Nat) : Word := if w then w64 (wrap 64 (sgn 32 r)) else w64 r
/-- Width of a form. -/
def wOf (w : Bool) : Nat := if w then 32 else 64

/-- SD ← f of SA and SB at the form's width, with f's flags (R141). -/
def aluForm (f : Nat → Nat → Nat → Nat × Nat) (d a b : SIx) (w : Bool) (s : State) : State :=
  let r := f (wOf w) ((s.sr a).toNat % 2 ^ wOf w) ((s.sr b).toNat % 2 ^ wOf w)
  (s.setS d (widen w r.1)).orFlags (BitVec.ofNat 8 r.2)
/-- An operation without flags. -/
def plain (f : Nat → Nat → Nat → Nat) (w a b : Nat) : Nat × Nat := (f w a b, 0)
/-- SD ← f of SA and an immediate at width 64 (R142). -/
def aluImm (f : Nat → Nat → Nat → Nat) (d a : SIx) (imm : Nat) (s : State) : State :=
  s.setS d (w64 (f 64 (s.sr a).toNat imm))
/-- SignExtend(IMM6, 6) as a 64-bit pattern. -/
def imm6s (i : BitVec 6) : Nat := (i.signExtend 64).toNat

def execAdd (h : Head) (d a b : SIx) (w : Bool) (s : State) : Out := .next (s.issue1 h (aluForm (plain aluAdd) d a b w))
def execSub (h : Head) (d a b : SIx) (w : Bool) (s : State) : Out := .next (s.issue1 h (aluForm (plain aluSub) d a b w))
def execMul (h : Head) (d a b : SIx) (w : Bool) (s : State) : Out := .next (s.issue1 h (aluForm (plain aluMul) d a b w))
def execMulh (h : Head) (d a b : SIx) (w : Bool) (s : State) : Out := .next (s.issue1 h (aluForm (plain aluMulh) d a b w))
def execMulhn (h : Head) (d a b : SIx) (w : Bool) (s : State) : Out := .next (s.issue1 h (aluForm (plain aluMulhn) d a b w))
def execDiv (h : Head) (d a b : SIx) (w : Bool) (s : State) : Out := .next (s.issue1 h (aluForm aluDiv d a b w))
def execDivn (h : Head) (d a b : SIx) (w : Bool) (s : State) : Out := .next (s.issue1 h (aluForm aluDivn d a b w))
def execRem (h : Head) (d a b : SIx) (w : Bool) (s : State) : Out := .next (s.issue1 h (aluForm aluRem d a b w))
def execRemn (h : Head) (d a b : SIx) (w : Bool) (s : State) : Out := .next (s.issue1 h (aluForm aluRemn d a b w))
def execAnd (h : Head) (d a b : SIx) (w : Bool) (s : State) : Out :=
  .next (s.issue1 h (aluForm (plain fun _ x y => Nat.land x y) d a b w))
def execOr (h : Head) (d a b : SIx) (w : Bool) (s : State) : Out :=
  .next (s.issue1 h (aluForm (plain fun _ x y => Nat.lor x y) d a b w))
def execXor (h : Head) (d a b : SIx) (w : Bool) (s : State) : Out :=
  .next (s.issue1 h (aluForm (plain fun _ x y => Nat.xor x y) d a b w))
def execShl (h : Head) (d a b : SIx) (w : Bool) (s : State) : Out := .next (s.issue1 h (aluForm (plain aluShl) d a b w))
def execShr (h : Head) (d a b : SIx) (w : Bool) (s : State) : Out := .next (s.issue1 h (aluForm (plain aluShr) d a b w))
def execSar (h : Head) (d a b : SIx) (w : Bool) (s : State) : Out := .next (s.issue1 h (aluForm (plain aluSar) d a b w))
def execRotl (h : Head) (d a b : SIx) (w : Bool) (s : State) : Out := .next (s.issue1 h (aluForm (plain aluRotl) d a b w))

def execAddi (h : Head) (d a : SIx) (i : BitVec 6) (s : State) : Out := .next (s.issue1 h (aluImm aluAdd d a (imm6s i)))
def execMuli (h : Head) (d a : SIx) (i : BitVec 6) (s : State) : Out := .next (s.issue1 h (aluImm aluMul d a (imm6s i)))
def execAndi (h : Head) (d a : SIx) (i : BitVec 6) (s : State) : Out :=
  .next (s.issue1 h (aluImm (fun _ x y => Nat.land x y) d a (imm6s i)))
def execOri (h : Head) (d a : SIx) (i : BitVec 6) (s : State) : Out :=
  .next (s.issue1 h (aluImm (fun _ x y => Nat.lor x y) d a (imm6s i)))
def execXori (h : Head) (d a : SIx) (i : BitVec 6) (s : State) : Out :=
  .next (s.issue1 h (aluImm (fun _ x y => Nat.xor x y) d a (imm6s i)))
def execShli (h : Head) (d a : SIx) (i : BitVec 6) (s : State) : Out := .next (s.issue1 h (aluImm aluShl d a i.toNat))
def execShri (h : Head) (d a : SIx) (i : BitVec 6) (s : State) : Out := .next (s.issue1 h (aluImm aluShr d a i.toNat))
def execSari (h : Head) (d a : SIx) (i : BitVec 6) (s : State) : Out := .next (s.issue1 h (aluImm aluSar d a i.toNat))
def execRotli (h : Head) (d a : SIx) (i : BitVec 6) (s : State) : Out := .next (s.issue1 h (aluImm aluRotl d a i.toNat))

/-- SD ← f of SA. -/
def unary (f : Nat → Nat) (d a : SIx) (s : State) : State := s.setS d (w64 (f (s.sr a).toNat))
def execClz (h : Head) (d a : SIx) (s : State) : Out := .next (s.issue1 h (unary (fun x => 64 - bitLen x) d a))
def execCtz (h : Head) (d a : SIx) (s : State) : Out := .next (s.issue1 h (unary (ctzN 64) d a))
def execPopc (h : Head) (d a : SIx) (s : State) : Out := .next (s.issue1 h (unary (popc 64) d a))
def execMov (h : Head) (d a : SIx) (s : State) : Out := .next (s.issue1 h (unary id d a))
/-- TFLAGS ← TFLAGS AND NOT CODE (R145). -/
def execFlgclr (h : Head) (code : BitVec 8) (s : State) : Out :=
  .next (s.issue1 h fun t => t.modSt fun x => { x with tflags := x.tflags &&& ~~~code })
def execMovi (h : Head) (d : SIx) (i : BitVec 11) (s : State) : Out := .next (s.issue1 h fun t => t.setS d (i.signExtend 64))
def execMovil (h : Head) (d : SIx) (i : BitVec 32) (s : State) : Out := .next (s.issue1 h fun t => t.setS d (i.signExtend 64))
def execMoviq (h : Head) (d : SIx) (i : BitVec 64) (s : State) : Out := .next (s.issue1 h fun t => t.setS d i)
def execAddil (h : Head) (d a : SIx) (i : BitVec 32) (s : State) : Out :=
  .next (s.issue1 h (aluImm aluAdd d a (i.signExtend 64).toNat))

/-- The smaller or larger of two 64-bit operands, signed or unsigned (R141). -/
def pickForm (mx sg : Bool) (d a b : SIx) (s : State) : State :=
  let x := s.sr a
  let y := s.sr b
  let less := if sg then x.slt y else x.ult y
  s.setS d (if less != mx then x else y)
def execMin (h : Head) (d a b : SIx) (s : State) : Out := .next (s.issue1 h (pickForm false true d a b))
def execMax (h : Head) (d a b : SIx) (s : State) : Out := .next (s.issue1 h (pickForm true true d a b))
def execMinn (h : Head) (d a b : SIx) (s : State) : Out := .next (s.issue1 h (pickForm false false d a b))
def execMaxn (h : Head) (d a b : SIx) (s : State) : Out := .next (s.issue1 h (pickForm true false d a b))
/-- SA with bits 63:60 replaced by n (R144). -/
def execPath (h : Head) (d a : SIx) (n : BitVec 6) (s : State) : Out :=
  .next (s.issue1 h (unary (fun x => putBits x 63 60 n.toNat) d a))
/-- Field length: 0 means 64 (R144). -/
def fieldLen (n : BitVec 6) : Nat := if n = 0 then 64 else n.toNat
def execExtr (h : Head) (d a : SIx) (p n : BitVec 6) (sg : Bool) (s : State) : Out :=
  .next (s.issue1 h (unary (fun x =>
    let v := bits x (p.toNat + fieldLen n - 1) p.toNat
    if sg then wrap 64 (sgn (fieldLen n) v) else v) d a))
def execInsr (h : Head) (d a : SIx) (p n : BitVec 6) (s : State) : Out :=
  .next (s.issue1 h fun t =>
    t.setS d (w64 (putBits (t.sr d).toNat (p.toNat + fieldLen n - 1) p.toNat (t.sr a).toNat)))

/-! ### Compares and predicates (R146 to R148) -/

/-- Both destinations of a compare, lane by lane: guard g, result r, old values (R147 Table 3). -/
def combine (ct : CT) (g r pd pe : Word) : Word × Word :=
  match ct with
  | .normal => ((pd &&& ~~~g) ||| (r &&& g), (pe &&& ~~~g) ||| (~~~r &&& g))
  | .unc => (r &&& g, ~~~r &&& g)
  | .and => (pd &&& (r ||| ~~~g), pe &&& (~~~r ||| ~~~g))
  | .or => (pd ||| (r &&& g), pe ||| (~~~r &&& g))
  | .andor => (pd &&& (r ||| ~~~g), pe ||| (~~~r &&& g))
  | .orand => (pd ||| (r &&& g), pe &&& (~~~r ||| ~~~g))
/-- Write both destinations of a compare. -/
def State.setCmp (s : State) (ct : CT) (g r : Word) (pd pe : PIx) : State :=
  s.modSt fun x =>
    let w := combine ct g r (x.pm pd) (x.pm pe)
    (x.setP pd w.1).setP pe w.2
/-- A scalar compare form: it writes under a false guard too where CT is .unc (R147). -/
def State.cmpForm (s : State) (h : Head) (ct : CT) (pd pe : PIx) (r : State → Bool × Nat) : State :=
  s.issueG h fun g t =>
    let v := r t
    .done ((t.setCmp ct (maskOf g) (maskOf v.1) pd pe).orFlags (if g then BitVec.ofNat 8 v.2 else 0))

/-- The second operand of CMP (R146). -/
def State.rhs (s : State) : CmpRhs → Word
  | .reg b => s.sr b
  | .imm i => i.signExtend 64
def execCmp (h : Head) (pd pe : PIx) (ct : CT) (cc : CC) (a : SIx) (rhs : CmpRhs) (s : State) : Out :=
  .next (s.cmpForm h ct pd pe fun t => (ccInt cc 64 (t.sr a).toNat (t.rhs rhs).toNat, 0))
def execTbit (h : Head) (pd pe : PIx) (ct : CT) (cc : CC) (a : SIx) (n : BitVec 6) (s : State) : Out :=
  .next (s.cmpForm h ct pd pe fun t => ((t.sr a).getLsbD n.toNat == (cc == .eq), 0))

/-- pD ← (pA XOR NA) op (pB XOR NB), bit by bit (R148). -/
def predForm (f : Word → Word → Word) (pd pa pb : PIx) (na nb : Bool) (s : State) : State :=
  s.modSt fun x => x.setP pd (f (x.pm pa ^^^ maskOf na) (x.pm pb ^^^ maskOf nb))
def execPand (h : Head) (pd pa pb : PIx) (na nb : Bool) (s : State) : Out :=
  .next (s.issue1 h (predForm (· &&& ·) pd pa pb na nb))
def execPor (h : Head) (pd pa pb : PIx) (na nb : Bool) (s : State) : Out :=
  .next (s.issue1 h (predForm (· ||| ·) pd pa pb na nb))
def execPxor (h : Head) (pd pa pb : PIx) (na nb : Bool) (s : State) : Out :=
  .next (s.issue1 h (predForm (· ^^^ ·) pd pa pb na nb))
/-- Bit n of SD ← pn (R148). -/
def execPget (h : Head) (d : SIx) (s : State) : Out :=
  .next (s.issue1 h fun t =>
    t.setS d (w64 ((upto 0 8).foldl (fun n k => n + b2n (t.st.pb (Fin.ofNat 8 k)) * 2 ^ k) 0)))
/-- p1 to p7 from bits 7:1 of SA (R148). -/
def execPput (h : Head) (a : SIx) (s : State) : Out :=
  .next (s.issue1 h fun t => t.modSt fun x =>
    (upto 1 7).foldl (fun y k => y.setP (Fin.ofNat 8 k) (maskOf ((t.sr a).getLsbD k))) x)

/-! ### Queue moves (R152) -/

/-- Entries of a scalar queue q0 to q3. -/
def State.sq (s : State) (q : Nat) : List Word := s.me.r.qs[Fin.ofNat 4 q]
def State.setSq (s : State) (q : Nat) (l : List Word) : State :=
  s.modRegs fun r => { r with qs := r.qs.set (Fin.ofNat 4 q) l }
def execQsend (h : Head) (a : SIx) (q : Fin 32) (s : State) : Out :=
  .next (s.issue h fun t =>
    if 16 ≤ (t.sq q).length then .wait .loose t else .done (t.setSq q (t.sq q ++ [t.sr a])).orderReads)
def execQrecv (h : Head) (d : SIx) (q : Fin 32) (s : State) : Out :=
  .next (s.issue h fun t =>
    match t.sq q with
    | [] => .wait .loose t
    | x :: r => .done ((t.setSq q r).setS d x).orderReads)

/-- Entries in a queue of the core (R89, R187): a command that its engine has taken counts until it completes, but a near-memory
run or a Speedwell command has left its queue: a DESIGN CHOICE (notes/assumptions/37.md). -/
def Core.qlen (c : Core) (q : Nat) : Nat :=
  if q < 4 then (c.r.qs[Fin.ofNat 4 q]).length
  else if q < 9 then (c.r.qv[Fin.ofNat 5 (q - 4)]).length
  else match q with
  | 10 => c.q10.length
  | 11 => c.q11.length + b2n c.mx.isSome
  | 12 => c.cq[0].length + b2n c.crun[0].isSome
  | 13 => c.cq[1].length + b2n c.crun[1].isSome
  | 14 => c.cq[2].length + b2n c.crun[2].isSome
  | 15 => c.cq[3].length + b2n c.crun[3].isSome
  | 16 => c.q16.length + b2n c.prun.isSome
  | 17 => c.q17.length
  | 18 => c.q18.length + b2n c.srun.isSome
  | 19 => c.q19.length
  | 20 => c.q20.length + b2n c.wrun.isSome
  | 21 => c.q21.length
  | 22 => c.q22.length
  | 23 => c.q23.length
  | 24 => (c.q24.filter fun x => match x with
    | .ready .. => false
    | _ => true).length
  | _ => c.q25.length
/-- Depths (R89, R187 Table 9). -/
def qDepth (q : Nat) : Nat := match q with
  | 16 => 32 | 17 => 32 | 19 => 8 | 21 => 32 | 23 => 32 | 25 => 64 | _ => 16
/-- Whether a stream reads the entries of a queue; otherwise QTEST counts its free slots (R152). -/
def qReads (m : Stm) (q : Nat) : Bool :=
  if q < 9 then readsQueue m q else q == 17 || q == 21 || q == 23 || q == 25
def execQtest (h : Head) (d : SIx) (q : Fin 32) (s : State) : Out :=
  .next (s.issue1 h fun t =>
    t.setS d (w64 (if qReads t.strm q then t.me.qlen q else qDepth q - t.me.qlen q)))

/-! ### Special registers (R137, R138) -/

/-- COREID (R72). -/
def coreId (s : State) : Nat := s.me.phys * 2 ^ 8 + s.cur / 64 % 2 * 2 ^ 7 + s.cur % 64
/-- TKCNT (R87). -/
def tkcnt (t : Tokens) : Nat := t.cv * 2 ^ 20 + t.va * 2 ^ 16 + t.ac * 2 ^ 12 + t.vc * 2 ^ 8 + t.av * 2 ^ 4 + t.ca
/-- A special register as the issuing stream reads it (R137). -/
def State.spr (s : State) : Spr → Word
  | .cycle => w64 s.me.cycle
  | .rtime => w64 s.rtime
  | .tflags => s.st.tflags.setWidth 64
  | .win => w64 s.me.r.win
  | .tkcnt => w64 (tkcnt s.toks)
  | .lseq => w64 s.st.pos.lseq
  | .prio => w64 (s.res.prio % 64)
  | .trapinfo => s.me.trapinfo.setWidth 64
  | .svcmode => w64 (b2n (s.ctx s.cx).svc)
  | .rsdepth => w64 s.st.rstk.length
  | .coreid => w64 (coreId s)
  | .lcores => s.lcores
  | .config => s.config.getD 0 0
  | .llcsz => w64 s.res.llc
  | .ithresh => (s.ctx s.cx).ithresh.setWidth 64
  | .trip n => (s.res.trip.getD n.val 0).setWidth 64
  | .frame => s.res.frame
  | .jcard => w64 s.res.card
  | .jblock => w64 s.res.block
  | .jarg n => s.res.jarg.getD n.val 0
  | .lc n => (s.st.lc[n]).setWidth 64
  | .llim n => (s.st.llim[n]).setWidth 64
def execMfsr (h : Head) (d : SIx) (r : Spr) (s : State) : Out := .next (s.issue1 h fun t => t.setS d (t.spr r))
/-- WIN ← SA under R82; no other register is writable, and its decoding is refused (R138). -/
def execMtsr (h : Head) (a : SIx) (r : Spr) (s : State) : Out :=
  .next (s.issue1 h fun t =>
    match r with
    | .win => t.modRegs fun x => { x with win := max 1 (min 1024 (t.sr a).toNat) }
    | _ => t)
def execNop (h : Head) (s : State) : Out := .next (s.issue1 h id)
/-- A breakpoint halts the context where the debugger's enable is set (R161). -/
def execBrk (h : Head) (code : BitVec 8) (s : State) : Out :=
  .next (s.issue1 h fun t => if (t.ctx t.cx).brken then t.haltCtx t.cx t.cur code.toNat else t)

/-! ### Scalar FP32 (R149 to R151) -/

/-- An F32 operand. -/
def State.f32 (s : State) (i : SIx) : Val := fvalue .f32 ((s.sr i).toNat % 2 ^ 32)
/-- Round a value into SD, its flags with those of the operation. -/
def State.setF (s : State) (d : SIx) (v : Val × Nat) (rm : RM) (sat : Bool) : State :=
  let r := roundTo .f32 v.1 rm sat
  (s.setS d (w64 r.1)).orFlags (BitVec.ofNat 8 (r.2 ||| v.2))
def execFadd (h : Head) (d a b : SIx) (rm : RM) (sat : Bool) (s : State) : Out :=
  .next (s.issue1 h fun t => t.setF d ((t.f32 a).add (t.f32 b) rm) rm sat)
def execFsub (h : Head) (d a b : SIx) (rm : RM) (sat : Bool) (s : State) : Out :=
  .next (s.issue1 h fun t => t.setF d ((t.f32 a).add (t.f32 b).negate rm) rm sat)
def execFmul (h : Head) (d a b : SIx) (rm : RM) (sat : Bool) (s : State) : Out :=
  .next (s.issue1 h fun t => t.setF d ((t.f32 a).mul (t.f32 b)) rm sat)
def execFdiv (h : Head) (d a b : SIx) (rm : RM) (sat : Bool) (s : State) : Out :=
  .next (s.issue1 h fun t => t.setF d ((t.f32 a).div (t.f32 b)) rm sat)
def execFma (h : Head) (d a b c : SIx) (rm : RM) (sat : Bool) (s : State) : Out :=
  .next (s.issue1 h fun t => t.setF d ((t.f32 a).fma (t.f32 b) (t.f32 c) rm) rm sat)
/-- minimumNumber or maximumNumber (R129). -/
def fpick (mx : Bool) (d a b : SIx) (s : State) : State :=
  let r := minMaxF .f32 mx ((s.sr a).toNat % 2 ^ 32) ((s.sr b).toNat % 2 ^ 32)
  (s.setS d (w64 r.1)).orFlags (BitVec.ofNat 8 r.2)
def execFmin (h : Head) (d a b : SIx) (s : State) : Out := .next (s.issue1 h (fpick false d a b))
def execFmax (h : Head) (d a b : SIx) (s : State) : Out := .next (s.issue1 h (fpick true d a b))
def execFsqrt (h : Head) (d a : SIx) (rm : RM) (sat : Bool) (s : State) : Out :=
  .next (s.issue1 h fun t => t.setF d (t.f32 a).sqrt rm sat)
/-- An F32 rounded to an integral F32 (R150, R224): encoding and flags. -/
def intF32 (x : Val) (rm : RM) : Nat × Nat :=
  let r := roundIntegral x rm
  ((roundTo .f32 r.1 rm false).1, flagIf x.sig fIV ||| flagIf r.2 fNX)
/-- FCVT's result: 64 bits and flags (R150). -/
def fcvt (ty tz : Ty) (a : Word) (rm : RM) (sat : Bool) : Word × Nat :=
  if ty = .f32 then
    let x := fvalue .f32 (a.toNat % 2 ^ 32)
    if tz = .f32 then
      let r := intF32 x rm
      (w64 r.1, r.2)
    else
      let r := roundTo tz x rm sat
      (w64 (if tz.signed then wrap 64 (sgn tz.width r.1) else r.1), r.2)
  else
    let r := roundTo .f32 (ivalue (intOf ty a.toNat)) rm sat
    (w64 r.1, r.2)
def execFcvt (h : Head) (d a : SIx) (ty tz : Ty) (rm : RM) (sat : Bool) (s : State) : Out :=
  .next (s.issue1 h fun t =>
    let r := fcvt ty tz (t.sr a) rm sat
    (t.setS d r.1).orFlags (BitVec.ofNat 8 r.2))
def execFcmp (h : Head) (pd pe : PIx) (ct : CT) (cc : CC) (a b : SIx) (s : State) : Out :=
  .next (s.cmpForm h ct pd pe fun t =>
    (ccFloat cc (t.f32 a) (t.f32 b), flagIf ((t.f32 a).sig || (t.f32 b).sig) fIV))
/-- Bit 31 inverted or cleared; the result zero-extended (R149). -/
def execFneg (h : Head) (d a : SIx) (s : State) : Out :=
  .next (s.issue1 h (unary (fun x => Nat.xor (x % 2 ^ 32) (2 ^ 31)) d a))
def execFabs (h : Head) (d a : SIx) (s : State) : Out := .next (s.issue1 h (unary (fun x => x % 2 ^ 31) d a))

/-! ### Traps and injection (R159, R162) -/

/-- The first code stands while one is pending (R159). -/
def execTrap (h : Head) (code : BitVec 8) (s : State) : Out :=
  .next (s.issue1 h fun t => t.modMe fun c =>
    { c with trapinfo := if c.trapinfo.getLsbD 8 then c.trapinfo else BitVec.ofNat 9 (256 + code.toNat) })

/-- A flip as an entry of q11 (R162). -/
def flipCmd (s : State) (acc : Fin 4) (row col b : Nat) : MxCmd where
  op := .flip
  set := acc
  ra := 0
  rb := 0
  m := 0
  n := 0
  ks := 0
  sems := ⟨false, 0, false, 0⟩
  phs := s.me.phasecnt % 2 ^ 16
  row := row
  col := col
  bit := b
  place := Place.none
  shape := 0
  i := 0
  j := 0
  pos := s.st.pos
  ph := s.me.ph
  view := EView.none
/-- Fault injection in service mode; outside it SD ← 1 and nothing else (R162). -/
def execInj (h : Head) (d a : SIx) (k : InjKind) (s : State) : Out :=
  .next (s.issue h fun t =>
    if !(t.ctx t.cx).svc then .done (t.setS d 1)
    else match k with
      | .accBit acc row col b =>
        match t.pushMx (flipCmd t acc row col b) with
        | .done u => .done (u.setS d 0)
        | r => r
      | .scratchPoison =>
        let o := (t.sr a).toNat
        if scrbytes t.res.hdr ≤ o then t.fault undeclared o
        else .done ((t.granSetPois (.scr t.cur) [t.scrOff t.cur false o / 16]).setS d 0)
      | .shadowMismatch => .done ((t.modMe fun c => { c with injArm := true }).setS d 0))

end Sys2Proof.Machine
end

