-- ==== Sys2Proof/Machine/Control.lean ====
section
/-!
DEFINITION. Sys2Proof/Machine/Control.lean: branches and loops (R153 to R157), FENCE, barriers, semaphores, tag and job forms
(R278 to R286).
-/
namespace Sys2Proof.Machine
open Sys2Proof

/-! ### Forms of the ALL space (R83, R153) -/

/-- A stream goes to the start of a target line (R153). -/
def Stream.jump (x : Stream) (line : Nat) : Stream :=
  { x.advance with
    pos := ⟨line, 1, x.pos.lseq + 1⟩
    begun := false }

/-- Steer entries go to A and V (R83). -/
def State.steer (s : State) (e : Steer) : State :=
  s.modRegs fun r => { r with a := { r.a with steer := r.a.steer ++ [e] }, v := { r.v with steer := r.v.steer ++ [e] } }
/-- Whether a steer queue is full. -/
def State.steerFull (s : State) : Bool := decide (16 ≤ s.me.r.a.steer.length ∨ 16 ≤ s.me.r.v.steer.length)

/-- An ALL form that does not align: C evaluates it and steers A and V, each of which applies the entry at its own turn.
`ev` gives C's operand value and, where control leaves the line, the target line; or a fault's code. -/
def State.allForm (s : State) (i : Instr) (g : Guard) (ev : State → Except Nat (Word × Option Int))
    (app : Steer → State → State) : State :=
  match s.strm with
  | .c =>
    if s.steerFull then s.blocked .loose
    else if !s.guardB g then
      let e : Steer := ⟨i, false, 0, false, 0⟩
      app e (s.steer e)
    else match ev s with
      | .error code => s.fatal code 0 0
      | .ok (v, none) =>
        let e : Steer := ⟨i, true, v, false, 0⟩
        app e (s.steer e)
      | .ok (v, some l) =>
        match (if l < 0 then some 0x26 else s.targetFault s.res l.toNat) with
        | some code => s.fatal code 0 0
        | none =>
          let e : Steer := ⟨i, true, v, true, l.toNat⟩
          app e (s.steer e)
  | _ =>
    match s.st.steer with
    | [] => s.blocked .loose
    | e :: r => app e (s.modSt fun x => { x with steer := r }).orderReads

/-- Follow an entry: its effect under a true guard, then the target line or the next lane. -/
def follow (eff : Word → Stream → Stream) (e : Steer) (s : State) : State :=
  (s.modSt fun x =>
    let y := if e.guard then eff e.val x else x
    if e.guard && e.taken then y.jump e.target else y.advance).modMe Core.wake

/-- The line of the form, and a line at an offset from it. -/
def State.lineAt (s : State) (off : Int) : Int := (s.st.pos.line : Int) + off

def execBr (g : Guard) (off : BitVec 16) (s : State) : Out :=
  .next (s.allForm (.br g off) g (fun t => .ok (0, some (t.lineAt off.toInt))) (follow fun _ x => x))
/-- Push the line after the CALL (R154). -/
def execCall (g : Guard) (off : BitVec 16) (s : State) : Out :=
  .next (s.allForm (.call g off) g
    (fun t => if 16 ≤ t.st.rstk.length then .error 0x27 else .ok (0, some (t.lineAt off.toInt)))
    (follow fun _ x => { x with rstk := (x.pos.line + 1) :: x.rstk }))
def execBri (g : Guard) (a : SIx) (s : State) : Out :=
  .next (s.allForm (.bri g a) g (fun t => .ok (t.sr a, some (t.sr a).toNat)) (follow fun _ x => x))
def execRet (g : Guard) (s : State) : Out :=
  .next (s.allForm (.ret g) g
    (fun t => match t.st.rstk with
      | [] => .error 0x27
      | l :: _ => .ok (0, some (l : Nat)))
    (follow fun _ x => { x with rstk := x.rstk.tail }))

/-- LOOP opens counter n, or skips when the count is 0 (R155). -/
def openLoop (n : Fin 8) (v : Word) (x : Stream) : Stream :=
  { x with
    lc := x.lc.set n 0
    llim := x.llim.set n (v.setWidth 32)
    skip := if v.setWidth 32 = (0 : BitVec 32) then some n else none }
def execLoopReg (g : Guard) (ln : Fin 8) (a : SIx) (s : State) : Out :=
  .next (s.allForm (.loopReg g ln a) g (fun t => .ok (t.sr a, none)) (follow (openLoop ln)))
def execLoopImm (g : Guard) (ln : Fin 8) (cnt : BitVec 12) (s : State) : Out :=
  .next (s.allForm (.loopImm g ln cnt) g (fun _ => .ok (cnt.setWidth 64, none)) (follow (openLoop ln)))
/-- lc + 1; back to the label below LLIM (R156). -/
def execEndl (g : Guard) (ln : Fin 8) (off : BitVec 13) (s : State) : Out :=
  .next (s.allForm (.endl g ln off) g
    (fun t => .ok (0, if t.st.lc[ln] + 1 < t.st.llim[ln] then some (t.lineAt off.toInt) else none))
    (follow fun _ x => { x with lc := x.lc.set ln (x.lc[ln] + 1) }))
/-- LLIM ← lc, and leave the loop (R157). -/
def execLexit (g : Guard) (ln : Fin 8) (off : BitVec 13) (s : State) : Out :=
  .next (s.allForm (.lexit g ln off) g (fun t => .ok (0, some (t.lineAt off.toInt)))
    (follow fun _ x => { x with llim := x.llim.set ln (x.lc[ln]) }))

/-- The commit of an execution of a FENCE that releases beyond the core (R278). -/
def fenceEff (ord : Ord) (scp : Scp) (s : State) : State :=
  if Ord.rels ord && scp != .core then s.earlyCommit s.cur else s
/-- The FENCE completes once what it published has reached its points of coherence, path-5 stores the link (R278): a write
performed has left the device.  Until then A and V keep their steer entry. -/
def State.fenceEnd (s : State) (e : Steer) (ord : Ord) (scp : Scp) : State :=
  let rel := Ord.rels ord && scp != .core
  let t := if rel then s.publish s.cur else s
  if rel && !t.me.comm.isEmpty then
    (t.modSt fun x => { x with acted := true, steer := if s.strm = .c then x.steer else e :: x.steer }).blocked .other
  else (if Ord.acqs ord then t.refresh t.cur else t).orderReads.advance
/-- The steer entry of a FENCE that waits to complete. -/
def State.fenceEntry (s : State) (g : Guard) (ord : Ord) (scp : Scp) : Steer :=
  s.st.steer.headD ⟨.fence g ord scp, true, 0, false, 0⟩
/-- FENCE: each stream executes it by itself; C's waits for the answers that its earlier forms have still to get (R278). -/
def execFence (g : Guard) (ord : Ord) (scp : Scp) (s : State) : Out :=
  .next (
    if s.st.acted then
      (if s.strm = .c then s else s.modSt fun x => { x with steer := x.steer.tail }).fenceEnd (s.fenceEntry g ord scp) ord scp
    else if !s.st.await.isEmpty && s.guardB g then s.blocked .other
    else s.allForm (.fence g ord scp) g (fun _ => .ok (0, none)) fun e t =>
      if e.guard then (fenceEff ord scp t).fenceEnd e ord scp else t.advance)

/-! ### Gang barriers (R279) -/

/-- The barrier state of the block's gang. -/
def State.gangOf (s : State) (k : Nat) : GangSt :=
  let r := (s.core k).res
  mgetD (s.ctx r.ctx.val).gangs (gkey r.card r.gang) GangSt.init
def State.setGang (s : State) (c key : Nat) (g : GangSt) : State := s.modCtx c fun t => { t with gangs := mset t.gangs key g }

/-- A member's arrival follows what happens before it (R266). -/
def GangSt.arriveAt (g : GangSt) (v : View) (n : Fin 8) : GangSt :=
  ({ g with bview := g.bview.set n (g.bview[n].join v) } : GangSt).arrive n
/-- A member goes on once the barrier has completed: with a refresh at die scope, after every arrival. -/
def State.barDone (s : State) (i : Fin 8) : State :=
  ((s.learn s.cur (s.gangOf s.cur).bview[i]).refresh s.cur).orderReads
def State.barForm (s : State) (n : Fin 16) : Res :=
  let i : Fin 8 := Fin.ofNat 8 n.val
  let r := s.res
  match s.me.barWait with
  | none =>
    let g := s.gangOf s.cur
    let g2 := g.arriveAt s.me.clk i
    let s1 := s.setGang s.cx (gkey r.card r.gang) g2
    if g2.gen[i] = g.gen[i] then .wait .other (s1.modMe fun c => { c with barWait := some (n.val, g.gen[i]) })
    else .done (s1.barDone i)
  | some w =>
    if (s.gangOf s.cur).gen[i] = w.2 then .wait .other s
    else .done ((s.modMe fun c => { c with barWait := none }).barDone i)
def execBar (h : Head) (n : Fin 16) (s : State) : Out := .next (s.issue h fun t => t.barForm n)

/-! ### Semaphores (R281 to R283) -/

/-- Add to a semaphore of core k, with what the signal releases (R266): a count above 65,535 stays there and the lost
signals are logged (R281); a stream that waited tries again. -/
def State.semAdd (s : State) (k : Nat) (n : Fin 16) (v : Nat) (w : View) : State :=
  let m := (s.core k).sem[n] + v
  let s1 := s.modCore k fun c =>
    ({ c with sem := c.sem.set n (min m 65535), semv := c.semv.set n (c.semv[n].join w) } : Core).wake
  if m ≤ 65535 then s1 else s1.logEv { s1.evOf k 0x04 0 0 with p0 := 2, p1 := n.val, p2 := m - 65535 }
/-- The same by a form or command of phase `ph`, for a later cancel (R365). -/
def State.semSignal (s : State) (k : Nat) (n : Fin 16) (v ph : Nat) (w : View) : State :=
  (s.semAdd k n v w).modCore k fun c =>
    if ph = c.ph then { c with semInc := c.semInc.set n (c.semInc[n] + v) } else c

/-- What an engine has for core k reaches it (R360). -/
def State.deliver (s : State) (k : Nat) (h : Held) : State :=
  match h with
  | .gran w g data mask pois v => s.engPut v w g data mask pois
  | .sem n v ph w => s.semSignal k n v ph w
  | .ev e => s.modCore k fun c =>
      let d := { c with q25 := c.q25 ++ [e] }
      if e.src.isSome then d.wake else d
  | .elem q x ph => s.modCore k fun c =>
      (match q with
        | 17 => { c with q17 := c.q17 ++ [(x, ph)] }
        | 21 => { c with q21 := c.q21 ++ [(x, ph)] }
        | _ => { c with q23 := c.q23 ++ [(x, ph)] } : Core).wake
/-- The same, at the resume where the core is halted. -/
def State.give (s : State) (k : Nat) (h : Held) : State :=
  if s.haltedCore k then s.modCore k fun c => { c with hbuf := c.hbuf ++ [h] } else s.deliver k h
/-- A holding buffer drains in arrival order (R360). -/
def State.drainHeld (s : State) (k : Nat) : State :=
  (s.core k).hbuf.foldl (fun t h => t.deliver k h) (s.modCore k fun c => { c with hbuf := [] })

/-- The order of waits that begin in one core clock (R283). -/
def Waiter.rank : Waiter → Nat
  | .c => 0 | .matrix => 1 | .copy q => 2 + q.val
/-- The line at semaphore n with a waiter in its place: behind the waits that began in earlier core clocks (R283). -/
def Core.semLine (c : Core) (n : Fin 16) (w : Waiter) : List (Nat × Waiter) :=
  let q := c.semq[n]
  if q.any fun e => e.2 == w then q
  else sortIn (fun a b => decide (a.1 < b.1) || (a.1 == b.1 && decide (a.2.rank < b.2.rank))) (c.cycle, w) q
/-- The semaphore, and the waiter, of a turn that waits on one: the core, the semaphore, who waits. -/
def State.waitsOn (s : State) : Act → Option (Nat × Fin 16 × Waiter)
  | .stream k .c =>
    match ({ s with cur := k, strm := .c } : State).fetchForm false with
    | .form t (.semwait h n a) => if t.guardB h.g ∧ (t.sr a).toNat % 65536 ≠ 0 then some (k, n, .c) else none
    | _ => none
  | .event (.matrixCommand k) =>
    (match (s.core k).mx with
      | some m => if m.waited then none else some m.cmd.sems
      | none => (s.core k).q11.head?.map fun (m : MxCmd) => m.sems).bind fun m => if m.wen then some (k, m.semw, .matrix) else none
  | .event (.copyCommand k q) =>
    (match (s.core k).crun[q] with
      | some x => if x.waited || x.done || x.cancel then none else some x.cmd.sems
      | none => (s.core k).cq[q].head?.bind fun (x : CopyCmd) => if x.silent || x.cancelled then none else some x.sems).bind fun m => if m.wen then some (k, m.semw, .copy q) else none
  | _ => none
/-- Whether a turn of the schedule begins a wait on semaphore n of core k that goes before one of `w`: a waiter already in
line begins none. -/
def State.beginsWait (s : State) (k : Nat) (n : Fin 16) (w : Waiter) (a : Act) : Bool :=
  (s.waitsOn a).any fun x => x.1 == k && x.2.1 == n && decide (x.2.2.rank < w.rank) &&
    !((s.core k).semq[n].any fun e => e.2 == x.2.2)
/-- Whether a wait that goes before one of `w` begins in the same core clock (R283): the turns of the schedule that no time
separates from this one, DEDUCED (notes/assumptions/67.md). -/
def State.waitRival (s : State) (k : Nat) (n : Fin 16) (w : Waiter) : List Turn → Bool
  | [] => false
  | t :: r => decide (t.ns = 0 ∧ t.cc = 0) && (s.beginsWait k n w t.act || s.waitRival k n w r)
/-- A waiter takes n from a semaphore when it is first in line and the count suffices (R283); otherwise it stands in
line. -/
def State.semTake (s : State) (k : Nat) (n : Fin 16) (w : Waiter) (v ph : Nat) : Bool × State :=
  let c := s.core k
  let q := c.semLine n w
  if (q.head?.any fun e => e.2 == w) && decide (v ≤ c.sem[n]) && !s.waitRival k n w s.schedule then
    (true, s.setCore k { c with
      sem := c.sem.set n (c.sem[n] - v)
      semq := c.semq.set n q.tail
      semDec := if ph = c.ph then c.semDec.set n (c.semDec[n] + v) else c.semDec })
  else (false, s.setCore k { c with semq := c.semq.set n q })
/-- Whether a wait of an engine for one signal would not end now: its count is 0, or another stands before it. -/
def Core.semBlocked (c : Core) (n : Fin 16) (w : Waiter) : Bool :=
  !(((c.semLine n w).head?.any fun e => e.2 == w) && decide (1 ≤ c.sem[n]))

def execSemsig (h : Head) (n : Fin 16) (a : SIx) (s : State) : Out :=
  .next (s.issue1 h fun t => (t.semSignal t.cur n ((t.sr a).toNat % 65536) t.me.ph t.me.clk).orderReads)
def execSemwait (h : Head) (n : Fin 16) (a : SIx) (s : State) : Out :=
  .next (s.issue h fun t =>
    let v := (t.sr a).toNat % 65536
    if v = 0 then .done t
    else
      let r := t.semTake t.cur n .c v t.me.ph
      if r.1 then .done ((r.2.learn r.2.cur r.2.me.semv[n]).refresh r.2.cur).orderReads else .wait .sem r.2)
def execSemrd (h : Head) (d : SIx) (n : Fin 16) (s : State) : Out :=
  .next (s.issue1 h fun t => t.setS d (w64 t.me.sem[n]))

/-! ### Tags (R284, R285) -/

/-- A request of q24 that counts against its 16 entries: a publication that PHASE sends does not. -/
def JobReq.counts : JobReq → Bool
  | .ready .. => false
  | _ => true
/-- Place a request in q24, made with what happens before it; `commit`: the form commits the phase early first, and its
publication reaches the points of coherence (R33, R53). -/
def State.pushJob (s : State) (commit : Bool) (q : View → JobReq) : Res :=
  let t := if commit then s.earlyCommit s.cur else s
  if commit && !t.me.comm.isEmpty then .wait .other t
  else t.enginePush (decide (16 ≤ (t.me.q24.filter JobReq.counts).length)) fun u =>
    u.modMe fun c => { c with q24 := c.q24 ++ [q c.clk] }

/-- The check of a tile index (R52, R284). -/
def State.tileBad (s : State) (slot : Fin 4) (tile : Nat) : Bool :=
  decide (gridSize (s.res.hw (48 + slot.val)) ≤ tile)
/-- TAGPUB: its FENCE.rel waits until C's earlier forms have their answers (R278, R284). -/
def execTagpub (h : Head) (slot : Fin 4) (a : SIx) (s : State) : Out :=
  .next (s.issue h fun t =>
    let n := (t.sr a).toNat
    if t.tileBad slot n then t.fault undeclared n
    else if !t.st.await.isEmpty then .wait .other t
    else t.pushJob true (.pub slot.val n))
def execTagpubP (h : Head) (slot : Fin 4) (a : SIx) (s : State) : Out :=
  .next (s.issue h fun t =>
    let n := (t.sr a).toNat
    let known := t.me.pubs.contains (slot.val, n)
    if t.tileBad slot n || (!known && decide (64 ≤ t.me.pubs.length)) then t.fault undeclared n
    else match t.pushJob false (fun _ => .pending slot.val n t.me.ph) with
      | .done u => .done (if known then u else u.modMe fun c => { c with pubs := c.pubs ++ [(slot.val, n)] })
      | r => r)

/-- A form that asks Campion: its request enters q24 and C goes on; a later form that names the destination waits for the
answer (R140, R285, R286). -/
def State.askForm (s : State) (commit : Bool) (d : SIx) (q : View → JobReq) : Res :=
  match s.pushJob commit q with
  | .done t => .done (t.modSt fun x => { x with await := d :: x.await })
  | r => r
def execTagtest (h : Head) (d : SIx) (bn : Fin 4) (a : SIx) (s : State) : Out :=
  .next (s.issue h fun t => t.askForm false d fun _ => .test bn.val (t.sr a) d)

/-! ### Job forms (R286) -/

/-- A form that names a card: nonzero bits 63:12 are fatal. -/
def State.cardForm (s : State) (commit : Bool) (d a : SIx) (bad : Bool) (q : Nat → View → JobReq) : Res :=
  let n := (s.sr a).toNat
  if 4096 ≤ n ∨ bad then s.fault (0x29, 0) n else s.askForm commit d (q n)
def execJpatch (h : Head) (d a b : SIx) (word : Fin 32) (s : State) : Out :=
  .next (s.issue h fun t =>
    t.cardForm true d a (decide (word.val < 2 ∨ 11 < word.val)) fun n _ => .patch n word.val (t.sr b) d)
def execJarm (h : Head) (d a : SIx) (s : State) : Out :=
  .next (s.issue h fun t => t.cardForm true d a false fun n v => .arm n d v)
def execJstat (h : Head) (d a : SIx) (s : State) : Out :=
  .next (s.issue h fun t => t.cardForm false d a false fun n _ => .stat n d)

end Sys2Proof.Machine
end

