-- ==== Sys2Proof/Machine/CopyUnit.lean ====
section
/-!
DEFINITION. Sys2Proof/Machine/CopyUnit.lean: the bytes behind a command's places, granule by granule, and how the copy engine
moves one destination granule (R181, R183, R205 Table 3, R207 to R212).
-/
namespace Sys2Proof.Machine
open Sys2Proof

/-! ### The bytes of a place (R207) -/

/-- Where the bytes of one granule of a place lie: a granule of scratch and a byte in it, memory, or a window outside
its scratch. -/
inductive Site where
  | gran (w : Where) (o : Nat)
  | mem (path addr : Nat)
  | win (core o : Nat)
  deriving DecidableEq, Repr

/-- The site of an address of a place of core k's command: scratch through the parities of the command's view (R207,
R276), then bank permutation. -/
def State.site (s : State) (k : Nat) (e : EView) (p : Place) (bp : Bool) (a : Nat) : Site :=
  match p.kind with
  | .local =>
    let o := dblMap (s.core k).res.hdr e.par a
    .gran (.scr k) (if bp then bankPerm o else o)
  | .elastic => .gran (s.core k).res.elastic a
  | .mem => .mem p.path a
  | .window =>
    let r := a - onChipBase
    if r % 2 ^ 23 < 0x200000 ∧ s.meet (s.core k).res.ctx (r / 2 ^ 23) = .block then
      .gran (.scr (r / 2 ^ 23)) (s.scrOff (r / 2 ^ 23) false (r % 2 ^ 23))
    else .win (r / 2 ^ 23) (r % 2 ^ 23)

/-- The fault of an access of a context to a window (R26, R186, R358). -/
def State.windowFault (s : State) (c : Fin 8) (p : Place) (off n : Nat) : Option Flt :=
  match p.kind with
  | .window =>
    let r := p.addr + off - onChipBase
    match s.meet c (r / 2 ^ 23) with
    | .foreign => some accPerm
    | .between => none
    | .block => if r % 2 ^ 23 < 0x200000 then scrLimit (scrbytes (s.core (r / 2 ^ 23)).res.hdr) (r % 2 ^ 23) n else none
  | _ => none

/-- The same by an engine of core k. -/
def State.placeFault (s : State) (k : Nat) (p : Place) (off n : Nat) : Option Flt := s.windowFault (s.core k).res.ctx p off n
/-- The fault of a copy's access to a place: local scratch is checked before and after bank permutation (R26, R195). -/
def State.copyFault (s : State) (k : Nat) (e : EView) (p : Place) (bp : Bool) (off n : Nat) : Option Flt :=
  if p.kind = .local then
    let lim := scrbytes (s.core k).res.hdr
    if (granPieces (p.addr + off) n).any fun q =>
        decide (lim < q.1 + q.2) || (bp && decide (lim < bankPerm (dblMap (s.core k).res.hdr e.par q.1) + q.2)) then
      some undeclared
    else none
  else s.placeFault k p off n

/-- Bytes of a site inside one granule, read by a command: data, poisoned, the state (R269). -/
def State.siteRead (s : State) (k : Nat) (e : EView) (x : Site) (n : Nat) : List Byte × Bool × State :=
  match x with
  | .gran w o => (s.granRead w o n, s.granPois w o n, s.engLearn e (s.writersOf w o n))
  | .mem p a =>
    let r := s.engRead k e p a n
    (r.1, s.engPois k e p a n, r.2)
  | .win c o =>
    if s.meet (s.core k).res.ctx c = .block then s.readWin .newest c o n else (List.replicate n 0, false, s)

/-- Bytes of a place, granule by granule (R181). -/
def State.placeRead (s : State) (k : Nat) (e : EView) (p : Place) (bp : Bool) (off n : Nat) : List Byte × Bool × State :=
  (granPieces (p.addr + off) n).foldl
    (fun acc q =>
      let r := acc.2.2.siteRead k e (acc.2.2.site k e p bp q.1) q.2
      (acc.1 ++ r.1, acc.2.1 || r.2.1, r.2.2)) ([], false, s)

/-- Write bytes of a site inside one granule, as an engine: a scratch granule becomes full (R183). -/
def State.siteWrite (s : State) (k : Nat) (e : EView) (x : Site) (bs : List Byte) : State :=
  match x with
  | .gran w o => s.engGran (s.engClk e) w (o / 16) (patchGran 0 (o % 16) bs) (granMask o bs.length) false
  | .mem _ a => s.pendStore k a bs
  | .win c o => if s.meet (s.core k).res.ctx c = .block then s.writeWin (s.engClk e) c o true bs else s

/-- Write bytes of a place as an engine; memory bytes join the pending stores. -/
def State.placeWrite (s : State) (k : Nat) (e : EView) (p : Place) (bp : Bool) (off : Nat) (bs : List Byte) : State :=
  (granPieces (p.addr + off) bs.length).foldl
    (fun u q => u.siteWrite k e (u.site k e p bp q.1) ((bs.drop (q.1 - p.addr - off)).take q.2)) s

/-- A granule's number among all that a command may reach. -/
def Site.key : Site → Nat
  | .gran w o => w.key (o / 16)
  | .mem _ a => 2 ^ 80 + a / 16
  | .win c o => 2 ^ 81 + (c * 2 ^ 23 + o) / 16
/-- The byte's place in its granule. -/
def Site.off : Site → Nat
  | .gran _ o => o % 16
  | .mem _ a => a % 16
  | .win _ o => o % 16

/-! ### Elements (R188, R193, R208, R209) -/

/-- Whether a place has scratch layout (R188). -/
def Place.scratch (p : Place) : Bool :=
  match p.kind with
  | .mem => false
  | .window => decide ((p.addr - onChipBase) % 2 ^ 23 < 0x200000)
  | _ => true

/-- The byte runs of one unit of a tensor: an element, or a BX block with its exponent byte (R119). -/
def unitRuns (t : Word) (scr : Bool) (i j : Nat) : List (Nat × Nat) :=
  if (tType t).isBx then
    let ml := if scr then 32 else 4 * (tType t).width
    [(i * tStride t + ml * (j / 32), ml), (tRows t * tStride t + i * expRow t + j / 32, 1)]
  else [(i * tStride t + j * (tType t).width / 8, max 1 ((tType t).width / 8))]

/-- The mantissas of a block as integers modulo 2^8: sign-extended (R119). -/
def blockMants (t : Word) (scr : Bool) (bs : List Byte) : List Nat :=
  let m := (tType t).width
  (upto 0 32).map fun k =>
    if scr then (bs.getD k 0).toNat else wrap 8 (sgn m (bits (ofBytes bs) (m * k + m - 1) (m * k)))
/-- A block's mantissas as bytes of a layout: compaction keeps the low m bits (R209). -/
def blockBytes (t : Word) (scr : Bool) (ms : List Nat) : List Byte :=
  let m := (tType t).width
  if scr then ms.map fun x => BitVec.ofNat 8 x
  else toBytes (4 * m) ((upto 0 32).foldl (fun n k => n + ms.getD k 0 % 2 ^ m * 2 ^ (m * k)) 0)

/-- What a unit is filled from (R208). -/
inductive From where
  | elem (i j : Nat)
  | fill
  | zero
  deriving DecidableEq, Repr

/-- Units per row, and columns per unit. -/
def unitCols (t : Word) : Nat := if (tType t).isBx then 32 else 1
def CopyCmd.rows (x : CopyCmd) : Nat := if x.op = .scatter then tRows x.sshape else tRows x.dshape
def CopyCmd.perRow (x : CopyCmd) : Nat :=
  let t := if x.op = .scatter then x.sshape else x.dshape
  (tCols t + unitCols t - 1) / unitCols t
/-- Units of the whole command. -/
def CopyCmd.units (x : CopyCmd) : Nat := x.rows * x.perRow

/-- An entry of the index list of GATHER or SCATTER (R208): I32 of unpermuted local scratch, taken as it stands in a poisoned
granule too, with nothing reported: a DESIGN CHOICE (notes/assumptions/74.md). -/
def State.listAt (s : State) (k : Nat) (x : CopyCmd) (i : Nat) : Int :=
  sgn 32 (ofBytes (s.granRead (.scr k) (dblMap (s.core k).res.hdr x.view.par (x.list + 4 * i)) 4))

/-- Source and destination of unit n: no destination where SCATTER's clipping omits it (R194, R208). -/
def State.copyMove (s : State) (k : Nat) (x : CopyCmd) (n : Nat) : From × Option (Nat × Nat) :=
  let i := n / x.perRow
  let j := n % x.perRow * unitCols x.dshape
  let src (a b : Int) : From := match clipElem x.flags.clip x.sshape a b with
    | some p => .elem p.1 p.2
    | none => .zero
  match x.op with
  | .copy | .tring => (src (coord x.i + i) (coord x.j + j), some (i, j))
  | .fill => (.fill, some (i, j))
  | .gather => (src (s.listAt k x i) (coord x.i + j), some (i, j))
  | .scatter => (.elem i j, clipElem .zero x.dshape (s.listAt k x i) (coord x.j + j))

/-- The first column of the source that unit n is taken from. -/
def CopyCmd.srcCol (x : CopyCmd) (n : Nat) : Int :=
  let j := n % x.perRow * unitCols x.dshape
  match x.op with
  | .copy | .tring => coord x.j + j
  | .gather => coord x.i + j
  | _ => j
/-- Mantissas of a BX unit whose source columns start at c and whose destination columns start at dj, each with whether it
was read poisoned: padding reads and is written as zero (R118), columns outside the source clip (R194). -/
def clipMants (x : CopyCmd) (c : Int) (dj : Nat) (ms : List (Nat × Bool)) : List (Nat × Bool) :=
  (upto 0 32).map fun k =>
    if tCols x.dshape ≤ dj + k then (0, false)
    else if x.flags.clip = .clamp then ms.getD ((min (max (c + k) 0) (tCols x.sshape - 1)).toNat % 32) (0, false)
    else if c + k < 0 ∨ (tCols x.sshape : Int) ≤ c + k then (0, false)
    else ms.getD k (0, false)

/-- A byte moved, and whether the granule it came from was poisoned (R183). -/
abbrev PByte := Byte × Bool

/-- One granule of a source: under SFE what the command took of it when it found it full, else its state; none while it is
awaited (R205). -/
def State.srcGran (s : State) (k : Nat) (x : CopyRun) (st : Site) (n : Nat) : Option (List Byte × Bool × State × CopyRun) :=
  match st, x.cmd.flags.sfe with
  | .gran w o, .one | .gran w o, .two =>
    match mget x.srcG st.key with
    | some g => some ((toBytes 16 g.1.toNat).drop (o % 16) |>.take n, g.2, s, x)
    | none =>
      let g := s.gran w (o / 16)
      if !g.full then none
      else
        let u := s.engLearn x.cmd.view (s.writersOf w 0 16)
        some ((toBytes 16 g.data.toNat).drop (o % 16) |>.take n, g.pois,
          if x.cmd.flags.sfe = .two then u.granSetFull w [o / 16] false else u,
          { x with srcG := mset x.srcG st.key (g.data, g.pois) })
  | _, _ =>
    let r := s.siteRead k x.cmd.view st n
    some (r.1, r.2.1, r.2.2, x)

/-- The site of a destination address, and what the command has moved of its granule (R207). -/
def State.dstSite (s : State) (k : Nat) (x : CopyCmd) (a : Nat) : Site := s.site k x.view x.dst x.flags.bpd a
/-- Bytes that the command itself has moved and not yet written stand before what a source granule holds (R215); an outbound
command's are seen at its completion only (R211). -/
def State.overlay (s : State) (k : Nat) (x : CopyRun) (st : Site) (bs : List PByte) : List PByte :=
  match (if x.cmd.outb then none else x.buf.find? fun e => (s.dstSite k x.cmd (16 * e.1)).key == st.key) with
  | none => bs
  | some e =>
    ((upto st.off bs.length).zip bs).map fun (b : Nat × PByte) =>
      if !bit e.2.mask b.1 then b.2
      else
        let v := e.2.data.toNat / 256 ^ b.1 % 256
        if bit e.2.low b.1 then (BitVec.ofNat 8 (v % 16 + b.2.1.toNat / 16 * 16), e.2.pois || b.2.2)
        else (BitVec.ofNat 8 v, e.2.pois)

/-- What came of reading source runs: the bytes, or a granule is awaited; the state and the command with what it took. -/
structure SrcGot where
  data : List PByte
  miss : Bool
  s    : State
  x    : CopyRun

/-- Bytes of a source run, granule by granule. -/
def SrcGot.run (k : Nat) (acc : SrcGot) (r : Nat × Nat) : SrcGot :=
  (granPieces (acc.x.cmd.src.addr + r.1) r.2).foldl
    (fun (a : SrcGot) q =>
      let st := a.s.site k a.x.cmd.view a.x.cmd.src a.x.cmd.flags.bps q.1
      match a.s.srcGran k a.x st q.2 with
      | none => { a with miss := true }
      | some g => { a with data := a.data ++ g.2.2.1.overlay k g.2.2.2 st (g.1.map fun b => (b, g.2.1)), s := g.2.2.1, x := g.2.2.2 })
    acc

/-- The byte a 4-bit element shares with its neighbour, as the command's earlier writes and then the destination leave
it (R114). -/
def State.oldByte (s : State) (k : Nat) (x : CopyRun) (a : Nat) : PByte × State :=
  let st := s.dstSite k x.cmd a
  match mget x.buf (a / 16) with
  | some e =>
    if bit e.mask (a % 16) then ((BitVec.ofNat 8 (e.data.toNat / 256 ^ (a % 16)), e.pois), s)
    else
      let r := s.siteRead k x.cmd.view st 1
      ((r.1.headD 0, r.2.1), r.2.2)
  | none =>
    let kept : Option (Nat × Byte) := match st with
      | .mem _ m => (x.out.filter fun b => b.1 == m).getLast?
      | _ => none
    match kept with
    | some b => ((b.2, false), s)
    | none =>
      let r := s.siteRead k x.cmd.view st 1
      ((r.1.headD 0, r.2.1), r.2.2)

/-- The poison of a block's mantissas, by the bytes that hold them. -/
def blockPois (t : Word) (scr : Bool) (bs : List Bool) : List Bool :=
  let m := (tType t).width
  (upto 0 32).map fun k => if scr then bs.getD k false else bs.getD (m * k / 8) false || bs.getD ((m * k + m - 1) / 8) false
/-- The poison of the bytes a block's mantissas are written as. -/
def bytePois (t : Word) (scr : Bool) (ms : List Bool) : List Bool :=
  let m := (tType t).width
  if scr then ms else (upto 0 (4 * m)).map fun b => ms.getD (8 * b / m) false || ms.getD ((8 * b + 7) / m) false

/-- The bytes of a unit in the destination's layout, run by run, and whether each is poisoned. -/
def unitBytes (x : CopyCmd) (scr : Bool) (p : Nat × Nat) (e : PByte) (ms : List (Nat × Bool)) (old : PByte) : List PByte :=
  let t := x.dshape
  let m0 := ms.getD 0 (0, false)
  if (tType t).isBx then
    (blockBytes t scr (ms.map fun m => m.1)).zip (bytePois t scr (ms.map fun m => m.2)) ++ [e]
  else if (tType t).width = 4 then
    let v := m0.1 % 16
    [if p.2 % 2 = 1 then (BitVec.ofNat 8 (old.1.toNat % 16 + 16 * v), m0.2 || old.2)
      else if p.2 + 1 = tCols t then (BitVec.ofNat 8 v, m0.2)
      else (BitVec.ofNat 8 (old.1.toNat / 16 * 16 + v), m0.2)]
  else (toBytes (max 1 ((tType t).width / 8)) m0.1).map fun b => (b, m0.2)

/-- Whether a unit is the low element of a byte whose high element the command moves next (R114). -/
def lowHalf (x : CopyCmd) (p : Nat × Nat) : Bool :=
  !(tType x.dshape).isBx && (tType x.dshape).width == 4 && p.2 % 2 == 0 && p.2 + 1 != tCols x.dshape
/-- Bytes inside one granule join what the command has moved of it. -/
def CopyRun.addPart (low : Bool) (x : CopyRun) (a : Nat) (bs : List PByte) : CopyRun :=
  let p := mgetD x.buf (a / 16) ⟨0, 0, 0, false⟩
  let m := granMask a bs.length
  let q : CopyPart :=
    { data := mergeGran p.data (patchGran 0 (a % 16) (bs.map fun b => b.1)) m
      mask := Nat.lor p.mask m
      low := if low then Nat.lor p.low m else p.low - Nat.land p.low m
      pois := p.pois || bs.any fun b => b.2 }
  { x with buf := mset x.buf (a / 16) q }

/-- What came of one unit: moved, waiting for a source granule, or a fault. -/
inductive Moved where
  | moved (s : State) (x : CopyRun)
  | waits (s : State) (x : CopyRun)
  | faults (f : Flt) (addr : Nat)

/-- Move one unit: its bytes join the granules they lie in (R208, R209, R212). -/
def State.moveUnit (s : State) (k : Nat) (x : CopyRun) : Moved :=
  let c := x.cmd
  let mv := s.copyMove k c x.next
  let x0 : CopyRun := { x with next := x.next + 1 }
  match mv.2 with
  | none => .moved s x0
  | some p =>
    let runs := unitRuns c.dshape c.dst.scratch p.1 p.2
    let sruns := match mv.1 with
      | .elem i j => unitRuns c.sshape c.src.scratch i j
      | _ => []
    match (sruns.filterMap fun r => s.copyFault k c.view c.src c.flags.bps r.1 r.2).head? <|>
        (runs.filterMap fun r => s.copyFault k c.view c.dst c.flags.bpd r.1 r.2).head? with
    | some f => .faults f (c.dst.addr + (runs.headD (0, 0)).1)
    | none =>
      let r := sruns.foldl (SrcGot.run k) ⟨[], false, s, x0⟩
      if r.miss then .waits r.s { r.x with next := x.next }
      else
        let w := (tType c.dshape).width
        let bs := r.data.map fun b => b.1
        let ps := r.data.map fun b => b.2
        let e : PByte := match mv.1 with
          | .elem _ _ => r.data.getLast?.getD (0, false)
          | _ => (0, false)
        let ms : List (Nat × Bool) := match mv.1 with
          | .fill => [(c.i.toNat, false)]
          | .zero => List.replicate 32 (0, false)
          | .elem _ j =>
            if (tType c.dshape).isBx then
              clipMants c (c.srcCol x.next) p.2
                ((blockMants c.sshape c.src.scratch bs.dropLast).zip (blockPois c.sshape c.src.scratch ps.dropLast))
            else if w = 4 then [(bits (bs.headD 0).toNat (4 * (j % 2) + 3) (4 * (j % 2)), ps.headD false)]
            else [(ofBytes bs, ps.any id)]
        let old := if w = 4 ∧ (p.2 % 2 = 1 ∨ c.op = .scatter) then r.s.oldByte k r.x (c.dst.addr + (runs.headD (0, 0)).1) else ((0, false), r.s)
        let bad := if (tType c.dshape).isBx then (if e.2 then some 0 else (upto 0 32).find? fun n => (ms.getD n (0, false)).2)
          else if (ms.getD 0 (0, false)).2 then some 0 else none
        let x1 : CopyRun := { r.x with first := r.x.first <|> bad.map fun n => p.1 * tCols c.dshape + p.2 + n }
        let out := (runs.flatMap fun q => granPieces (c.dst.addr + q.1) q.2).foldl
          (fun (a : CopyRun × List PByte) q => (a.1.addPart (lowHalf c p) q.1 (a.2.take q.2), a.2.drop q.2))
          (x1, unitBytes c c.dst.scratch p e ms old.1)
        .moved old.2 out.1

/-! ### Writing destination granules (R181, R183, R205, R211) -/

/-- Whether byte o of a view belongs to a tensor (R188). -/
def tensorByte (t : Word) (scr : Bool) (o : Nat) : Bool :=
  let rows := tRows t * tStride t
  (decide (o < rows) && decide (o % tStride t < rowBytes t scr)) ||
    ((tType t).isBx && decide (rows ≤ o ∧ o < rows + tRows t * expRow t))
/-- The bytes of a granule of the destination that the command writes. -/
def CopyCmd.wholeMask (x : CopyCmd) (g : Nat) : Nat :=
  (upto 0 16).foldl (fun n i =>
    if x.dst.addr ≤ 16 * g + i ∧ tensorByte x.dshape x.dst.scratch (16 * g + i - x.dst.addr) then n + 2 ^ i else n) 0
/-- Whether a granule has all the bytes that one write gives it: every byte of the tensor in it; for SCATTER, where rows
lie as the list says, those of one row. -/
def CopyRun.ready (x : CopyRun) (e : Nat × CopyPart) : Bool :=
  decide (x.cmd.units ≤ x.next) ||
    (if x.cmd.op = .scatter then (e.2.mask == 65535 && e.2.low == 0) || x.next % x.cmd.perRow == 0 else e.2.mask == x.cmd.wholeMask e.1 && e.2.low == 0)

/-- Whether a destination granule must still empty (R205 DWE), or a q25 behind a window must (R186).  DWE does not wait again for a
granule that the command itself has written: a DESIGN CHOICE (notes/assumptions/74.md). -/
def State.dstWaits (s : State) (k : Nat) (x : CopyRun) (e : Nat × CopyPart) : Bool :=
  match s.dstSite k x.cmd (16 * e.1) with
  | .gran w o =>
    (x.cmd.flags.dwe && !x.dstG.contains e.1 && s.granBusy w (o / 16)) ||
      (match w with
       | .scr c => s.holdFull c
       | .ela _ _ => false)
  | .win c o => o / 16 == 0x28000 && e.2.mask == 65535 && (decide (64 ≤ (s.core c).qUsed 25) || s.holdFull c)
  | .mem _ _ => false

/-- Write one destination granule, as one write (R181): a scratch granule becomes full, and poisoned where a byte moved into
it was (R183); memory bytes are kept until completion (R211). -/
def State.dstWrite (s : State) (k : Nat) (x : CopyRun) (e : Nat × CopyPart) : State × CopyRun :=
  let st := s.dstSite k x.cmd (16 * e.1)
  let bytes := (toBytes 16 e.2.data.toNat).zip (upto 0 16) |>.filter fun b => bit e.2.mask b.2
  let x1 : CopyRun := { x with
    buf := mdel x.buf e.1
    dstG := if x.dstG.contains e.1 then x.dstG else e.1 :: x.dstG
    srcG := match mget x.srcG st.key with
      | some g => mset x.srcG st.key (mergeGran g.1 e.2.data e.2.mask, g.2)
      | none => x.srcG }
  match st with
  | .mem _ a =>
    let dstP := if e.2.pois then (if x.dstP.contains e.1 then x.dstP else e.1 :: x.dstP)
      else if e.2.mask = 65535 then x.dstP.filter fun g => g != e.1 else x.dstP
    (s, { x1 with out := x.out ++ bytes.map fun b => (a + b.2, b.1), dstP := dstP })
  | .gran w o => (s.engGran (s.engClk x.cmd.view) w (o / 16) e.2.data e.2.mask e.2.pois, x1)
  | .win c o =>
    if s.meet (s.core k).res.ctx c != .block then (s, x1)
    else if e.2.mask = 65535 then (s.writeWin (s.engClk x.cmd.view) c o true (bytes.map fun b => b.1), x1)
    else (bytes.foldl (fun u b => u.writeWin (s.engClk x.cmd.view) c (o + b.2) true [b.1]) s, x1)

/-- Whether units are left that have a destination, or granules to write (R213). -/
def State.copyLeft (s : State) (k : Nat) (x : CopyRun) : Bool :=
  !x.buf.isEmpty || (upto x.next (x.cmd.units - x.next)).any fun n => (s.copyMove k x.cmd n).2.isSome

/-- Move units, at most n, until a destination granule is written or the command waits (R181, R212). -/
def State.moveGran : Nat → State → Nat → CopyRun → Moved
  | 0, s, _, x => .moved s x
  | n + 1, s, k, x =>
    match x.buf.find? x.ready with
    | some e =>
      if s.dstWaits k x e then .waits s x
      else
        let r := s.dstWrite k x e
        .moved r.1 r.2
    | none =>
      if x.cmd.units ≤ x.next then .moved s x
      else match s.moveUnit k x with
        | .moved t y => t.moveGran n k y
        | r => r

/-- Whether a running copy waits only on a full granule of the core's own scratch, or on a full q25 (R350). -/
def State.copyStuck (s : State) (k : Nat) (x : CopyRun) : Bool :=
  if x.done then decide (64 ≤ (s.core k).qUsed 25)
  else x.waited && (x.buf.find? x.ready).any fun e => x.cmd.dst.kind == .local && s.dstWaits k x e

end Sys2Proof.Machine
end

