-- ==== Sys2Proof/Machine/Copy.lean ====
section
/-!
DEFINITION. Sys2Proof/Machine/Copy.lean: the copy engine's forms and its four transfer queues (R205 to R215).
-/
namespace Sys2Proof.Machine
open Sys2Proof

/-! ### Issue (R206, R207, R211) -/

/-- Panel shape of a ring type (R243 Table 4). -/
def panelShape (ty : Ty) : Word :=
  let cols := if ty.isBx ∨ ty.width = 16 then 32 else 64
  let stride := if ty.isBx then 32 else 64
  w64 (ty.code * 2 ^ 59 + 63 * 2 ^ 40 + (cols - 1) * 2 ^ 24 + stride)

/-- The place of a tensor behind a handle: its length is the tensor's footprint. -/
def State.tensorPlace (s : State) (h : Handle) (t : Word) : Place :=
  { hPlace s h with len := footprint t (scratchLayout h) }

/-- What R206 asks of a side that sets BP or a full/empty flag. -/
def sideFlags (h : Handle) (bp fe : Bool) : Option Flt :=
  if (bp && hKind h != 1) || (fe && !scratchLayout h) then some accPerm else none
/-- The checks of one side of a copy (R193, R195, R206, R309); the scratch bytes accessed are checked at the access (R26). -/
def State.copySide (s : State) (h : Handle) (t : Word) (q : Fin 4) (write bp fe : Bool) : Option Flt :=
  firstFlt [tensorCheck h t (2 + q.val) write false, sideFlags h bp fe, s.leaseFault (handleExts h)]

/-- The check of an index list of n entries at a scratch offset (R206). -/
def State.listFault (s : State) (o : Word) (n : Nat) : Option Flt :=
  if o.toNat % 4 = 0 ∧ o.toNat + 4 * n ≤ scrbytes s.res.hdr then none else some undeclared

/-- Whether a copy's whole destination lies in one refetch range (R19): the granules that the double-buffer mapping gives
at issue, before any bank permutation, are compared, a DESIGN CHOICE (R195; notes/assumptions/48.md). -/
def refetched (hdr : List Word) (par : Vector Bool 8) (p : Place) : Bool :=
  p.kind == .local && (upto 0 (bits (wd hdr 7) 55 52)).any fun n =>
    let w := wd hdr (24 + n)
    (touchGrans p.addr p.len).all fun g =>
      let o := dblMap hdr par (16 * g) / 16
      decide (bits w 63 46 ≤ o ∧ o < bits w 63 46 + bits w 45 28)

/-- Entries of a transfer queue, its running command included. -/
def Core.cqUsed (c : Core) (q : Fin 4) : Nat := c.cq[q].length + b2n c.crun[q].isSome

/-- Place a command in its transfer queue: an inbound one is logged or commits the phase early, one on path 3 commits it
early (R19, R165, R211). -/
def State.pushCopy (s : State) (x : CopyCmd) : Res :=
  s.enginePush (decide (16 ≤ s.me.cqUsed x.q)) fun t =>
    let seq := (t.me.cseq[x.q] + 1) % 2 ^ 32
    let outb := x.dst.kind == .mem
    let logged := !outb && refetched t.res.hdr t.me.r.par x.dst && decide (t.me.log.length < 32)
    let t1 := if outb || logged then t else t.earlyCommit t.cur
    let v := t1.engView t1.cur t1.cur
    let y : CopyCmd := { x with seq := seq, outb := outb, view := v.1 }
    (v.2.modMe fun c => { c with
      log := if logged then c.log ++ [⟨y, false, false⟩] else c.log
      cseq := c.cseq.set y.q seq
      cq := c.cq.set y.q (c.cq[y.q] ++ [y]) }).countCmd

/-- A command record before its queue gives it a SEQ and its view. -/
def State.copyCmd (s : State) (op : CpOp) (q : Fin 4) (f : CopyFlags) (m : Sems) (src dst : Place) (ss ds i j : Word)
    (list : Nat) : CopyCmd where
  op := op
  q := q
  flags := f
  sems := m
  ring := 0
  panel := 0
  seq := 0
  src := src
  sshape := ss
  dst := dst
  dshape := ds
  i := i
  j := j
  outb := false
  ph := s.me.ph
  pos := s.st.pos
  list := list
  cancelled := false
  silent := false
  view := EView.none

/-- COPY, GATHER and SCATTER: R193 for each pair and the checks of R206, then the record. -/
def State.copyForm (s : State) (op : CpOp) (hd hs : HIx) (td ts : TIx) (i j : SIx) (m : Sems) (q : Fin 4)
    (f : CopyFlags) : Res :=
  let d := s.newH hd
  let r := s.newH hs
  let dt := s.newT td
  let st := s.newT ts
  let vi := s.sr i
  let vj := s.sr j
  let org := if op = .gather then coord vi else coord vj
  match firstFlt
    [ tensorCheck r st (2 + q.val) false false,
      tensorCheck d dt (2 + q.val) true false,
      s.copySide r st q false f.bps (f.sfe != .plain),
      s.copySide d dt q true f.bpd f.dwe,
      if tType st = tType dt then none else some accBounds,
      if (tType dt).isBx && org % 32 != 0 then some accBounds else none,
      if op = .copy ∧ f.clip = .none ∧
          !(decide (0 ≤ coord vi ∧ coord vi + tRows dt ≤ tRows st ∧ 0 ≤ coord vj ∧ coord vj + tCols dt ≤ tCols st)) then
        some accBounds else none,
      if op = .gather then s.listFault vj (tRows dt) else none,
      if op = .scatter then s.listFault vi (tRows st) else none ] with
  | some e => s.fault e (hBase r)
  | none =>
    s.pushCopy (s.copyCmd op q f m (s.tensorPlace r st) (s.tensorPlace d dt) st dt vi vj
      (if op = .gather then vj.toNat else if op = .scatter then vi.toNat else 0))

def execCopy (h : Head) (hd hs : HIx) (td ts : TIx) (i j : SIx) (m : Sems) (q : Fin 4) (f : CopyFlags) (s : State) : Out :=
  .next (s.issue h fun t => t.copyForm .copy hd hs td ts i j m q f)
def execGather (h : Head) (hd hs : HIx) (td ts : TIx) (i j : SIx) (m : Sems) (q : Fin 4) (f : CopyFlags) (s : State) : Out :=
  .next (s.issue h fun t => t.copyForm .gather hd hs td ts i j m q f)
def execScatter (h : Head) (hd hs : HIx) (td ts : TIx) (i j : SIx) (m : Sems) (q : Fin 4) (f : CopyFlags) (s : State) : Out :=
  .next (s.issue h fun t => t.copyForm .scatter hd hs td ts i j m q f)

def execFill (h : Head) (hd : HIx) (td : TIx) (i : SIx) (m : Sems) (q : Fin 4) (bpd dwe evt : Bool) (s : State) : Out :=
  .next (s.issue h fun t =>
    let d := t.newH hd
    let dt := t.newT td
    match firstFlt [t.copySide d dt q true bpd dwe, if (tType dt).isBx then some accBounds else none] with
    | some e => t.fault e (hBase d)
    | none =>
      t.pushCopy (t.copyCmd .fill q ⟨.none, false, bpd, .plain, dwe, evt⟩ m Place.none (t.tensorPlace d dt) 0 dt (t.sr i) 0 0))

/-- The distance between two 32-bit panel counts (R244). -/
def panelDiff (a b : Nat) : Nat := (a + 2 ^ 32 - b % 2 ^ 32) % 2 ^ 32
/-- TRING: its slot is the ring's reserved tail; it waits while every slot is taken, and commits the phase early when only
tentatively freed slots are left (R210, R244, R258).  A BX type needs SJ a multiple of 32 as in COPY (R206 does not name TRING):
a DESIGN CHOICE (notes/assumptions/73.md). -/
def State.tringForm (s : State) (n : Fin 8) (hs : HIx) (ts : TIx) (i j : SIx) (m : Sems) (q : Fin 4) (f : CopyFlags) : Res :=
  let r := s.newH hs
  let st := s.newT ts
  let g := s.me.ring[n]
  match firstFlt
    [ s.copySide r st q false f.bps (f.sfe != .plain),
      if g.cfg then none else some accBounds,
      if tType st = g.ty then none else some accBounds,
      if (tType st).isBx && coord (s.sr j) % 32 != 0 then some accBounds else none ] with
  | some e => s.fault e (hBase r)
  | none =>
    if g.slots ≤ panelDiff g.rtail g.head then .wait .other s
    else if 16 ≤ s.me.cqUsed q then .wait .engineQ s
    else
      let t := if g.slots ≤ panelDiff g.rtail g.thead then s.earlyCommit s.cur else s
      let dst : Place := ⟨.local, 0, 0, g.base + 4096 * (g.rtail % g.slots), footprint (panelShape g.ty) true⟩
      let x := t.copyCmd .tring q f m (t.tensorPlace r st) dst st (panelShape g.ty) (t.sr i) (t.sr j) 0
      match t.pushCopy { x with ring := n, panel := g.rtail } with
      | .done u => .done (u.modMe fun c => { c with ring := c.ring.set n { c.ring[n] with rtail := (g.rtail + 1) % 2 ^ 32 } })
      | w => w
def execTring (h : Head) (n : Fin 8) (hs : HIx) (ts : TIx) (i j : SIx) (m : Sems) (q : Fin 4) (f : CopyFlags) (s : State) : Out :=
  .next (s.issue h fun t => t.tringForm n hs ts i j m q f)

/-- CCANCEL: commands not completed, TRING apart; one whose last granule is written completes normally (R213). -/
def execCcancel (h : Head) (q : Fin 4) (s : State) : Out :=
  .next (s.issue1 h fun t => (t.modMe fun c => { c with
    cq := c.cq.set q (c.cq[q].map fun x => if x.op = .tring ∨ x.silent then x else { x with cancelled := true })
    crun := c.crun.set q (c.crun[q].map fun x =>
      if x.cmd.op = .tring ∨ x.cmd.silent ∨ x.done ∨ !t.copyLeft t.cur x then x else { x with cancel := true }) }).orderReads)

/-! ### Acquires of engine writes (R266, R270) -/

/-- Remember what a command wrote, until its entry or element is popped: its writes by agent and number, and the bytes. -/
def Core.noteAcq (c : Core) (queue seq : Nat) (v : View) (as : List Nat) : Core :=
  if as.isEmpty then c else { c with acqs := mset c.acqs (2 ^ 32 * queue + seq) (v, as) }
/-- A pop acquires that command's writes and no others: no later read of the core returns an older value. -/
def Core.acquire (c : Core) (queue seq : Nat) : Core :=
  let x := mgetD c.acqs (2 ^ 32 * queue + seq) ([], [])
  { c with
    acqs := mdel c.acqs (2 ^ 32 * queue + seq)
    clk := c.clk.join x.1
    rfc := c.rfc.join x.1
    seen := x.2.foldl (fun m a => mdel m a) c.seen }

/-- EVPOP: an entry that a command pushed acquires its writes, one written through path 3 nothing (R214). -/
def execEvpop (h : Head) (d e : SIx) (s : State) : Out :=
  .next (s.issue h fun t =>
    match t.me.q25 with
    | [] => .wait .other t
    | x :: r =>
      .done (((t.modMe fun c =>
        { (x.src.elim c fun k => c.acquire k.1 k.2) with q25 := r, pop25 := c.pop25 ++ [x] }).setS d
          (w64 x.data.toNat)).setS e (w64 (x.data.toNat / 2 ^ 64))).orderReads)

/-! ### The transfer queues (R211 to R213) -/

/-- Whether the engines of core k may act: it holds a block, its context is not stopped, and while it is halted the core's
holding buffer has room (R360). -/
def State.engineOn (s : State) (k : Nat) : Bool :=
  !s.down && (s.core k).blk.any (fun r => !(s.ctx r.ctx.val).stopped) && !s.holdFull k
/-- Whether they may start a command: not while the context is halted (R360). -/
def State.engineStarts (s : State) (k : Nat) : Bool := s.engineOn k && !s.haltedCore k

def State.setRun (s : State) (k : Nat) (q : Fin 4) (x : Option CopyRun) : State :=
  s.modCore k fun c => { c with crun := c.crun.set q x }

/-- A completely written panel is present once every earlier one is (R210). -/
def Ring.advance : Nat → Ring → Ring
  | 0, g => g
  | n + 1, g => if g.done.contains g.tail then
      Ring.advance n { g with tail := (g.tail + 1) % 2 ^ 32, done := g.done.filter fun p => p != g.tail } else g
/-- Panel p of a ring is completely written (R244); one that TAIL has passed, written again after a cancel, is there already. -/
def Ring.written (g : Ring) (p : Nat) : Ring :=
  if panelDiff p g.tail < 512 then Ring.advance (g.slots + 1) { g with done := g.done ++ [p] } else g
/-- The granules of a transfer queue's command are all written: a TRING's panel is there (R210, R244), whatever still holds back
the command's completion. -/
def State.copyDone (s : State) (k : Nat) (q : Fin 4) (x : CopyRun) : State :=
  (s.setRun k q (some { x with done := true })).modCore k fun c =>
    { c with ring := if x.cmd.op = .tring then c.ring.set x.cmd.ring (c.ring[x.cmd.ring].written x.cmd.panel) else c.ring }

/-- Whether a command is held: an outbound one until its phase ends or commits early (R211). -/
def CopyCmd.held (x : CopyCmd) (c : Core) : Bool := x.outb && x.ph == c.ph && !c.early && !x.cancelled
/-- The head of a transfer queue starts, passes its semaphore, or moves its next granule (R211 to R213). -/
def execCopyCommand (k : Nat) (q : Fin 4) (s : State) : Out :=
  .next (
    if !s.engineOn k then s
    else
      let c := s.core k
      match c.crun[q] with
      | none =>
        match c.cq[q] with
        | [] => s
        | x :: r =>
          if !s.engineStarts k || x.held c then s
          else
            s.setCore k { c with
              cq := c.cq.set q r
              crun := c.crun.set q (some
                { cmd := x, waited := !x.sems.wen || x.silent, next := 0, first := none, cancel := x.cancelled,
                  done := x.cancelled, srcG := [], buf := [], dstG := [], dstP := [], out := [] }) }
      | some x =>
        if x.done then s
        else if x.cancel then
          (s.setRun k q (some { x with done := true, buf := [] })).modCore k fun c =>
            { c with semq := c.semq.map fun l => l.filter fun w => w.2 != .copy q }
        else if !x.waited then
          let r := s.semTake k x.cmd.sems.semw (.copy q) 1 x.cmd.ph
          if r.1 then r.2.setRun k q (some { x with waited := true }) else r.2
        else if x.cmd.units ≤ x.next ∧ x.buf.isEmpty then s.copyDone k q x
        else match s.moveGran 64 k x with
          | .waits t y => t.setRun k q (some y)
          | .faults f a => s.fatalAgent k 1 f.1 f.2 a
          | .moved t y => if y.cmd.units ≤ y.next ∧ y.buf.isEmpty then t.copyDone k q y else t.setRun k q (some y))

/-- OP of a record (R207). -/
def CpOp.code : CpOp → Nat
  | .copy => 0 | .fill => 1 | .gather => 2 | .scatter => 3 | .tring => 4
/-- The completion entry of a copy (R212 Table 5). -/
def copyEntry (x : CopyRun) (status : Nat) : Gran :=
  let w0 := 0xC1 * 2 ^ 56 + status * 2 ^ 48 + x.cmd.q.val * 2 ^ 46 + x.cmd.op.code * 2 ^ 43 + x.cmd.seq % 2 ^ 32
  let w1 := (x.first.getD 0) % 2 ^ 32 * 2 ^ 32 + x.dstG.length % 2 ^ 32
  BitVec.ofNat 128 (w1 * 2 ^ 64 + w0)
def CopyRun.status (x : CopyRun) : Nat := if x.cancel then 0x53 else if x.first.isSome then 0x52 else 0

/-- A copy completes: its outbound writes become visible, then the signal and the entry together (R211, R212); one that is
performed again and met bad source data escalates (R366). -/
def execCopyCompletion (k : Nat) (q : Fin 4) (s : State) : Out :=
  .next (
    if !s.engineOn k then s
    else match (s.core k).crun[q] with
      | none => s
      | some x =>
        let c := s.core k
        let e := x.cmd.view
        let live := c.mark != .dying && !x.cmd.silent
        let entry := live && (x.cmd.flags.evt || x.status != 0)
        if !x.done || (entry && decide (64 ≤ c.qUsed 25)) then s
        else if x.cmd.outb && s.rowsPinned (x.out.map fun b => b.1) then s.clearRows (x.out.map fun b => b.1)
        else if x.cmd.silent && x.first.isSome then s.trigger k ⟨0x45, x.cmd.ph, x.cmd.src.addr, 3, 1⟩
        else
          let s1 := if x.cmd.outb then (s.engWrite e x.out).setPoison x.dstP else s
          let v := s1.engDone e
          let s2 := s1.modCore k fun c =>
            ({ (if entry then c.noteAcq (12 + q.val) x.cmd.seq (s1.ownWrites e) (x.out.map fun b => b.1) else c) with
              crun := c.crun.set q none
              log := c.log.map fun y => if y.cmd.q = q ∧ y.cmd.seq = x.cmd.seq then { y with done := true } else y } : Core).wake
          let s3 := if live && x.cmd.sems.sen then s2.give k (.sem x.cmd.sems.sems 1 x.cmd.ph v) else s2
          let s4 := if entry then s3.give k (.ev ⟨copyEntry x x.status, x.cmd.ph, some (12 + q.val, x.cmd.seq)⟩) else s3
          s4.settle k)

end Sys2Proof.Machine
end

