-- ==== Sys2Proof/Machine/MatrixMath.lean ====
section
/-!
DEFINITION. Sys2Proof/Machine/MatrixMath.lean: the arithmetic of a K-step and of checksum mode (R126, R127, R251, R252).
-/
namespace Sys2Proof.Machine
open Sys2Proof

/-- A format word's fields (R239). -/
def fwA (w : BitVec 32) : Ty := (Ty.ofCode (bits w.toNat 31 27)).getD .i8
def fwB (w : BitVec 32) : Ty := (Ty.ofCode (bits w.toNat 26 22)).getD .i8
def fwInt (w : BitVec 32) : Bool := bit w.toNat 21
def fwCk (w : BitVec 32) : Bool := bit w.toNat 20
def fwRm (w : BitVec 32) : RM := (RM.ofCode (bits w.toNat 19 17)).getD .rne
def fwSat (w : BitVec 32) : Bool := bit w.toNat 16
def fwFx (w : BitVec 32) : Int := sgn 8 (bits w.toNat 15 8)

/-- A row of a panel: element bytes or mantissas, and the block exponent of a BX row. -/
structure PRow where
  el  : List Nat
  exp : Nat
  deriving DecidableEq, Repr

/-- The value of element k of a row of type t (R116, R118). -/
def PRow.val (r : PRow) (t : Ty) (k : Nat) : Val :=
  let w := r.el.getD k 0
  if t.isBx then
    if r.exp = 255 then .nan false
    else
      let n := sgn t.width w
      .fin (decide (n < 0)) n.natAbs ((r.exp : Int) - 127 - (t.width : Int) + 2) false
  else tyValue t w

/-- acc + Σ products, exact: NaN and infinity by the rules for the sum as a whole, in no order (R126). -/
def exactSum (acc : Val) (terms : List (Val × Nat)) : Val × Nat :=
  let vs := acc :: terms.map fun x => x.1
  let fl := terms.foldl (fun f x => f ||| x.2) (flagIf acc.sig fIV)
  let up := vs.any fun v => match v with
    | .inf false => true
    | _ => false
  let dn := vs.any fun v => match v with
    | .inf true => true
    | _ => false
  let fl2 := fl ||| flagIf (up && dn) fIV
  if vs.any Val.isNaN || (up && dn) then (.nan false, fl2)
  else if up then (.inf false, fl2)
  else if dn then (.inf true, fl2)
  else (terms.foldl (fun a x => (a.add x.1 .rne).1) acc, fl2)

/-- Saturate into I56 (R126, R127). -/
def sat56 (n : Int) : Nat × Nat :=
  let r := satInt .i56 n
  (wrap 56 r.1, flagIf r.2 fIO)

/-- Elements of a K-step. -/
def kWidth (t : Ty) : Nat := if t.isBx ∨ t.width = 16 then 32 else 64

/-- One element's K-step: the new 56 bits and the flags (R126, R127). -/
def kElem (w : BitVec 32) (acc : Nat) (a b : PRow) : Nat × Nat :=
  let ta := fwA w
  let tb := fwB w
  let ks := upto 0 (kWidth ta)
  if ta.isBx then
    let d : Int := (ks.map fun k => sgn ta.width (a.el.getD k 0) * sgn tb.width (b.el.getD k 0)).foldl (· + ·) 0
    let e : Int := (a.exp : Int) - 127 - ta.width + 2 + ((b.exp : Int) - 127 - tb.width + 2)
    if a.exp = 255 ∨ b.exp = 255 then (if fwInt w then (acc, fIV) else (canonNaN .a56, 0))
    else if fwInt w then
      let q := roundMag .rne (decide (d < 0)) d.natAbs (fwFx w - e) false
      sat56 (intOf .i56 acc + sint (decide (d < 0)) q.1)
    else
      let s := (fvalue .a56 acc).add (dyad d e false) .rne
      let r := roundTo .a56 s.1 .rne false
      (r.1, r.2 ||| s.2)
  else if fwInt w then
    sat56 ((ks.map fun k => intOf ta (a.el.getD k 0) * intOf tb (b.el.getD k 0)).foldl (· + ·) (intOf .i56 acc))
  else
    let s := exactSum (fvalue .a56 acc) (ks.map fun k => (a.val ta k).mul (b.val tb k))
    let r := roundTo .a56 s.1 .rne false
    (r.1, r.2 ||| s.2)

/-- FP32 sums over the rows of a panel, one for each k (R252). -/
def ckSums (t : Ty) (rows : List PRow) : List Val × Nat :=
  (upto 0 (kWidth t)).foldl
    (fun acc k =>
      let r := rows.foldl
        (fun (s : Val × Nat) row =>
          let x := s.1.add (row.val t k) .rne
          let y := roundTo .f32 x.1 .rne false
          (fvalue .f32 y.1, s.2 ||| x.2 ||| y.2)) (.fin false 0 0 false, 0)
      (acc.1 ++ [r.1], acc.2 ||| r.2)) ([], 0)

/-- An A56 element plus an exact sum of products, rounded (R252). -/
def ckElem (acc : Nat) (xs ys : List Val) : Nat × Nat :=
  let s := exactSum (fvalue .a56 acc) ((xs.zip ys).map fun p => p.1.mul p.2)
  let r := roundTo .a56 s.1 .rne false
  (r.1, r.2 ||| s.2)

end Sys2Proof.Machine
end

