-- ==== Sys2Proof/Machine/VecMath.lean ====
section
/-!
DEFINITION. Sys2Proof/Machine/VecMath.lean: one lane of each vector form, conversions, and the reduction tree (R128, R222 to
R226, R231, R234).  Every function takes and answers encodings; the second component is the flags of the lane.
-/
namespace Sys2Proof.Machine
open Sys2Proof

/-- An exact integer result: wrapped, or clamped with IO (R223). -/
def intRes (t : Ty) (sat : Bool) (n : Int) : Nat × Nat :=
  if sat then
    let r := satInt t n
    (wrap t.width r.1, flagIf r.2 fIO)
  else (wrap t.width n, 0)
/-- A floating result: its one rounding (R224). -/
def fltRes (t : Ty) (rm : RM) (sat : Bool) (x : Val × Nat) : Nat × Nat :=
  let r := roundTo t x.1 rm sat
  (r.1, x.2 ||| r.2)

def lAdd (t : Ty) (rm : RM) (sat : Bool) (a b : Nat) : Nat × Nat :=
  if tyFl t then fltRes t rm sat ((fvalue t a).add (fvalue t b) rm) else intRes t sat (intOf t a + intOf t b)
def lSub (t : Ty) (rm : RM) (sat : Bool) (a b : Nat) : Nat × Nat :=
  if tyFl t then fltRes t rm sat ((fvalue t a).add (fvalue t b).negate rm) else intRes t sat (intOf t a - intOf t b)
def lMul (t : Ty) (rm : RM) (sat : Bool) (a b : Nat) : Nat × Nat :=
  if tyFl t then fltRes t rm sat ((fvalue t a).mul (fvalue t b)) else intRes t sat (intOf t a * intOf t b)
/-- a × b + c; a × b − c; c − a × b (R222, R223). -/
def lFma (t : Ty) (rm : RM) (sat : Bool) (a b c : Nat) : Nat × Nat :=
  if tyFl t then fltRes t rm sat ((fvalue t a).fma (fvalue t b) (fvalue t c) rm)
  else intRes t sat (intOf t a * intOf t b + intOf t c)
def lFms (t : Ty) (rm : RM) (sat : Bool) (a b c : Nat) : Nat × Nat :=
  if tyFl t then fltRes t rm sat ((fvalue t a).fma (fvalue t b) (fvalue t c).negate rm)
  else intRes t sat (intOf t a * intOf t b - intOf t c)
def lFnma (t : Ty) (rm : RM) (sat : Bool) (a b c : Nat) : Nat × Nat :=
  if tyFl t then fltRes t rm sat ((fvalue t a).negate.fma (fvalue t b) (fvalue t c) rm)
  else intRes t sat (intOf t c - intOf t a * intOf t b)
def lDiv (t : Ty) (rm : RM) (sat : Bool) (a b : Nat) : Nat × Nat := fltRes t rm sat ((fvalue t a).div (fvalue t b))

/-- |a| and −a: on the sign bit alone for floating types (R223, R224). -/
def lAbs (t : Ty) (sat : Bool) (a : Nat) : Nat × Nat :=
  if tyFl t then (a % 2 ^ (t.width - 1), 0) else intRes t sat (intOf t a).natAbs
def lNeg (t : Ty) (sat : Bool) (a : Nat) : Nat × Nat :=
  if tyFl t then (Nat.xor a (2 ^ (t.width - 1)), 0) else intRes t sat (-intOf t a)
def lMulh (t : Ty) (a b : Nat) : Nat × Nat :=
  (if t.signed then aluMulh t.width a b else aluMulhn t.width a b, 0)

/-- The class bit (R224). -/
def lClass (t : Ty) (a : Nat) : Nat × Nat :=
  let sub (m : Nat) (e : Int) : Bool := decide ((log2 m : Int) + e < (tyFmt t).emin)
  (match fvalue t a with
    | .inf true => 1
    | .fin true m e _ => if m = 0 then 8 else if sub m e then 4 else 2
    | .fin false m e _ => if m = 0 then 16 else if sub m e then 32 else 64
    | .inf false => 128
    | .nan true => 256
    | .nan false => 512, 0)
/-- a × 2^b (R222): beyond ±1,000 every b acts alike on every F type. -/
def lScale (t : Ty) (rm : RM) (sat : Bool) (a b : Nat) : Nat × Nat :=
  let k : Int := max (-1000) (min 1000 (sgn t.width b))
  match fvalue t a with
  | .fin n m e st => if m = 0 then (a, 0) else roundTo t (.fin n m (e + k) st) rm sat
  | .inf _ => (a, 0)
  | .nan sg => (canonNaN t, flagIf sg fIV)
def lRint (t : Ty) (rm : RM) (a : Nat) : Nat × Nat :=
  let r := roundIntegral (fvalue t a) rm
  let x := roundTo t r.1 rm false
  (x.1, x.2 ||| flagIf r.2 fNX)
def lSgn (t : Ty) (a b : Nat) : Nat × Nat :=
  (a % 2 ^ (t.width - 1) + b / 2 ^ (t.width - 1) % 2 * 2 ^ (t.width - 1), 0)
/-- min(max(a, b), c) (R222). -/
def lClamp (t : Ty) (a b c : Nat) : Nat × Nat :=
  let x := minMax t true a b
  let y := minMax t false x.1 c
  (y.1, x.2 ||| y.2)
/-- Magnitude of a value. -/
def Val.mag : Val → Val
  | .nan s => .nan s
  | .inf _ => .inf false
  | .fin _ m e st => .fin false m e st
def lAbd (t : Ty) (rm : RM) (sat : Bool) (a b : Nat) : Nat × Nat :=
  if tyFl t then
    let d := (fvalue t a).add (fvalue t b).negate rm
    fltRes t rm sat (d.1.mag, d.2)
  else (wrap t.width (intOf t a - intOf t b).natAbs, 0)

/-- A conversion between two element types (R124, R225). -/
def convert (ty tz : Ty) (rm : RM) (sat : Bool) (a : Nat) : Nat × Nat :=
  if tyFl ty || tyFl tz then roundTo tz (tyValue ty a) rm sat
  else
    let n := intOf ty a
    if sat then
      let r := satInt tz n
      (wrap tz.width r.1, flagIf r.2 fCS)
    else (wrap tz.width n, flagIf (decide (intOf tz (wrap tz.width n) ≠ n)) fIO)

/-- An element written into an accumulator (R234): into I56 rounded, then saturated with IO; NaN gives 0 with IV. -/
def toAcc (ty tz : Ty) (rm : RM) (sat : Bool) (a : Nat) : Nat × Nat :=
  if tz = .i56 then
    match tyValue ty a with
    | .nan _ => (0, fIV)
    | .inf n => (wrap 56 (if n then intMin .i56 else intMax .i56), fIO)
    | .fin n m e st =>
      let r := roundMag rm n m (-e) st
      let c := satInt .i56 (sint n r.1)
      (wrap 56 c.1, if c.2 then fIO else flagIf r.2 fNX)
  else roundTo .a56 (tyValue ty a) rm sat

/-! ### Reductions (R128, R231) -/

/-- One level of the tree. -/
def treeLevel (op : Nat → Nat → Nat × Nat) : List Nat → List Nat × Nat
  | a :: b :: r =>
    let x := op a b
    let y := treeLevel op r
    (x.1 :: y.1, x.2 ||| y.2)
  | l => (l, 0)
/-- The tree, of at most k levels. -/
def treeGo (op : Nat → Nat → Nat × Nat) : Nat → List Nat → Nat → Nat × Nat
  | 0, l, f => (l.headD 0, f)
  | k + 1, l, f =>
    let x := treeLevel op l
    treeGo op k x.1 (f ||| x.2)
/-- The tree over at most 64 elements. -/
def tree (op : Nat → Nat → Nat × Nat) (l : List Nat) : Nat × Nat := treeGo op 6 l 0

/-- Reductions. -/
inductive Red where
  | sum | max | min | amax | sumsq
  deriving DecidableEq, Repr

/-- The identity of an inactive lane (R128). -/
def Red.ident (r : Red) (t : Ty) : Nat :=
  match r with
  | .sum | .sumsq => if tyFl t then zeroEnc t true else 0
  | .max => if tyFl t then infEnc t true else wrap t.width (intMin t)
  | .min => if tyFl t then infEnc t false else wrap t.width (intMax t)
  | .amax => 0
/-- What an active lane contributes (R231). -/
def Red.lane (r : Red) (t : Ty) (rm : RM) (sat : Bool) (a : Nat) : Nat × Nat :=
  match r with
  | .sumsq => lMul t rm sat a a
  | .amax => if tyFl t then (a % 2 ^ (t.width - 1), 0) else ((intOf t a).natAbs, 0)
  | _ => (a, 0)
def Red.op (r : Red) (t : Ty) (rm : RM) (sat : Bool) (a b : Nat) : Nat × Nat :=
  match r with
  | .sum | .sumsq => lAdd t rm sat a b
  | .max => minMax t true a b
  | .min => minMax t false a b
  | .amax => if tyFl t then minMax t true a b else (Nat.max a b, 0)
/-- A reduction of the elements of a vector, with its active lanes. -/
def Red.run (r : Red) (t : Ty) (rm : RM) (sat : Bool) (els : List Nat) (active : List Nat) : Nat × Nat :=
  let xs := (upto 0 t.lanes).map fun e => if active.contains e then r.lane t rm sat (els.getD e 0) else (r.ident t, 0)
  let s := tree (r.op t rm sat) (xs.map fun x => x.1)
  (s.1, xs.foldl (fun f x => f ||| x.2) s.2)

end Sys2Proof.Machine
end

