-- ==== Sys2Proof/Machine/Matrix.lean ====
section
/-!
DEFINITION. Sys2Proof/Machine/Matrix.lean: the matrix engine: its forms, its queues, K-steps and retirement (R237 to R259).
-/
namespace Sys2Proof.Machine
open Sys2Proof

/-! ### Issue -/

/-- Push a format word into q10 (R241). -/
def State.pushFmt (s : State) (w : BitVec 32) : Res :=
  s.enginePush (decide (16 ≤ s.me.q10.length)) fun t => t.modMe fun c => { c with q10 := c.q10 ++ [(w, c.ph)] }
def execMfmt (h : Head) (a : SIx) (s : State) : Out :=
  .next (s.issue h fun t =>
    let w := (t.sr a).setWidth 32
    match formatError w with
    | some e => t.fault (0x23, e.detail.toNat) (t.sr a).toNat
    | none => t.pushFmt w)
def execMfmti (h : Head) (fmt : BitVec 32) (s : State) : Out := .next (s.issue h fun t => t.pushFmt fmt)

/-- A record with no operand but its set (R249). -/
def State.mxCmd (s : State) (op : MxOp) (set : Fin 4) : MxCmd :=
  { flipCmd s set 0 0 0 with op := op }

/-- The set an entry names (R238). -/
def State.setOf (s : State) : SetSel → Fin 4
  | .acc n => n
  | .loop ln ar => Fin.ofNat 4 ((s.st.lc[ln]).toNat % (ar.val + 1))
def execMmul (h : Head) (ra rb : Fin 8) (sel : SetSel) (mm1 nm1 : Fin 64) (ks : Fin 1024) (m : Sems) (s : State) : Out :=
  .next (s.issue h fun t =>
    let n := if ks = 0 then 1024 else ks.val
    let a := t.me.ring[ra]
    let b := t.me.ring[rb]
    if !a.cfg || !b.cfg || decide (a.slots < n ∨ b.slots < n) then t.fault accBounds 0
    else
      t.pushMx { t.mxCmd .mmul (t.setOf sel) with
        ra := ra
        rb := rb
        m := mm1.val + 1
        n := nm1.val + 1
        ks := n
        sems := m })
def execMzero (h : Head) (acc : Fin 4) (s : State) : Out := .next (s.issue h fun t => t.pushMx (t.mxCmd .mzero acc))

/-- ACCLD and ACCST at issue (R254): one to path 3 commits the phase early (R255). -/
def State.accForm (s : State) (op : MxOp) (acc : Fin 4) (hs : HIx) (tt : TIx) (i j : SIx) : Res :=
  let x := s.newH hs
  let t := s.newT tt
  match firstFlt
    [ tensorCheck x t 6 (op == .accst) false,
      if (tType t).isX then none else some accBounds,
      if hKind x = 0 then none else s.tensorScratch x t false,
      s.leaseFault (handleExts x) ] with
  | some f => s.fault f (hBase x)
  | none =>
    let p := s.tensorPlace x t
    match s.pushMx { s.mxCmd op acc with place := p, shape := t, i := s.sr i, j := s.sr j } with
    | .done u => .done (if op = .accst ∧ p.kind = .window then u.earlyCommit u.cur else u)
    | r => r
def execAccld (h : Head) (acc : Fin 4) (hs : HIx) (t : TIx) (i j : SIx) (s : State) : Out :=
  .next (s.issue h fun u => u.accForm .accld acc hs t i j)
def execAccst (h : Head) (acc : Fin 4) (hs : HIx) (t : TIx) (i j : SIx) (s : State) : Out :=
  .next (s.issue h fun u => u.accForm .accst acc hs t i j)

/-! ### Rings (R244 to R247) -/

/-- The checks of RINGCFG at issue, in order (R245). -/
def State.ringFault (s : State) (a b : Word) : Option Flt :=
  let w := b.toNat
  let ty := Ty.ofCode (bits w 4 0)
  if bits w 7 5 ≠ 0 ∨ bits w 63 16 ≠ 0 then some (0x23, 0x03)
  else match ty with
    | some t =>
      if t.isBx ∨ t = .bf16 ∨ t = .f16 ∨ t = .e4m3 ∨ t = .e5m2 ∨ t = .i8 ∨ t = .n8 then
        (if a.toNat % 4096 = 0 ∧ a.toNat + 4096 * (bits w 15 8 + 1) ≤ scrbytes s.res.hdr then none else some undeclared)
      else some (0x23, 0x04)
    | none => some (0x23, 0x04)
/-- Whether RINGCFG or RINGREL of a configured ring must wait (R246). -/
def Core.ringBusy (c : Core) (n : Fin 8) : Bool :=
  let g := c.ring[n]
  let names (x : MxCmd) : Bool := x.op == .mmul && (x.ra == n || x.rb == n)
  g.cfg && (c.q11.any names || c.mx.any (fun m => names m.cmd) || g.rtail != g.tail)
/-- Replace an empty ring (R246). -/
def State.setRing (s : State) (n : Fin 8) (g : Ring) : Res :=
  if s.me.ringBusy n then .wait .other s
  else if s.me.ring[n].cfg && s.me.ring[n].head != s.me.ring[n].tail then s.fault (0x2D, 0) 0
  else .done (s.modMe fun c => { c with ring := c.ring.set n g })
def execRingcfg (h : Head) (rn : Fin 8) (a b : SIx) (s : State) : Out :=
  .next (s.issue h fun t =>
    match t.ringFault (t.sr a) (t.sr b) with
    | some f => t.fault f (t.sr a).toNat
    | none =>
      let w := (t.sr b).toNat
      t.setRing rn ⟨true, (Ty.ofCode (bits w 4 0)).getD .i8, (t.sr a).toNat, bits w 15 8 + 1, 0, 0, 0, 0, []⟩)
def execRingrel (h : Head) (rn : Fin 8) (s : State) : Out := .next (s.issue h fun t => t.setRing rn Ring.init)
/-- The RINGQ word (R247). -/
def ringWord (g : Ring) : Word :=
  if g.cfg then
    w64 (2 ^ 63 + g.ty.code * 2 ^ 58 + g.slots * 2 ^ 49 + g.rtail % 65536 * 2 ^ 32 + g.tail % 65536 * 2 ^ 16 + g.head % 65536)
  else 0
def execRingq (h : Head) (d : SIx) (rn : Fin 8) (s : State) : Out :=
  .next (s.issue1 h fun t => t.setS d (ringWord t.me.ring[rn]))

/-! ### The engine -/

/-- A set before its first change in an uncommitted phase (R257). -/
def Core.snapSet (c : Core) (n : Fin 4) (ph : Nat) : Core :=
  if ph = c.ph ∧ !c.early ∧ !(c.snaps.any fun e => e.1 == n) then
    { c with snaps := c.snaps ++ [(n, c.acc.filter fun e => e.1 / 4096 == n.val)] }
  else c

/-- Whether C can no longer supply the format word that the head command waits for (R242). -/
def Core.underflow (c : Core) (x : MxCmd) : Bool :=
  c.kend || c.r.c.blk == .q11 || c.r.c.blk == .work ||
    (c.r.c.blk == .sem && (x :: c.q11).any fun y => y.sems.sen && c.semq[y.sems.sems].any fun w => w.2 == .c)

/-- The fatal checks of a command against its format word (R240, R250, R254). -/
def Core.fmtFault (c : Core) (x : MxCmd) (w : BitVec 32) : Option Flt :=
  match formatError w with
  | some e => some (0x23, e.detail.toNat)
  | none =>
    match x.op with
    | .mmul =>
      if fwA w ≠ c.ring[x.ra].ty ∨ fwB w ≠ c.ring[x.rb].ty then some (0x23, 0x04)
      else if fwCk w ∧ (x.m = 64 ∨ x.n = 64) then some (0x23, 0x09)
      else none
    | .accst => if fwCk w ∧ tType x.shape ≠ .f32 then some accBounds else none
    | _ => none

/-- Steps of a command: K-steps, rows, or one. -/
def MxCmd.steps (x : MxCmd) : Nat := match x.op with
  | .mmul => x.ks
  | .accld => 64
  | .accst => 64
  | _ => 1

/-- The engine takes the head of q11, pops its format word and waits on its semaphore (R242, R250). -/
def execMatrixCommand (k : Nat) (s : State) : Out :=
  .next (
    if !s.engineOn k then s
    else
      let c := s.core k
      match c.mx with
      | some m =>
        if m.waited then s
        else
          let r := s.semTake k m.cmd.sems.semw .matrix 1 m.cmd.ph
          if r.1 then r.2.modCore k fun c => { c with mx := some { m with waited := true } } else r.2
      | none =>
        match (if s.engineStarts k then c.q11 else []) with
        | [] => s
        | x :: r =>
          let start (w : BitVec 32) (q : List (BitVec 32 × Nat)) : State :=
            s.setCore k { c with
              q10 := q
              q11 := r
              mx := some ⟨x, w, !x.sems.wen, c.ring[x.ra].head, c.ring[x.rb].head, 0, 0⟩ }
          if x.op = .flip then start 0 c.q10
          else match c.q10 with
            | [] => if c.underflow x then s.fatalC k x.pos 0x2C 0 0 else s
            | w :: q =>
              match c.fmtFault x w.1 with
              | some f => s.fatalC k x.pos f.1 f.2 0
              | none => start w.1 q)

/-- A row of panel p of a ring: its elements, whether a granule of it is poisoned (R243). -/
def State.panelRow (s : State) (k : Nat) (g : Ring) (p r : Nat) : PRow × Bool :=
  let o := g.base + 4096 * (p % g.slots)
  let stride := if g.ty.isBx then 32 else 64
  let t := s.readTgt k (.loc k (o + stride * r)) false .newest stride
  let w := if g.ty.width = 16 then 2 else 1
  let e := if g.ty.isBx then s.readTgt k (.loc k (o + 2048 + r)) false .newest 1 else ⟨[0], false, false, s⟩
  (⟨(upto 0 (stride / w)).map fun n => ofBytes ((t.data.drop (n * w)).take w), (e.data.headD 0).toNat⟩, t.pois || e.pois)

/-- What the panel that a K-step reads teaches its command (R267). -/
def State.panelLearn (s : State) (k : Nat) (e : EView) (g : Ring) (p : Nat) : State :=
  s.engLearn e ((upto 0 256).flatMap fun n =>
    s.writersOf (.scr k) (s.scrOff k false (g.base + 4096 * (p % g.slots) + 16 * n)) 16).dedup

/-- Update accumulator elements of a set, gathering flags. -/
def accUpdate (acc : Map Acc) (set : Nat) (ijs : List (Nat × Nat)) (f : Nat → Nat → Nat → Nat × Nat) : Map Acc × Nat :=
  ijs.foldl
    (fun (m : Map Acc × Nat) p =>
      let key := 4096 * set + 64 * p.1 + p.2
      let r := f p.1 p.2 (mgetD m.1 key 0).toNat
      (mput 0 m.1 key (BitVec.ofNat 56 r.1), m.2 ||| r.2)) (acc, 0)

/-- Pairs (i, j) with i < m and j < n. -/
def grid (m n : Nat) : List (Nat × Nat) := (upto 0 m).flatMap fun i => (upto 0 n).map fun j => (i, j)

/-- One K-step of an MMUL into the accumulators, checksums included (R250 to R252). -/
def mmulStep (w : BitVec 32) (set m n : Nat) (acc : Map Acc) (a b : List PRow) : Map Acc × Nat :=
  let row (l : List PRow) (i : Nat) : PRow := l.getD i ⟨[], 0⟩
  let d := accUpdate acc set (grid m n) fun i j x => kElem w x (row a i) (row b j)
  if !fwCk w then d
  else
    let ks := upto 0 (kWidth (fwA w))
    let sa := ckSums (fwA w) (a.take m)
    let tb := ckSums (fwB w) (b.take n)
    let va (i : Nat) := ks.map fun k => (row a i).val (fwA w) k
    let vb (j : Nat) := ks.map fun k => (row b j).val (fwB w) k
    let c1 := accUpdate d.1 set ((upto 0 n).map fun j => (63, j)) fun _ j x => ckElem x sa.1 (vb j)
    let c2 := accUpdate c1.1 set ((upto 0 m).map fun i => (i, 63)) fun i _ x => ckElem x (va i) tb.1
    let c3 := accUpdate c2.1 set [(63, 63)] fun _ _ x => ckElem x sa.1 tb.1
    (c3.1, d.2 ||| sa.2 ||| tb.2)

/-- Columns of row i of the set that lie inside the shape, with the row's tensor coordinates (R254). -/
def MxCmd.cols (x : MxCmd) (i : Nat) : List Nat :=
  (upto 0 64).filter fun j => inShape x.shape (coord x.i + i) (coord x.j + j)
/-- View offset of the element matched to (i, j). -/
def MxCmd.off (x : MxCmd) (i j : Nat) : Nat :=
  ((coord x.i + i) * tStride x.shape + (coord x.j + j) * ((tType x.shape).width / 8 : Nat)).toNat

/-- Row i of an ACCST as bytes in tensor order, and its flags (R254); between integer types the conversion of R124
(notes/assumptions/36.md). -/
def Core.accstRow (c : Core) (x : MxCmd) (w : BitVec 32) (i : Nat) : List Byte × Nat :=
  (x.cols i).foldl
    (fun (a : List Byte × Nat) j =>
      let u : Ty := if fwInt w ∧ !(fwCk w ∧ (i = 63 ∨ j = 63)) then .i56 else .a56
      let r := convert u (tType x.shape) (fwRm w) (fwSat w) (c.accGet (4096 * x.set.val + 64 * i + j)).toNat
      (a.1 ++ toBytes ((tType x.shape).width / 8) r.1, a.2 ||| r.2)) ([], 0)
/-- Write row i of an ACCST. -/
def State.accstWrite (s : State) (k : Nat) (x : MxCmd) (w : BitVec 32) (i : Nat) : State :=
  match x.cols i with
  | [] => s
  | j :: _ => s.placeWrite k x.view x.place false (x.off i j) ((s.core k).accstRow x w i).1

/-- The next step of the running command: `none` while it waits. -/
def State.mxStep (s : State) (k : Nat) (m : MxRun) : Option State :=
  let c := s.core k
  let x := m.cmd
  let next (t : State) (fl : Nat) : State :=
    t.modCore k fun c => { c with mx := some { m with step := m.step + 1, flags := m.flags ||| BitVec.ofNat 8 fl } }
  match x.op with
  | .mmul =>
    let ra := c.ring[x.ra]
    let rb := c.ring[x.rb]
    let pa := (m.pa + m.step) % 2 ^ 32
    let pb := (m.pb + m.step) % 2 ^ 32
    if panelDiff ra.tail m.pa ≤ m.step ∨ panelDiff rb.tail m.pb ≤ m.step then none
    else
      let a := (upto 0 x.m).map fun i => s.panelRow k ra pa i
      let b := (upto 0 x.n).map fun j => s.panelRow k rb pb j
      if (a ++ b).any fun r => r.2 then some (s.trigger k ⟨0x42, x.ph, ra.base + 4096 * (pa % ra.slots), 3, 0⟩)
      else
        let c1 := c.snapSet x.set x.ph
        let r := mmulStep m.fw x.set.val x.m x.n c1.acc (a.map fun y => y.1) (b.map fun y => y.1)
        let t := (s.panelLearn k x.view ra pa).panelLearn k x.view rb pb
        some (next (t.setCore k { c1 with acc := r.1 }) r.2)
  | .mzero =>
    let c1 := c.snapSet x.set x.ph
    some (next (s.setCore k { c1 with acc := c1.acc.filter fun e => e.1 / 4096 != x.set.val }) 0)
  | .flip =>
    let c1 := c.snapSet x.set x.ph
    let key := 4096 * x.set.val + 64 * x.row + x.col
    some (next (s.setCore k (c1.accSet key (c1.accGet key ^^^ BitVec.ofNat 56 (2 ^ x.bit)))) 0)
  | .accld =>
    let i := m.step
    let ty := tType x.shape
    let n := ty.width / 8
    let t : Ty := if fwInt m.fw then .i56 else .a56
    let js := x.cols i
    let o := x.off i (js.headD 0)
    match (if js.isEmpty then none else s.placeFault k x.place o (js.length * n)) with
    | some f => some (s.fatalC k x.pos f.1 f.2 (x.place.addr + o))
    | none =>
      let r := if js.isEmpty then ([], false, s) else s.placeRead k x.view x.place false o (js.length * n)
      if r.2.1 then some (r.2.2.trigger k ⟨if x.place.kind = .mem then 0x40 else 0x42, x.ph, x.place.addr + o, 3, 0⟩)
      else
        let c1 := (r.2.2.core k).snapSet x.set x.ph
        let u := accUpdate c1.acc x.set.val ((upto 0 64).map fun j => (i, j)) fun _ j _ =>
          if js.contains j then convert ty t (fwRm m.fw) (fwSat m.fw) (ofBytes ((r.1.drop ((j - js.headD 0) * n)).take n)) else (0, 0)
        some (next (r.2.2.setCore k { c1 with acc := u.1 }) u.2)
  | .accst =>
    let i := m.step
    let r := c.accstRow x m.fw i
    let o := x.off i ((x.cols i).headD 0)
    match (if r.1.isEmpty then none else s.placeFault k x.place o r.1.length) with
    | some f => some (s.fatalC k x.pos f.1 f.2 (x.place.addr + o))
    | none =>
      if x.place.kind = .window then
        let a := x.place.addr + o - onChipBase
        if s.pushFull k (.win (a / 2 ^ 23) (a % 2 ^ 23)) r.1.length then none
        else some (next (s.accstWrite k x m.fw i) r.2)
      else some (next s r.2)

/-- Whether a waiting VACCRD or VACCWR that did not sample a command keeps it off their set (R235). -/
def Core.heldByV (c : Core) (x : MxCmd) : Bool :=
  c.r.v.sample.any fun sm => sm % 4 == x.set.val && decide (sm / 4 < 8 * x.pos.lseq + x.pos.lane)

/-- One K-step, row or whole-set operation of the running command (R251, R253, R254, R162). -/
def execKStep (k : Nat) (s : State) : Out :=
  .next (
    if !s.engineOn k then s
    else match (s.core k).mx with
      | none => s
      | some m =>
        if !m.waited || decide (m.cmd.steps ≤ m.step) || (m.step == 0 && (s.core k).heldByV m.cmd) then s
        else (s.mxStep k m).getD s)

/-- The flags of a retiring command join TFLAGS(C) (R125, R250). -/
def Core.orTflags (c : Core) (f : BitVec 8) : Core := { c with r := { c.r with c := { c.r.c with tflags := c.r.c.tflags ||| f } } }
/-- A command retires: scratch and memory stores of an ACCST, ring heads, flags into C, its signal (R250, R255). -/
def execMatrixRetirement (k : Nat) (s : State) : Out :=
  .next (
    if !s.engineOn k then s
    else match (s.core k).mx with
      | none => s
      | some m =>
        let x := m.cmd
        if !m.waited || decide (m.step < x.steps) then s
        else
          let s1 := if x.op = .accst ∧ x.place.kind ≠ .window then
              (upto 0 64).foldl (fun t i => t.accstWrite k x m.fw i) s
            else s
          let s2 := s1.modCore k fun c =>
            let adv (g : Ring) : Ring := { g with head := (g.head + x.ks) % 2 ^ 32 }
            { c.orTflags m.flags with
              mx := none
              ring := if x.op = .mmul then (c.ring.set x.ra (adv c.ring[x.ra])).set x.rb (adv c.ring[x.rb]) else c.ring }
          let s3 := if x.sems.sen && (s2.core k).mark != .dying then s2.give k (.sem x.sems.sems 1 x.ph (s2.engDone x.view)) else s2
          (s3.modCore k Core.wake).settle k)

/-- Writes held at an accumulator set are performed once no queued command names it (R186). -/
def execAccumulatorWindowWrite (k : Nat) (s : State) : Out :=
  .next (s.modCore k fun c =>
    let go := c.aww.filter fun w => !c.namesSet (w.1 / 4096)
    let c1 := go.foldl (fun (d : Core) w => d.accWindow w.1 w.2.toNat) c
    { c1 with aww := c.aww.filter fun w => c.namesSet (w.1 / 4096) })

end Sys2Proof.Machine
end

