-- ==== Sys2Proof/Machine/Pool.lean ====
section
/-!
DEFINITION. Sys2Proof/Machine/Pool.lean: parameter blocks of the package engines, the pool unit, sketches and the hot-row
cache (R131 to R133, R288 to R307).
-/
namespace Sys2Proof.Machine
open Sys2Proof

/-! ### Parameter blocks and handles of the package engines (R173, R177, R292, R309) -/

/-- Words of a run of bytes. -/
def wordsOf (n : Nat) (bs : List Byte) : List Word := (upto 0 n).map fun i => w64 (ofBytes ((bs.drop (8 * i)).take 8))
/-- The writes that placed the bytes of a parameter block. -/
def State.blockWriters (s : State) (o n : Nat) : List Nat :=
  ((granPieces o n).flatMap fun p => s.writersOf (.scr s.cur) (s.scrOff s.cur false p.1) p.2).dedup
/-- Read a parameter block of n bytes at a scratch offset (R292): undeclared resource, or poison consumed. -/
def State.withBlock (s : State) (a : Word) (n : Nat) (k : List Word → Res) : Res :=
  if a.toNat % 16 ≠ 0 ∨ scrbytes s.res.hdr < a.toNat + n then s.fault undeclared a.toNat
  else
    let g := s.readTgt s.cur (.loc s.cur a.toNat) false .newest n
    if g.pois then .stop (s.streamTrigger 0x42 a.toNat)
    else match k (wordsOf (n / 8) g.data) with
      | .done t => .done (t.learnReads s.cur (s.blockWriters a.toNat n))
      | r => r

/-- C's handle n. -/
def State.handleN (s : State) (n : Nat) : Handle := s.newH (Fin.ofNat 16 n)
/-- Whether a view holds n bytes from an offset (R173). -/
def viewHolds (h : Handle) (off n : Nat) : Bool := hValid h && decide (off + n ≤ hLen h)
/-- The role of a handle in an engine command: its kind, path and permission; `scr` limits the kinds of scratch. -/
def roleFault (h : Handle) (agent : Nat) (write elastic : Bool) (paths : List Nat) : Option Flt :=
  if hKind h = 0 then (if paths.contains (hPath h) then usePerm h agent write else some accPerm)
  else if hKind h = 2 ∧ !elastic then some accPerm
  else none
/-- The first of several conditions that fails, as bounds. -/
def needs (ok : Bool) : Option Flt := if ok then none else some accBounds

/-- Bytes of a place as little-endian numbers of 4 bytes. -/
def nums32 (bs : List Byte) : List Nat := (upto 0 (bs.length / 4)).map fun i => ofBytes ((bs.drop (4 * i)).take 4)
/-- Write bytes of a place as a package engine: memory at once (R297), scratch granules become full. -/
def State.placeOut (s : State) (k : Nat) (e : EView) (p : Place) (off : Nat) (bs : List Byte) : State :=
  if p.kind = .mem then s.engWrite e (cellsAt (p.addr + off) bs) else s.placeWrite k e p false off bs
/-- Whether a pinned row keeps such a write waiting (R303). -/
def State.outPinned (s : State) (p : Place) (off n : Nat) : Bool :=
  p.kind == .mem && s.rowsPinned ((touchGrans (p.addr + off) n).map fun g => 16 * g)
/-- Memory bytes of a place. -/
def Place.bytes (p : Place) (off n : Nat) : List Nat := if p.kind = .mem then upto (p.addr + off) n else []
/-- An engine's status in the black-box record (R378): engine number of R349, what it concerns. -/
def State.logEngine (s : State) (k agent status p0 p2 p3 : Nat) : State :=
  s.logEv { s.evOf k 0x08 status 0 with stream := 3, agent := agent, p0 := p0, p1 := status, p2 := p2, p3 := p3 }
/-- The containment event of data that an engine met uncorrectable and reports in its record (R296, R378): no action of
Table 5 is taken, and which number stands there is not stated, a free value (notes/assumptions/49.md). -/
def State.logBad (s : State) (k agent addr : Nat) : State :=
  s.draw.2.logEv { s.evOf k 0x02 0x40 0 with
    stream := 3, agent := agent, p0 := (s.core k).phasecnt, p1 := (s.core k).trigs, p2 := addr, p3 := s.draw.1 % 4 }
/-- Whether a record pushed in phase `ph` may leave the head of its queue (R294). -/
def Core.freed (c : Core) (ph : Nat) : Bool := ph != c.ph || c.early

/-! ### The POOL command (R290 to R293) -/

def plTid (p : List Word) : Nat := bits (wd p 0) 63 54
def plOty (p : List Word) : Ty := (Ty.ofCode (bits (wd p 0) 45 41)).getD .i4
def plNohot (p : List Word) : Bool := bit (wd p 0) 40
def plNosk (p : List Word) : Bool := bit (wd p 0) 39
def plBags (p : List Word) : Nat := bits (wd p 0) 35 20 + 1
def plLoff (p : List Word) : Nat := bits (wd p 1) 63 32
def plIoff (p : List Word) : Nat := bits (wd p 1) 31 0
def plRoff (p : List Word) : Nat := bits (wd p 2) 63 32
def plOstr (p : List Word) : Nat := bits (wd p 2) 31 8
def plSoff (p : List Word) : Nat := bits (wd p 3) 63 32

/-- The pool unit's read bit of a table's shards, checked at each command that reads its rows (R170). -/
def State.shardFault (s : State) (d : Tab) : Option Flt :=
  if (tbExts d).all fun n => permOk (xPerm ((s.ctx s.cx).ext n)) 7 false then none else some accPerm
/-- The checks of POOL after its block is read (R292). -/
def State.poolFault (s : State) (p : List Word) : Option Flt :=
  let d := (s.ctx s.cx).tab (plTid p)
  let hl := s.handleN (bits (wd p 0) 53 50)
  let hr := s.handleN (bits (wd p 0) 49 46)
  let vb := tbW d * ((plOty p).width / 8)
  firstFlt
    [ if bits (wd p 0) 53 50 < hcnt s.res.hdr ∧ bits (wd p 0) 49 46 < hcnt s.res.hdr then none else some undeclared,
      needs (tbValid d),
      needs (bits (wd p 0) 38 36 == 0 && bits (wd p 0) 19 0 == 0 && bits (wd p 2) 7 0 == 0 && bits (wd p 3) 31 0 == 0),
      needs (plOty p == .f32 || plOty p == .bf16),
      needs (plLoff p % 4 == 0 && plIoff p % 4 == 0 && plRoff p % 16 == 0 && plOstr p % 16 == 0 && decide (vb ≤ plOstr p)),
      needs (viewHolds hl (plLoff p) (4 * (plBags p + 1))),
      needs (viewHolds hr (plRoff p) (plOstr p * (plBags p - 1) + vb) && viewHolds hr (plSoff p) (plBags p)),
      s.shardFault d,
      roleFault hl 7 false true [0, 1, 2, 4],
      roleFault hr 7 true true [0, 1, 4],
      s.leaseFault (tbExts d ++ handleExts hl ++ handleExts hr) ]

/-- Place a record in q16 (R292, R293). -/
def State.pushPool (s : State) (opc sub : Nat) (param : List Word) (l r : Place) (sig : Option (Fin 16)) (exts : List Nat) : Res :=
  s.enginePush (decide (32 ≤ s.me.q16.length + b2n s.me.prun.isSome)) fun t =>
    let n := (t.me.eseq[0] + 1) % 2 ^ 32
    let v := t.engView t.cur t.cur
    (v.2.modMe fun c => { c with
      eseq := c.eseq.set 0 n
      q16 := c.q16 ++ [⟨opc, sub, param, l, r, sig, n, c.ph, exts, v.1⟩] }).countCmd

def execPool (h : Head) (a : SIx) (sig : Option (Fin 16)) (s : State) : Out :=
  .next (s.issue h fun t => t.withBlock (t.sr a) 32 fun p =>
    match t.poolFault p with
    | some f => t.fault f (t.sr a).toNat
    | none =>
      let hl := t.handleN (bits (wd p 0) 53 50)
      let hr := t.handleN (bits (wd p 0) 49 46)
      t.pushPool 0 0 p (hPlace t hl) (hPlace t hr) sig
        (tbExts ((t.ctx t.cx).tab (plTid p)) ++ handleExts hl ++ handleExts hr))

/-- Pop an element of a result queue into SD; it acquires its command's writes (R298). -/
def State.popRes (s : State) (d : SIx) (q : Core → List (Word × Nat)) (cut : Core → (Word × Nat) → Core) : Res :=
  match q s.me with
  | [] => .wait .engineQ s
  | x :: _ => .done ((s.modMe fun c => cut c x).setS d x.1).orderReads
def execPoolPop (h : Head) (d : SIx) (s : State) : Out :=
  .next (s.issue h fun t => t.popRes d (fun c => c.q17) fun c x =>
    { c.acquire 16 (bits x.1.toNat 47 32) with q17 := c.q17.tail, pop17 := c.pop17 ++ [x] })

/-- HOTQ and SKQ at issue (R304); FILL reads a row. -/
def State.queryForm (s : State) (opc sub : Nat) (a : SIx) (sig : Option (Fin 16)) : Res :=
  let w := (s.sr a).toNat
  let d := (s.ctx s.cx).tab (bits w 41 32)
  match firstFlt [needs (bits w 63 42 == 0), needs (tbValid d), if opc = 1 ∧ sub = 1 then s.shardFault d else none,
    s.leaseFault (tbExts d)] with
  | some f => s.fault f w
  | none => s.pushPool opc sub [w64 w, 0, 0, 0] Place.none Place.none sig (tbExts d)
def execHotqLook (h : Head) (a : SIx) (sig : Option (Fin 16)) (s : State) : Out :=
  .next (s.issue h fun t => t.queryForm 1 0 a sig)
def execHotqFill (h : Head) (a : SIx) (sig : Option (Fin 16)) (s : State) : Out :=
  .next (s.issue h fun t => t.queryForm 1 1 a sig)
def execHotqInv (h : Head) (a : SIx) (sig : Option (Fin 16)) (s : State) : Out :=
  .next (s.issue h fun t => t.queryForm 1 2 a sig)
def execHotqDrops (h : Head) (a : SIx) (sig : Option (Fin 16)) (s : State) : Out :=
  .next (s.issue h fun t => t.queryForm 1 3 a sig)
def execSkqEst (h : Head) (a : SIx) (sig : Option (Fin 16)) (s : State) : Out :=
  .next (s.issue h fun t => t.queryForm 2 0 a sig)
def execSkqClr (h : Head) (a : SIx) (sig : Option (Fin 16)) (s : State) : Out :=
  .next (s.issue h fun t => t.queryForm 2 1 a sig)

/-! ### Sketches (R299) -/

/-- Multipliers M_0 to M_3. -/
def sketchMul : List Nat := [0x9E3779B1, 0x85EBCA77, 0xC2B2AE3D, 0x27D4EB2F]
/-- Keys of the four counters of a row. -/
def sketchKeys (tid r : Nat) : List Nat :=
  (upto 0 4).map fun k => tid * 2 ^ 18 + k * 2 ^ 16 + bits (r * sketchMul.getD k 0 % 2 ^ 32) 31 16
/-- The estimate of a row; 0 for a table without a sketch. -/
def Ctx.estimate (t : Ctx) (d : Tab) (tid r : Nat) : Nat :=
  if tbSke d then (sketchKeys tid r).foldl (fun m k => min m (mgetD t.sketch k 0)) 65535 else 0
/-- Count n occurrences of a row. -/
def Ctx.countRow (t : Ctx) (tid r n : Nat) : Ctx :=
  { t with sketch := (sketchKeys tid r).foldl (fun m k => mput 0 m k (min 65535 (mgetD m k 0 + n))) t.sketch }
/-- Set the scores of a table's ways. -/
def State.mapScores (s : State) (c tid : Nat) (f : Nat → Nat) : State :=
  { s with ways := s.ways.map fun e => if e.2.ctx.val = c ∧ e.2.tid = tid then (e.1, { e.2 with score := f e.2.score }) else e }
/-- n decays of a table at once (R299). -/
def State.decayBy (s : State) (c tid n : Nat) : State :=
  let d := (s.ctx c).tab tid
  (s.modCtx c fun t =>
    { t with
      sketch := t.sketch.filterMap fun e =>
        if e.1 / 2 ^ 18 = tid then (if e.2 / 2 ^ min n 16 = 0 then none else some (e.1, e.2 / 2 ^ min n 16)) else some e
      decayAt := mset t.decayAt tid (mgetD t.decayAt tid 0 + n * tbDecay d * 1000000) }).mapScores c tid fun x => x / 2 ^ min n 16
/-- Every decay of a table that is due. -/
def State.decayDue (s : State) (c tid : Nat) : State :=
  let d := (s.ctx c).tab tid
  let at_ := mgetD (s.ctx c).decayAt tid 0
  if tbValid d && tbSke d && tbDecay d != 0 && decide (at_ ≤ s.rtime) then
    s.decayBy c tid ((s.rtime - at_) / (tbDecay d * 1000000) + 1)
  else s
/-- Every decay of every table that is due: a decay comes before a count or a fill of its instant. -/
def State.decaysDue (s : State) : State :=
  s.ctxs.foldl (fun t e => e.2.tables.foldl (fun u d => u.decayDue e.1 d.1) t) s
/-- The decay of a table when its interval has passed (R299). -/
def execSketchDecay (c : Fin 8) (tid : Fin 1024) (s : State) : Out := .next (s.decayDue c.val tid.val)

/-! ### Fills (R301, R302) -/

/-- How a fill of a row goes: the way taken, or dropped because every way of the set is pinned. -/
inductive Fill where
  | none
  | held (way : Nat)
  | filled (way : Nat)
  | dropped
  deriving DecidableEq, Repr

/-- The victim of a fill: the lowest invalid unpinned way, else the unpinned way of lowest SCORE, the lowest on a tie. -/
def State.victim (s : State) (set : Nat) : Option (Nat × Option Nat) :=
  match (wayKeys set).find? fun k => (mget s.ways k).isNone with
  | some k => some (k, none)
  | none =>
    (wayKeys set).foldl
      (fun (b : Option (Nat × Option Nat)) k =>
        match mget s.ways k with
        | some w =>
          if w.pins != 0 then b
          else match b with
            | some (_, some sc) => if w.score < sc then some (k, some w.score) else b
            | _ => some (k, some w.score)
        | none => b) none

/-- Fill a row; `forced`: HOTQ.FILL, without the ADMIT and score tests.  The slot takes the row's bytes, uncorrectable ones
as they are. -/
def State.fillRow (s : State) (c : Fin 8) (tid r : Nat) (forced : Bool) : Fill × State :=
  let t := s.ctx c.val
  let d := t.tab tid
  let e := t.estimate d tid r
  let a := t.rowAddr d r
  match s.hotWay c.val tid r with
  | some w => (.held (w.1 % 8), s)
  | none =>
    if !tbHot d || s.hrcsz == 0 || (!forced && decide (e < tbAdmit d)) then (.none, s)
    else match s.victim (s.hotSet c.val tid r) with
      | none => (.dropped, s.modCtx c.val fun t => { t with drops := mset t.drops tid (min (2 ^ 32 - 1) (mgetD t.drops tid 0 + 1)) })
      | some (k, sc) =>
        if !forced && sc.any fun x => decide (e ≤ x) then (.none, s)
        else
          let g := s.slotAddr k
          (.filled (k % 8),
            { s with
              ways := mset s.ways k ⟨true, c, tid, r, 0, e % 65536, s.peekBytes a (tbStr d)⟩
              poison := (wholeGrans a (tbStr d)).foldl
                (fun p x => if (mget s.poison x).isSome then mset p (g / 16 + (x - a / 16)) () else p)
                (s.poison.filter fun p => !((wholeGrans g (tbStr d)).contains p.1)) })

/-! ### Bags (R131 to R133, R295, R296) -/

/-- ToP56: the integer and whether it saturated (R132). -/
def toP56 (x : Val) (pe : Int) : Int × Bool :=
  match x with
  | .nan _ => (0, false)
  | .inf n => (if n then -(2 ^ 62 : Nat) else (2 ^ 62 : Nat), true)
  | .fin n m e st =>
    let r := roundMag .rne n m (pe - e) st
    let v := sint n r.1
    if ((2 ^ 62 : Nat) : Int) - 1 < v then ((2 ^ 62 : Nat) - 1, true)
    else if v < -(2 ^ 62 : Nat) then (-(2 ^ 62 : Nat), true)
    else (v, false)

/-- The terms of a row's elements (R131). -/
def rowTerms (d : Tab) (bs : List Byte) : List Val :=
  let ty := tbTy d
  if ty.isFloat then
    let n := ty.width / 8
    (upto 0 (tbW d)).map fun e => fvalue ty (ofBytes ((bs.drop (n * e)).take n))
  else
    let sc := fvalue .f16 (ofBytes ((bs.drop (tbData d)).take 2))
    let bi := fvalue .f16 (ofBytes ((bs.drop (tbData d + 2)).take 2))
    (upto 0 (tbW d)).map fun e =>
      let q := if ty = .i4 then sgn 4 (bits (bs.getD (e / 2) 0).toNat (4 * (e % 2) + 3) (4 * (e % 2))) else sgn 8 (bs.getD e 0).toNat
      ((sc.mul (ivalue q)).1.add bi .rne).1

/-- Occurrences of each distinct row, in order of first appearance. -/
def rowCounts (rows : List Nat) : List (Nat × Nat) := rows.dedup.map fun r => (r, rows.count r)

/-- The bytes of a row from a source for a command of core k: data, uncorrectable.  The core's stores before the push that are
not yet performed stand before what the source holds (R266, R269, R292). -/
def State.rowFrom (s : State) (k : Nat) (e : EView) (c : Nat) (d : Tab) (tid r : Nat) (hot : Bool) : List Byte × Bool :=
  let a := (s.ctx c).rowAddr d r
  let own (bs : List Byte) : List Byte := if e.pend.isEmpty then bs
    else ((upto a bs.length).zip bs).map fun b => if s.fromPush k e b.1 then mgetD e.pend b.1 0 else b.2
  match (if hot then s.hotWay c tid r else none) with
  | some w => (own (w.2.data.take (tbBytes d)), s.poisoned (s.slotAddr w.1) (tbBytes d))
  | none => (own (s.peekBytes a (tbBytes d)), s.engPois k e 0 a (tbBytes d))

/-- Sums of a bag's terms: per element the exact integer and whether a term was NaN, and whether any term saturated. -/
def bagSums (d : Tab) (rows : List (List Val × Nat)) : List (Int × Bool) × Bool :=
  let els := (upto 0 (tbW d)).map fun e =>
    rows.foldl
      (fun (a : Int × Bool × Bool) r =>
        let x := r.1.getD e (.fin false 0 0 false)
        let t := toP56 x (tbPe d)
        (a.1 + t.1 * (r.2 : Nat), a.2.1 || x.isNaN, a.2.2 || t.2)) (0, false, false)
  (els.map fun x => (x.1, x.2.1), els.any fun x => x.2.2)

/-- The vector of a bag and whether it saturated (R133). -/
def bagVector (d : Tab) (oty : Ty) (rows : List (List Val × Nat)) : List Byte × Bool :=
  let s := bagSums d rows
  let els := s.1.map fun x =>
    let p := satInt .i56 x.1
    (if x.2 then canonNaN oty else (roundTo oty (dyad p.1 (tbPe d) false) .rne false).1, p.2)
  (els.flatMap fun x => toBytes (oty.width / 8) x.1, s.2 || els.any fun x => x.2)

/-- A bag's index positions: the rows, or the first offending position (R296); poisoned list bytes. -/
def State.bagRows (s : State) (k : Nat) (x : PoolRun) (rows : Nat) : Except Nat (List Nat) × Bool × State :=
  let p := x.cmd.param
  let o := s.placeRead k x.cmd.view x.cmd.list false (plLoff p + 4 * x.bag) 8
  let o0 := (nums32 o.1).getD 0 0
  let o1 := (nums32 o.1).getD 1 0
  if o1 < o0 ∨ 65536 < o1 - o0 then (.error o0, o.2.1, o.2.2)
  else if o0 < o1 ∧ x.cmd.list.len < plIoff p + 4 * o1 then (.error (max o0 ((x.cmd.list.len - plIoff p) / 4)), o.2.1, o.2.2)
  else
    let i := o.2.2.placeRead k x.cmd.view x.cmd.list false (plIoff p + 4 * o0) (4 * (o1 - o0))
    let ns := nums32 i.1
    match ns.findIdx? fun r => decide (rows ≤ r) with
    | some j => (.error (o0 + j), o.2.1 || i.2.1, i.2.2)
    | none => (.ok ns, o.2.1 || i.2.1, i.2.2)

/-- What a bag comes to: status, vector bytes, the rows to count with their occurrences and the way that served each, and the
state. -/
structure Bag where
  status : Nat
  vec    : List Byte
  rows   : List (Nat × Nat × Option Nat)
  s      : State

/-- Work out one bag (R295, R296): the first status of Table 5 that applies; a poisoned list counts as uncorrectable data
(notes/assumptions/49.md). -/
def State.bagWork (s : State) (k : Nat) (x : PoolRun) : Bag :=
  let p := x.cmd.param
  let c := (s.core k).res.ctx
  let tid := plTid p
  let d := (s.ctx c.val).tab tid
  let oty := plOty p
  let r := s.bagRows k x (tbRows d)
  let zero := List.replicate (tbW d * (oty.width / 8)) (0 : Byte)
  let nan := (upto 0 (tbW d)).flatMap fun _ => toBytes (oty.width / 8) (canonNaN oty)
  let tag := 2 + tid * 2 ^ 32
  match r.1 with
  | .error pos => ⟨0x50, zero, [], r.2.2.logEngine k 2 0x50 tag x.bag pos⟩
  | .ok ns =>
    if r.2.1 then ⟨0x40, nan, [], (r.2.2.logBad k 2 (x.cmd.list.addr + plIoff p)).logEngine k 2 0x40 tag x.bag 0⟩
    else
      let hot := !plNohot p && tbHot d
      let rows := (rowCounts ns).map fun e => (e.1, e.2, if hot then (s.hotWay c.val tid e.1).map fun w => w.1 else none)
      let got := rows.map fun e => (s.rowFrom k x.cmd.view c.val d tid e.1 hot, e.2.1)
      match rows.find? fun e => (s.rowFrom k x.cmd.view c.val d tid e.1 hot).2 with
      | some e =>
        ⟨0x40, nan, rows, (r.2.2.logBad k 2 ((s.ctx c.val).rowAddr d e.1)).logEngine k 2 0x40 tag x.bag 0⟩
      | none =>
        let v := bagVector d oty (got.map fun g => (rowTerms d g.1.1, g.2))
        ⟨if v.2 then 0x54 else 0, v.1, rows, r.2.2⟩

/-- Count a bag's rows, score its hot hits, then consider its cold rows (R295, R299, R302). -/
def State.bagCount (s : State) (c : Fin 8) (p : List Word) (rows : List (Nat × Nat × Option Nat)) : State :=
  let tid := plTid p
  let d := (s.ctx c.val).tab tid
  if plNosk p || !tbSke d then s
  else
    let s1 := s.decaysDue.modCtx c.val fun t => rows.foldl (fun t e => t.countRow tid e.1 e.2.1) t
    let s2 := rows.foldl
      (fun (t : State) e => match e.2.2.bind fun k => (mget t.ways k).map fun w => (k, w) with
        | some w => t.setWay w.1 { w.2 with score := (t.ctx c.val).estimate d tid e.1 }
        | none => t) s1
    (rows.filter fun e => e.2.2.isNone).foldl (fun (t : State) e => (t.fillRow c tid e.1 false).2) s2

/-- One bag of the running POOL: its vector and its status byte are written (R297). -/
def State.poolBag (s : State) (k : Nat) (x : PoolRun) : State :=
  let p := x.cmd.param
  let c := (s.core k).res.ctx
  let vo := plRoff p + plOstr p * x.bag
  let n := tbW ((s.ctx c.val).tab (plTid p)) * ((plOty p).width / 8)
  if s.outPinned x.cmd.res vo n || s.outPinned x.cmd.res (plSoff p + x.bag) 1 then
    s.clearRows (x.cmd.res.bytes vo n ++ x.cmd.res.bytes (plSoff p + x.bag) 1)
  else
    let b := s.bagWork k x
    let s1 := (b.s.placeOut k x.cmd.view x.cmd.res vo b.vec).placeOut k x.cmd.view x.cmd.res (plSoff p + x.bag) [BitVec.ofNat 8 b.status]
    let y : PoolRun := { x with
      bag := x.bag + 1
      bad := if b.status = 0 then x.bad else min (x.bad + 1) 0xFFFF
      first := if b.status ≠ 0 ∧ x.first.isNone then some (x.bag, b.status) else x.first
      done := decide (plBags p ≤ x.bag + 1) }
    (s1.bagCount c p b.rows).modCore k fun c => { c with prun := some y }

/-- The low 32 bits of a query's element: HIT, WAY, FILLED, DROPPED and the estimate (R297 Table 6). -/
def queryWord (hit : Bool) (way : Nat) (filled dropped : Bool) (est : Nat) : Nat :=
  b2n hit * 2 ^ 31 + way % 8 * 2 ^ 28 + b2n filled * 2 ^ 27 + b2n dropped * 2 ^ 26 + est % 65536

/-- A query of the running command (R304 to R306): `none` while HOTQ.INV waits for pins. -/
def State.poolQuery (s0 : State) (k : Nat) (x : PoolRun) : State :=
  let c := (s0.core k).res.ctx
  let w := wd x.cmd.param 0
  let tid := bits w 41 32
  let r := bits w 31 0
  let s := s0.decaysDue
  let d := (s.ctx c.val).tab tid
  let est := (s.ctx c.val).estimate d tid r
  let fin (t : State) (st v : Nat) (done : Bool) : State :=
    t.modCore k fun c => { c with prun := some { x with word := some (w64 (st * 2 ^ 48 + v)), done := done } }
  if tbRows d ≤ r then fin s 0x50 0 true
  else if x.cmd.opc = 2 then
    if x.cmd.sub = 0 ∨ !tbSke d then fin s 0 est true
    else fin ((s.modCtx c.val fun t => { t with sketch := t.sketch.filter fun e => e.1 / 2 ^ 18 != tid }).mapScores c.val tid fun _ => 0) 0 0 true
  else if x.cmd.sub = 3 then fin s 0 (mgetD (s.ctx c.val).drops tid 0) true
  else if !tbHot d then fin s 0 est true
  else if x.cmd.sub = 0 then
    match s.hotWay c.val tid r with
    | some y => fin s 0 (queryWord true y.1 false false est) true
    | none => fin s 0 (queryWord false 0 false false est) true
  else if x.cmd.sub = 1 then
    let f := s.fillRow c tid r true
    fin f.2 0 (match f.1 with
      | .held n => queryWord true n false false est
      | .filled n => queryWord false n true false est
      | .dropped => queryWord false 0 false true est
      | .none => queryWord false 0 false false est) true
  else
    let pinned (t : State) : Bool := t.rowPinned c.val tid r
    match x.word with
    | some v => fin s 0 (v.toNat % 2 ^ 48) (!pinned s)
    | none =>
      match s.hotWay c.val tid r with
      | some y => fin (s.clearWay y.1) 0 (queryWord true y.1 false false est) (!pinned (s.clearWay y.1))
      | none => fin s 0 (queryWord false 0 false false est) (!pinned s)

/-- The head of q16 starts once its phase has ended or committed early, and the running command takes its next bag or
answers its query (R294, R295). -/
def execPoolUnitCommand (k : Nat) (s : State) : Out :=
  .next (
    if !s.engineOn k then s
    else match (s.core k).prun with
      | none =>
        match (s.core k).q16 with
        | [] => s
        | x :: r =>
          if !s.engineStarts k || !(s.core k).freed x.ph then s
          else s.modCore k fun c => { c with q16 := r, prun := some ⟨x, 0, 0, none, none, false⟩ }
      | some x => if x.done then s else if x.cmd.opc = 0 then s.poolBag k x else s.poolQuery k x)

/-- The element of a completed pool-unit command (R297 Table 6). -/
def poolElem (x : PoolRun) : Word :=
  let base := (0xB1 + x.cmd.opc) * 2 ^ 56 + x.cmd.seq % 65536 * 2 ^ 32
  if x.cmd.opc = 0 then
    w64 (base + (x.first.elim 0 fun f => f.2) * 2 ^ 48 + (x.first.elim 0 fun f => f.1) % 65536 * 2 ^ 16 + x.bad % 65536)
  else w64 (base + (x.word.elim 0 fun w => w.toNat))
/-- Memory bytes a POOL has written. -/
def poolBytes (d : Tab) (x : PoolRun) : List Nat :=
  if x.cmd.opc = 0 ∧ x.cmd.res.kind = .mem then
    (upto 0 (plBags x.cmd.param)).flatMap (fun b =>
      x.cmd.res.bytes (plRoff x.cmd.param + plOstr x.cmd.param * b) (tbW d * ((plOty x.cmd.param).width / 8))) ++
      x.cmd.res.bytes (plSoff x.cmd.param) (plBags x.cmd.param)
  else []

/-- A pool-unit command completes: its element enters q17 and its semaphore is signalled together (R297). -/
def execPoolUnitCompletion (k : Nat) (s : State) : Out :=
  .next (
    if !s.engineOn k then s
    else match (s.core k).prun with
      | none => s
      | some x =>
        let live := (s.core k).mark != .dying
        if !x.done || (live && decide (32 ≤ (s.core k).qUsed 17)) then s
        else
          let d := (s.ctx (s.core k).res.ctx.val).tab (plTid x.cmd.param)
          let e := x.cmd.view
          let s1 := s.modCore k fun c =>
            ({ (if live then c.noteAcq 16 (x.cmd.seq % 65536) (s.ownWrites e) (poolBytes d x) else c) with prun := none } : Core).wake
          let s2 := if live then s1.give k (.elem 17 (poolElem x) x.cmd.ph) else s1
          let s3 := match x.cmd.sig with
            | some n => if live then s2.give k (.sem n 1 x.cmd.ph (s.engDone e)) else s2
            | none => s2
          s3.settle k)

end Sys2Proof.Machine
end

