-- ==== Sys2Proof/Machine/Update.lean ====
section
/-!
DEFINITION. Sys2Proof/Machine/Update.lean: the scatter-update engine (R310 to R318).
-/
namespace Sys2Proof.Machine
open Sys2Proof

/-! ### The parameter block (R311) -/

def scTid (p : List Word) : Nat := bits (wd p 0) 63 54
def scGty (p : List Word) : Ty := (Ty.ofCode (bits (wd p 0) 41 37)).getD .i4
def scEvt (p : List Word) : Bool := bit (wd p 0) 36
def scN (p : List Word) : Nat := bits (wd p 0) 31 16 + 1
def scIoff (p : List Word) : Nat := bits (wd p 1) 63 32
def scGoff (p : List Word) : Nat := bits (wd p 1) 31 0
def scGstr (p : List Word) : Nat := bits (wd p 2) 63 40
def scSstr (p : List Word) : Nat := bits (wd p 2) 39 24
def scSoff (p : List Word) : Nat := bits (wd p 3) 63 32
/-- An F32 field: the high or low half of a word. -/
def scF (p : List Word) (n : Nat) (high : Bool) : Val :=
  fvalue .f32 (if high then bits (wd p n) 63 32 else bits (wd p n) 31 0)
/-- Bytes of a row's state that an optimiser spans: none for SGD. -/
def scState (opt w : Nat) : Nat := match opt with
  | 0 => 0
  | 1 => 4
  | _ => 16 + 4 * w

/-- Fields that must be zero (R311). -/
def scZero (opt : Nat) (p : List Word) : Bool :=
  bits (wd p 0) 35 32 == 0 && bits (wd p 0) 15 0 == 0 && bits (wd p 2) 23 0 == 0 && bits (wd p 3) 31 0 == 0 &&
    (opt != 0 || (bits (wd p 0) 45 42 == 0 && scSstr p == 0 && scSoff p == 0 && bits (wd p 4) 31 0 == 0)) &&
    (opt == 2 || (wd p 5 == 0 && wd p 6 == 0 && wd p 7 == 0))

/-- The checks of SCUPD after its block is read (R312). -/
def State.scFault (s : State) (opt : Nat) (p : List Word) : Option Flt :=
  let d := (s.ctx s.cx).tab (scTid p)
  let hn := hcnt s.res.hdr
  let hi := s.handleN (bits (wd p 0) 53 50)
  let hg := s.handleN (bits (wd p 0) 49 46)
  let hs := s.handleN (bits (wd p 0) 45 42)
  let gw := (scGty p).width / 8
  firstFlt
    ([ if bits (wd p 0) 53 50 < hn ∧ bits (wd p 0) 49 46 < hn ∧ bits (wd p 0) 45 42 < hn then none else some undeclared,
      needs (tbValid d),
      needs (tbTy d != .i8 && tbTy d != .i4),
      needs (scZero opt p),
      needs (scGty p == .f32 || scGty p == .bf16),
      needs (scIoff p % 4 == 0 && scGoff p % 16 == 0 && scGstr p % 16 == 0 && decide (tbW d * gw ≤ scGstr p)),
      needs (opt == 0 || (scSstr p % 16 == 0 && scSoff p % 16 == 0 &&
        decide ((if opt = 1 then 16 else 16 + 4 * tbW d) ≤ scSstr p))),
      needs (viewHolds hi (scIoff p) (4 * scN p)),
      needs (viewHolds hg (scGoff p) (scGstr p * (scN p - 1) + tbW d * gw)),
      needs (opt == 0 || viewHolds hs (scSoff p) (scSstr p * (tbRows d - 1) + scState opt (tbW d))),
      roleFault hi 8 false true [0, 1, 2, 4],
      roleFault hg 8 false true [0, 1, 2, 4] ] ++
     (if opt = 0 then []
      else [ if hKind hs = 0 then none else some accPerm,
             roleFault hs 8 false true [0, 1, 4], roleFault hs 8 true true [0, 1, 4] ]) ++
     [ if (tbExts d).all fun n => permOk (xPerm ((s.ctx s.cx).ext n)) 8 false && permOk (xPerm ((s.ctx s.cx).ext n)) 8 true then none
       else some accPerm,
      s.leaseFault (tbExts d ++ handleExts hi ++ handleExts hg ++ if opt = 0 then [] else handleExts hs) ])

/-- SCUPD (R310, R312, R313). -/
def State.scForm (s : State) (opt : Nat) (a : SIx) (sig : Option (Fin 16)) : Res :=
  s.withBlock (s.sr a) 64 fun p =>
    match s.scFault opt p with
    | some f => s.fault f (s.sr a).toNat
    | none =>
      let d := (s.ctx s.cx).tab (scTid p)
      let hi := s.handleN (bits (wd p 0) 53 50)
      let hg := s.handleN (bits (wd p 0) 49 46)
      let hs := s.handleN (bits (wd p 0) 45 42)
      s.enginePush (decide (16 ≤ s.me.q18.length + b2n s.me.srun.isSome)) fun t =>
        let n := (t.me.eseq[1] + 1) % 2 ^ 32
        let v := t.engView t.cur t.cur
        let x : ScCmd := ⟨opt, p, hPlace t hi, hPlace t hg, if opt = 0 then Place.none else hPlace t hs, sig, n, t.me.ph,
          tbExts d ++ handleExts hi ++ handleExts hg ++ (if opt = 0 then [] else handleExts hs), v.1⟩
        (v.2.modMe fun c => { c with eseq := c.eseq.set 1 n, q18 := c.q18 ++ [x] }).countCmd
def execScupdSgd (h : Head) (a : SIx) (sig : Option (Fin 16)) (s : State) : Out :=
  .next (s.issue h fun t => t.scForm 0 a sig)
def execScupdAdagrad (h : Head) (a : SIx) (sig : Option (Fin 16)) (s : State) : Out :=
  .next (s.issue h fun t => t.scForm 1 a sig)
def execScupdAdam (h : Head) (a : SIx) (sig : Option (Fin 16)) (s : State) : Out :=
  .next (s.issue h fun t => t.scForm 2 a sig)

/-! ### Coalescing (R314) -/

/-- RoundTo F32, to nearest even, as an encoding. -/
def r32 (v : Val) : Nat := (roundTo .f32 v .rne false).1
/-- The value of an F32 encoding. -/
def v32 (n : Nat) : Val := fvalue .f32 n
/-- RoundTo F32 as a value. -/
def rv (v : Val) : Val := v32 (r32 v)
/-- Rounded sum, difference, product, quotient and square root. -/
def addR (x y : Val) : Val := rv (x.add y .rne).1
def subR (x y : Val) : Val := rv (x.add y.negate .rne).1
def mulR (x y : Val) : Val := rv (x.mul y).1
def divR (x y : Val) : Val := rv (x.div y).1
def sqrtR (x : Val) : Val := rv x.sqrt.1

/-- A gradient of the command: F32 encodings, whether its data are uncorrectable, the state. -/
def State.gradient (s : State) (k : Nat) (x : ScCmd) (w p : Nat) : List (BitVec 32) × Bool × State :=
  let ty := scGty x.param
  let n := ty.width / 8
  let r := s.placeRead k x.view x.grad false (scGoff x.param + p * scGstr x.param) (w * n)
  ((upto 0 w).map fun e => BitVec.ofNat 32 (r32 (fvalue ty (ofBytes ((r.1.drop (n * e)).take n)))), r.2.1, r.2.2)

/-- Add a position's gradient to its row: rows in ascending order (R314). -/
def addGrad (m : Map (List (BitVec 32))) (r : Nat) (g : List (BitVec 32)) : Map (List (BitVec 32)) :=
  match mget m r with
  | none => mset m r g
  | some o => mset m r ((o.zip g).map fun e => BitVec.ofNat 32 (r32 ((v32 e.1.toNat).add (v32 e.2.toNat) .rne).1))

/-- Pin the valid ways that hold the rows of a command, once each (R317). -/
def State.pinRows (s : State) (c : Nat) (d : Tab) (tid : Nat) (rows : List Nat) : State × List Nat :=
  if !tbHot d then (s, [])
  else rows.foldl
    (fun a r => match a.1.hotWay c tid r with
      | some w => (a.1.setWay w.1 { w.2 with pins := w.2.pins + 1 }, a.2 ++ [w.1])
      | none => a) (s, [])

/-- The running command once coalesced (R314, R316, R317). -/
def State.coalesce (s : State) (k : Nat) (x : ScCmd) : ScRun × State :=
  let c := (s.core k).res.ctx
  let tid := scTid x.param
  let d := (s.ctx c.val).tab tid
  let n := scN x.param
  let l := s.placeRead k x.view x.idx false (scIoff x.param) (4 * n)
  let ix := nums32 l.1
  match ix.findIdx? fun r => decide (tbRows d ≤ r) with
  | some p => (⟨x, [], [], 0x55, p, 0, [], []⟩, l.2.2.logEngine k 3 0x55 (3 + tid * 2 ^ 32) 0 p)
  | none =>
    let g := (ix.zip (upto 0 n)).foldl
      (fun (a : Map (List (BitVec 32)) × List Nat × State) e =>
        let r := a.2.2.gradient k x (tbW d) e.2
        (addGrad a.1 e.1 r.1, if r.2.1 && !a.2.1.contains e.1 then a.2.1 ++ [e.1] else a.2.1, r.2.2)) ([], [], l.2.2)
    let lost := sortBy (fun a b => a ≤ b) g.2.1
    let rows := g.1.filter fun e => !lost.contains e.1
    let s1 := lost.foldl (fun (t : State) r => t.logEngine k 3 0x40 (3 + tid * 2 ^ 32) r 0) g.2.2
    let p := s1.pinRows c.val d tid (rows.map fun e => e.1)
    (⟨x, rows, lost, if l.2.1 ∨ !lost.isEmpty then 0x40 else 0, lost.headD 0, 0, p.2, []⟩, p.1)

/-- The head of q18 starts once its phase has ended or committed early: its rows are coalesced (R313, R314). -/
def execScatterUpdateCommand (k : Nat) (s : State) : Out :=
  .next (
    if !s.engineStarts k || (s.core k).srun.isSome then s
    else match (s.core k).q18 with
      | [] => s
      | x :: r =>
        if !(s.core k).freed x.ph then s
        else
          let y := (s.modCore k fun c => { c with q18 := r }).coalesce k x
          y.2.modCore k fun c => { c with srun := some y.1 })

/-! ### Steps (R315 to R318) -/

/-- The row mean of squared gradients (R315). -/
def meanSq (g : List Val) : Val :=
  divR (g.foldl (fun q e => addR q (mulR e e)) (.fin false 0 0 false)) (ivalue (g.length : Nat))

/-- Step: new elements, and the state's first element and first moments (R315). -/
def scStep (opt : Nat) (p : List Word) (g x : List Val) (a : Val) (m : List Val) : List Val × Val × List Val :=
  let lr := scF p 4 true
  let eps := scF p 4 false
  let q := meanSq g
  match opt with
  | 0 => ((x.zip g).map fun e => subR e.1 (mulR lr e.2), a, m)
  | 1 =>
    let a2 := addR a q
    let d := addR (sqrtR a2) eps
    ((x.zip g).map fun e => subR e.1 (divR (mulR lr e.2) d), a2, m)
  | _ =>
    let m2 := (m.zip g).map fun e => addR (mulR (scF p 5 true) e.1) (mulR (scF p 5 false) e.2)
    let v := addR (mulR (scF p 6 true) a) (mulR (scF p 6 false) q)
    let d := addR (sqrtR (mulR v (scF p 7 false))) eps
    ((x.zip m2).map fun e => subR e.1 (divR (mulR lr (mulR e.2 (scF p 7 true))) d), v, m2)

/-- Rows that may be next: the least row of each channel (R314). -/
def State.scHeads (s : State) (c : Nat) (d : Tab) (rows : List (Nat × List (BitVec 32))) : List Nat :=
  (rows.foldl
    (fun (a : List Nat × List (Option Nat)) e =>
      let ch := leaseChannel ((s.ctx c).rowAddr d e.1)
      if a.2.contains ch then a else (a.1 ++ [e.1], ch :: a.2)) ([], [])).1

/-- The step of a row whose pins are gone, or its loss (R315 to R318). -/
def State.commitRow (s : State) (k : Nat) (x : ScRun) (r : Nat) (g : List (BitVec 32)) : State :=
  let c := (s.core k).res.ctx.val
  let p := x.cmd.param
  let d := (s.ctx c).tab (scTid p)
  let ty := tbTy d
  let n := ty.width / 8
  let a := (s.ctx c).rowAddr d r
  let st := x.cmd.st.addr + scSoff p + r * scSstr p
  let els (b w k : Nat) : List Nat := (upto 0 k).map fun e => s.peek (b + w * e) w
  let mcnt := if x.cmd.opt = 2 then tbW d else 0
  let stAddrs := if x.cmd.opt = 0 then [] else upto st 4 ++ upto (st + 16) (4 * mcnt)
  let rest := x.rows.filter fun e => e.1 != r
  if s.poisoned a (tbBytes d) || (x.cmd.opt != 0 && (s.poisoned st 4 || s.poisoned (st + 16) (4 * mcnt))) then
    let y : ScRun := { x with rows := rest, stat := 0x40, lost := x.lost ++ [r],
                              first := if x.lost.isEmpty then r else min x.first r }
    (s.rowRelease.logEngine k 3 0x40 (3 + scTid p * 2 ^ 32) r 0).modCore k fun c => { c with srun := some y }
  else if s.rowsPinned stAddrs then s.rowRelease.clearRows stAddrs
  else
    let o := scStep x.cmd.opt p (g.map fun e => v32 e.toNat) ((els a n (tbW d)).map (fvalue ty)) (v32 (s.peek st 4))
      ((els (st + 16) 4 mcnt).map v32)
    let row := o.1.flatMap fun v => toBytes n (roundTo ty v .rne false).1
    let state := if x.cmd.opt = 0 then []
      else cellsAt st (toBytes 4 (r32 o.2.1)) ++ cellsAt (st + 16) (o.2.2.flatMap fun v => toBytes 4 (r32 v))
    let y : ScRun := { x with rows := rest, count := x.count + 1, outs := x.outs ++ upto a row.length ++ stAddrs }
    let e := x.cmd.view
    let s1 := s.engLearn e (s.newestOf a (tbData d) ++ stAddrs.flatMap fun b => s.newestOf b 1)
    (((s1.engWrite e state).engWrite e (cellsAt a row)).rowRelease).modCore k fun c => { c with srun := some y }

/-- A row's commit (R317): the way loses VALID and this command's pin, and the step waits for the other pins.  Which
channel's row comes next is not stated.  A debugger's halt pauses the command between row steps (R328). -/
def execRowCommit (k : Nat) (s : State) : Out :=
  .next (
    if !s.engineStarts k then s
    else match (s.core k).srun with
      | none => s
      | some x =>
        let c := (s.core k).res.ctx.val
        let tid := scTid x.cmd.param
        let d := (s.ctx c).tab tid
        let hs := s.scHeads c d x.rows
        let pick := if hs.length ≤ 1 then (0, s) else s.draw
        match hs[pick.1 % max 1 hs.length]? with
        | none => s
        | some r =>
          let mine := (pick.2.wayTags c tid r).filter fun w => x.pins.contains w.1
          let s1 := (pick.2.wayTags c tid r).foldl (fun (t : State) w => t.clearWay w.1) pick.2
          let s2 := s1.unpinWays (mine.map fun w => w.1)
          let y : ScRun := { x with pins := x.pins.filter fun w => !mine.any fun m => m.1 == w }
          let s3 := s2.modCore k fun c => { c with srun := some y }
          let a := (s3.ctx c).rowAddr d r
          if s3.rowPinned c tid r || s3.rowsPinned (upto a (tbData d)) then (s3.clearRows (upto a (tbData d))).rowRelease
          else s3.commitRow k y r ((x.rows.find? fun e => e.1 == r).elim [] fun e => e.2))

/-- The completion entry of a scatter update (R316 Table 2). -/
def scEntry (x : ScRun) : Gran :=
  BitVec.ofNat 128 ((x.first % 2 ^ 32 * 2 ^ 32 + x.count % 2 ^ 32) * 2 ^ 64 +
    (0xD1 * 2 ^ 56 + x.stat * 2 ^ 48 + x.cmd.seq % 2 ^ 32))

/-- A scatter update completes: the signal and the entry together, once its last row is committed (R316). -/
def execScatterUpdateCompletion (k : Nat) (s : State) : Out :=
  .next (
    if !s.engineOn k then s
    else match (s.core k).srun with
      | none => s
      | some x =>
        let live := (s.core k).mark != .dying
        let entry := live && (scEvt x.cmd.param || x.stat != 0)
        if !x.rows.isEmpty || (entry && decide (64 ≤ (s.core k).qUsed 25)) then s
        else
          let e := x.cmd.view
          let s1 := s.modCore k fun c =>
            ({ (if entry then c.noteAcq 18 x.cmd.seq (s.ownWrites e) x.outs else c) with srun := none } : Core).wake
          let s2 := match x.cmd.sig with
            | some n => if live then s1.give k (.sem n 1 x.cmd.ph (s.engDone e)) else s1
            | none => s1
          let s3 := if entry then s2.give k (.ev ⟨scEntry x, x.cmd.ph, some (18, x.cmd.seq)⟩) else s2
          s3.settle k)

end Sys2Proof.Machine
end

