-- ==== Sys2Proof/Machine/NearMemory.lean ====
section
/-!
DEFINITION. Sys2Proof/Machine/NearMemory.lean: the near-memory sequencers (R319 to R328).
-/
namespace Sys2Proof.Machine
open Sys2Proof

/-! ### The descriptor (R320) -/

def nmChip (d : List Word) : Nat := bits (wd d 0) 63 61
def nmMask (d : List Word) : Nat := bits (wd d 0) 60 53
def nmBcast (d : List Word) : Bool := bit (wd d 0) 52
def nmSrc (d : List Word) : Nat := 8 * nmChip d + bits (wd d 0) 51 49
def nmTy (d : List Word) (hi lo : Nat) : Ty := (Ty.ofCode (bits (wd d 0) hi lo)).getD .i4
def nmA (d : List Word) : Ty := nmTy d 48 44
def nmB (d : List Word) : Ty := nmTy d 43 39
def nmO (d : List Word) : Ty := nmTy d 38 34
def nmOlvl (d : List Word) : Nat := bits (wd d 0) 33 31
def nmInit (d : List Word) : Bool := bit (wd d 0) 30
def nmCommit (d : List Word) : Nat := bits (wd d 0) 29 27
def nmAbase (d : List Word) : Nat := bits (wd d 1) 63 32
def nmBbase (d : List Word) : Nat := bits (wd d 1) 31 0
def nmObase (d : List Word) : Nat := bits (wd d 2) 63 32
def nmTsel (d : List Word) (l : Nat) : Bool := bit (wd d (3 + 2 * l)) 63
def nmPad (d : List Word) (l : Nat) : Nat := bits (wd d (3 + 2 * l)) 62 61
def nmTrip (d : List Word) (l : Nat) : Nat := bits (wd d (3 + 2 * l)) 47 32
def nmExt (d : List Word) (l : Nat) : Nat := bits (wd d (3 + 2 * l)) 31 16
def nmStA (d : List Word) (l : Nat) : Int := sgn 20 (bits (wd d (4 + 2 * l)) 63 44)
def nmStB (d : List Word) (l : Nat) : Int := sgn 20 (bits (wd d (4 + 2 * l)) 43 24)
def nmStO (d : List Word) (l : Nat) : Int := sgn 20 (bits (wd d (4 + 2 * l)) 23 4)
/-- Participating units (R319, R320). -/
def nmUnits (d : List Word) : List Nat := ((upto 0 8).filter fun c => bit (nmMask d) c).map fun c => 8 * nmChip d + c
/-- Units whose regions a run reads or writes. -/
def nmRegions (d : List Word) : List Nat := (nmUnits d ++ if nmBcast d then [nmSrc d] else []).dedup

/-- Whether the fields lie inside Table 3, trip counts apart where `var` leaves slots to a card. -/
def nmFieldsOk (d : List Word) (var : Bool) : Bool :=
  nmMask d != 0 && (nmBcast d || bits (wd d 0) 51 49 == 0) && (nmA d).isFloat && (nmB d).isFloat && (nmO d).isF &&
    decide (nmOlvl d ≤ 5) && decide (nmCommit d ≤ 4) && bits (wd d 0) 26 0 == 0 && bits (wd d 2) 31 0 == 0 &&
    wd d 13 == 0 && wd d 14 == 0 && wd d 15 == 0 &&
    (upto 0 5).all fun l =>
      bits (wd d (3 + 2 * l)) 60 48 == 0 && bits (wd d (3 + 2 * l)) 15 0 == 0 && bits (wd d (4 + 2 * l)) 3 0 == 0 &&
        (if nmTsel d l then var && decide (nmTrip d l < 8) else nmTrip d l != 0) &&
        ((nmPad d l == 0) == (nmExt d l == 0)) && (decide (l < nmOlvl d) || nmStO d l == 0)

/-! ### Regions and checks (R319, R322) -/

/-- The region of channel u that extent n is: first row and length in rows. -/
def Ctx.regionOf (t : Ctx) (u n : Nat) : Option (Nat × Nat) :=
  let x := t.ext n
  if xValid x && xTier x == 2 && leaseChannel (xBase x) == some u then some ((xBase x - (leaseBase + u * 2 ^ 34)) / 64, 2 ^ xLog x / 64) else none
/-- The near-memory region designated for a context on a channel. -/
def Ctx.region (t : Ctx) (u : Nat) : Option (Nat × Nat) := (mget t.regions u).bind (t.regionOf u)
/-- Smallest and largest element index a stream reaches (R322). -/
def nmSpan (d : List Word) (trips : List Nat) (st : List Word → Nat → Int) : Int × Int :=
  (upto 0 5).foldl
    (fun (a : Int × Int) l =>
      let n := (if nmExt d l = 0 then trips.getD l 1 else min (trips.getD l 1) (nmExt d l)) - 1
      let v := st d l * (n : Nat)
      if v < 0 then (a.1 + v, a.2) else (a.1, a.2 + v)) (0, 0)
/-- Whether a stream of element width w bytes from a base row stays inside a region of n rows. -/
def nmInside (span : Int × Int) (base w n : Nat) : Bool :=
  decide (0 ≤ 64 * (base : Int) + span.1 * w ∧ 64 * (base : Int) + (span.2 + 1) * w ≤ 64 * n)
/-- Whether the near-memory bits of PERM, and RO, let a unit's region extent be read, or be written (R170). -/
def Ctx.nmPerm (t : Ctx) (u : Nat) (write : Bool) : Bool :=
  (mget t.regions u).any fun n => permOk (xPerm (t.ext n)) 9 write && !(write && xRo (t.ext n))
/-- The region checks of R322, points 3 and 4, and the permissions of R170: A is read at the units or at the broadcast
source, B, and O where INIT is 1, at the units, and O is written there. -/
def Ctx.nmFault (t : Ctx) (d : List Word) (trips : List Nat) : Option Flt :=
  if (nmRegions d).any fun u => (t.region u).isNone || !t.nmPerm u false then some accPerm
  else if (nmUnits d).any fun u => !t.nmPerm u true then some accPerm
  else
    let len (u : Nat) : Nat := (t.region u).elim 0 fun r => r.2
    needs ((nmUnits d).all fun u =>
      nmInside (nmSpan d trips nmStA) (nmAbase d) ((nmA d).width / 8) (len (if nmBcast d then nmSrc d else u)) &&
        nmInside (nmSpan d trips nmStB) (nmBbase d) ((nmB d).width / 8) (len u) &&
        nmInside (nmSpan d trips nmStO) (nmObase d) ((nmO d).width / 8) (len u))
/-- The extents of a run's regions. -/
def Ctx.nmExts (t : Ctx) (d : List Word) : List Nat := (nmRegions d).filterMap fun u => mget t.regions u

def execNmrun (h : Head) (a : SIx) (sig : Option (Fin 16)) (s : State) : Out :=
  .next (s.issue h fun t => t.withBlock (t.sr a) 128 fun p =>
    let trips := (upto 0 5).map (nmTrip p)
    let c := t.ctx t.cx
    match firstFlt [needs (nmFieldsOk p false), c.nmFault p trips, t.leaseFault (c.nmExts p)] with
    | some f => t.fault f (t.sr a).toNat
    | none => t.enginePush (decide (8 ≤ t.me.q19.length)) fun u =>
      let n := (u.me.eseq[2] + 1) % 2 ^ 32
      let v := u.engView u.cur u.cur
      (v.2.modMe fun c => { c with
        eseq := c.eseq.set 2 n
        q19 := c.q19 ++ [⟨p, sig, n, c.ph, (u.ctx u.cx).nmExts p, v.1⟩] }).countCmd)

/-! ### Runs at the chiplets (R321 to R323) -/

/-- Start a run: it waits at each of its units in the order in which it reaches the chiplet (R322). -/
def State.startRun (s : State) (x : NmRun) : State :=
  { s with
    runs := mset s.runs s.nextRun x
    nextRun := s.nextRun + 1
    unitQ := (nmUnits x.desc).foldl (fun m u => mset m u (mgetD m u [] ++ [s.nextRun])) s.unitQ }
/-- A run that has done nothing yet. -/
def newRun (ctx : Fin 8) (core card : Option Nat) (sig : Option (Fin 16)) (seq : Nat) (d : List Word) (trips : List Nat)
    (e : EView) : NmRun :=
  ⟨ctx, core, card, sig, seq, d, trips, (nmUnits d).map fun u => ⟨u, 0, 0, 0, none, false, false⟩, 0, 0, none, [], e, false⟩

/-- The run and its part at the head of a unit's queue. -/
def State.unitHead (s : State) (u : Nat) : Option (Nat × NmRun × NmUnit) :=
  ((mgetD s.unitQ u []).head?).bind fun n => (mget s.runs n).bind fun r => (r.units.find? fun x => x.unit == u).map fun x => (n, r, x)
/-- Iterations of the nest, and of one commit-level iteration. -/
def nmTotal (trips : List Nat) : Nat := trips.foldl (fun n t => n * t) 1
def nmChunk (r : NmRun) : Nat := nmTotal (r.trips.drop (nmCommit r.desc + 1))
/-- Whether a unit stands at a boundary of its commit level (R326). -/
def atCommit (r : NmRun) (x : NmUnit) : Bool := x.iter % nmChunk r == 0
/-- The extent that unit u works in for context c: the one its NMBASE stands for, before the context switch the designated
one (R319). -/
def State.unitExt (s : State) (c u : Nat) : Option Nat :=
  if mget s.nmctx u = some c then mget s.nmext u else mget (s.ctx c).regions u
/-- The extent of a run's broadcast source. -/
def State.srcExt (s : State) (r : NmRun) : Option Nat :=
  if nmBcast r.desc then r.aext <|> mget (s.ctx r.ctx.val).regions (nmSrc r.desc) else none
/-- The extents that unit u uses for a run. -/
def State.unitExts (s : State) (r : NmRun) (u : Nat) : List Nat := (s.unitExt r.ctx.val u).toList ++ (s.srcExt r).toList
/-- The extents that a run holds until it completes: those its units work in (R177, R309). -/
def State.runExts (s : State) (r : NmRun) : List Nat := if r.done then [] else (nmUnits r.desc).flatMap (s.unitExts r)
/-- Whether a revocation of extent n is in progress. -/
def Ctx.inRevoc (t : Ctx) (n : Nat) : Bool := xRvk (t.ext n)
/-- Whether a revocation of a region that unit u uses for a run is in progress (R326). -/
def State.regionRevoked (s : State) (r : NmRun) (u : Nat) : Bool := (s.unitExts r u).any (s.ctx r.ctx.val).inRevoc
/-- The first commit boundary that no working unit of a run has passed: where a broadcast run's units pause together
(R326). -/
def nmBoundary (r : NmRun) : Nat :=
  let m := ((r.units.filter fun x => !x.done).map fun x => x.iter).foldl max 0
  (m + nmChunk r - 1) / nmChunk r * nmChunk r
/-- Whether a revocation pauses a unit of a run where it stands: its own region's at its commit boundary, that of the
broadcast source, though it be its own, at the boundary of all the units (R326). -/
def State.pauseDue (s : State) (r : NmRun) (x : NmUnit) : Bool :=
  let t := s.ctx r.ctx.val
  let own := s.unitExt r.ctx.val x.unit
  atCommit r x &&
    ((own.any t.inRevoc && own != s.srcExt r) || ((s.srcExt r).any t.inRevoc && decide (nmBoundary r ≤ x.iter)))
/-- Put back a unit's part of a run; a unit that is done leaves its queue. -/
def State.setUnit (s : State) (n : Nat) (r : NmRun) (x : NmUnit) : State :=
  let s1 : State := { s with runs := mset s.runs n { r with units := r.units.map fun y => if y.unit = x.unit then x else y } }
  if x.done then { s1 with unitQ := mset s1.unitQ x.unit (mgetD s1.unitQ x.unit []).tail } else s1

/-- Counters of iteration i: c0 outermost. -/
def nmCounters (trips : List Nat) (i : Nat) : List Nat :=
  (upto 0 5).map fun l => i / nmTotal (trips.drop (l + 1)) % trips.getD l 1
/-- Whether every counter at levels OLVL and deeper satisfies a test. -/
def nmInner (d : List Word) (p : Nat → Bool) : Bool := (upto 0 5).all fun l => decide (l < nmOlvl d) || p l
/-- Element index of a stream at counters k. -/
def nmIndex (d : List Word) (st : List Word → Nat → Int) (k : List Nat) : Int :=
  (upto 0 5).foldl (fun (a : Int) l => a + st d l * (k.getD l 0 : Nat)) 0
/-- Physical address of an element: of a stream with a base, in a region that begins at a row of channel u (R321). -/
def nmPhys (u row base w : Nat) (x : Int) : Nat := ((leaseBase + u * 2 ^ 34 + 64 * (row + base) : Nat) + x * w : Int).toNat
/-- The same at a unit, from its NMBASE. -/
def State.nmAddr (s : State) (u base w : Nat) (x : Int) : Nat := nmPhys u (mgetD s.nmbase u (0, 0)).1 base w x
/-- Whether element x of a stream lies below NMLEN at unit u (R319). -/
def State.nmBelow (s : State) (u base w : Nat) (x : Int) : Bool := nmInside (x, x) base w (mgetD s.nmbase u (0, 0)).2
/-- Whether element x of stream A lies below the length of the region it is read from. -/
def State.nmBelowA (s : State) (r : NmRun) (u : Nat) (x : Int) : Bool :=
  let w := (nmA r.desc).width / 8
  if nmBcast r.desc then nmInside (x, x) (nmAbase r.desc) w r.alen else s.nmBelow u (nmAbase r.desc) w x
/-- Whether a level is padding at counters c. -/
def nmPadded (d : List Word) (c : List Nat) (l : Nat) : Bool := nmPad d l != 0 && decide (nmExt d l ≤ c.getD l 0)
/-- Whether an iteration belongs to an output. -/
def nmOut (d : List Word) (c : List Nat) : Bool := (upto 0 (nmOlvl d)).all fun l => !nmPadded d c l
/-- Address of the output of counters c. -/
def State.nmOutAddr (s : State) (r : NmRun) (u : Nat) (c : List Nat) : Nat :=
  s.nmAddr u (nmObase r.desc) ((nmO r.desc).width / 8) (nmIndex r.desc nmStO c)
/-- Output elements per unit (R324). -/
def nmOuts (d : List Word) (trips : List Nat) : Nat :=
  (upto 0 (nmOlvl d)).foldl
    (fun n l => n * if nmPad d l = 0 then trips.getD l 1 else min (trips.getD l 1) (nmExt d l)) 1
/-- Addresses of a unit's outputs in the order in which they are written. -/
def State.nmOutList (s : State) (r : NmRun) (u : Nat) : List Nat :=
  let outer := nmTotal (r.trips.drop (nmOlvl r.desc))
  (upto 0 (nmTotal r.trips / max 1 outer)).filterMap fun i =>
    let c := nmCounters r.trips (i * outer)
    if nmOut r.desc c then some (s.nmOutAddr r u c) else none

/-- The context of a run stops by an error of unit u: engine stream, near-memory agent. -/
def State.stopRun (s : State) (r : NmRun) (code detail addr : Nat) : State :=
  let k := r.core.getD 0
  let b := (s.core k).res
  s.contextStop r.ctx.val code
    ⟨code, detail, 3, k, r.card.getD b.card, 4, if r.core.isSome then b.block else 0, 0, addr, 0, 0⟩

/-- A unit that has met uncorrectable data at its output element f (R323): it writes the poison code, as a write of the rows
it reaches (R303), below NMLEN. -/
def State.failUnit (s : State) (n : Nat) (r : NmRun) (x : NmUnit) : State :=
  let w := (nmO r.desc).width / 8
  let top := s.nmAddr x.unit (mgetD s.nmbase x.unit (0, 0)).2 0 0
  let gs := (((s.nmOutList r x.unit).drop x.outs).filter fun a => decide (s.nmAddr x.unit 0 0 0 ≤ a ∧ a + w ≤ top)).flatMap
    fun a => touchGrans a w
  let rows := gs.map fun g => 16 * g
  if s.rowsPinned rows then s.clearRows rows
  else
  let s1 := (s.clearRows rows).setPoison gs
  let s2 := s1.logEv { Ev.of 0x08 0x51 r.ctx.val with
    die := (r.core.getD 0) / 64, lcore := (r.core.getD 0) % 64, stream := 3, agent := 4,
    card := r.card.getD (r.core.elim 0 fun k => (s.core k).res.card),
    block := r.core.elim 0 fun k => (s.core k).res.block, p0 := 4, p1 := 0x51, p2 := x.unit, p3 := x.outs }
  s2.setUnit n r { x with fail := some x.outs, outs := nmOuts r.desc r.trips, done := true }

/-- An element of stream A at an iteration, read once for all units under broadcast (R323): its bits, uncorrectable, the
writes that placed it, the run. -/
def State.nmReadA (s : State) (r : NmRun) (x : NmUnit) (i : Int) : Nat × Bool × List Nat × NmRun :=
  let w := (nmA r.desc).width / 8
  let get (a : Nat) : Nat × Bool × List Nat := (s.peek a w, s.poisoned a w, s.newestOf a w)
  if nmBcast r.desc then
    match mget r.abuf x.iter with
    | some g => (g.1, g.2, [], r)
    | none =>
      let g := get (nmPhys (nmSrc r.desc) r.abase (nmAbase r.desc) w i)
      let kept := r.abuf.filter fun e => r.units.any fun y => !y.done && decide (y.iter ≤ e.1)
      (g.1, g.2.1, g.2.2, { r with abuf := mset kept x.iter (g.1, g.2.1) })
  else
    let g := get (s.nmAddr x.unit (nmAbase r.desc) w i)
    (g.1, g.2.1, g.2.2, r)

/-- One iteration of the nest at a unit (R321): a write whose row is pinned waits (R303).  An element at NMLEN × 64 or above,
which a designation since the check at issue can leave, is not reached: the context stops (notes/assumptions/68.md). -/
def State.nmIterate (s : State) (n : Nat) (r : NmRun) (x : NmUnit) : State :=
  let d := r.desc
  let c := nmCounters r.trips x.iter
  let last := decide (nmTotal r.trips ≤ x.iter + 1)
  if !nmOut d c then s.setUnit n r { x with iter := x.iter + 1, done := last }
  else
    let wb := (nmB d).width / 8
    let wo := (nmO d).width / 8
    let o := s.nmOutAddr r x.unit c
    let first := nmInner d fun l => c.getD l 0 == 0
    let final := nmInner d fun l => c.getD l 0 + 1 == r.trips.getD l 1
    let skip := !(nmInner d fun l => !(nmPadded d c l && nmPad d l == 3))
    let zero := !(nmInner d fun l => !(nmPadded d c l && nmPad d l == 1))
    let k := (upto 0 5).map fun l => if nmPadded d c l && nmPad d l == 2 then nmExt d l - 1 else c.getD l 0
    let reads := !skip && !zero
    let below := (!reads || (s.nmBelowA r x.unit (nmIndex d nmStA k) && s.nmBelow x.unit (nmBbase d) wb (nmIndex d nmStB k))) &&
      (!(final || (first && nmInit d)) || s.nmBelow x.unit (nmObase d) wo (nmIndex d nmStO c))
    if !below then s.stopRun r 0x28 1 o else
    let a := if reads then s.nmReadA r x (nmIndex d nmStA k) else (0, false, [], r)
    let b := s.nmAddr x.unit (nmBbase d) wb (nmIndex d nmStB k)
    if (first && nmInit d && s.poisoned o wo) || a.2.1 || (reads && s.poisoned b wb) then s.failUnit n a.2.2.2 x
    else if final && s.rowsPinned (upto o wo) then s.clearRows (upto o wo)
    else
      let acc0 := if first then (if nmInit d then v32 (r32 (fvalue (nmO d) (s.peek o wo))) else .fin false 0 0 false)
        else v32 x.acc.toNat
      let va := if zero then .fin false 0 0 false else fvalue (nmA d) a.1
      let vb := if zero then .fin false 0 0 false else fvalue (nmB d) (s.peek b wb)
      let acc := if skip then acc0 else rv (va.fma vb acc0 .rne).1
      let s0 := s.engLearn r.view (a.2.2.1 ++ (if reads then s.newestOf b wb else []) ++
        if first && nmInit d then s.newestOf o wo else [])
      let s1 := if final then s0.engWrite r.view (cellsAt o (toBytes wo (roundTo (nmO d) acc .rne false).1)) else s0
      s1.setUnit n a.2.2.2 { x with
        iter := x.iter + 1
        acc := BitVec.ofNat 32 (r32 acc)
        outs := if final then x.outs + 1 else x.outs
        done := last }

/-- The cores whose next committed run names a chiplet, in ascending order. -/
def State.nmReady (s : State) (chip : Nat) : List Nat :=
  s.cores.filterMap fun e => match e.2.q19 with
    | x :: _ => if nmChip x.desc == chip && e.2.freed x.ph && s.engineStarts e.1 && e.2.mark != .dying then some e.1 else none
    | [] => none

/-- Load NMBASE and NMLEN of a unit for a context with region g of extent e (R319). -/
def State.loadBase (s : State) (u c e : Nat) (g : Nat × Nat) : State :=
  { s with nmbase := mset s.nmbase u g, nmext := mset s.nmext u e, nmctx := mset s.nmctx u c }
/-- A unit's first iteration of a run: NMBASE and NMLEN are loaded where the unit's last run was of another context (R319,
R358); the run's first unit to start takes the broadcast source's base. -/
def State.unitStart (s : State) (n : Nat) (r : NmRun) (x : NmUnit) : State :=
  let t := s.ctx r.ctx.val
  let s1 : State :=
    if mget s.nmctx x.unit = some r.ctx.val then s
    else s.loadBase x.unit r.ctx.val (mgetD t.regions x.unit 0) ((t.region x.unit).getD (0, 0))
  s1.nmIterate n
    (if r.units.all fun y => y.iter == 0 then
      let g := (t.region (nmSrc r.desc)).getD (0, 0)
      { r with abase := g.1, alen := g.2, aext := mget t.regions (nmSrc r.desc) }
    else r) x

/-- A run reaches its chiplet, in an order among cores that is not stated; else the unit performs one iteration of the
run at its head, unless a revocation or a debugger's halt keeps it at its commit boundary (R322, R326, R328). -/
def execNearMemoryRun (u : Fin 64) (s : State) : Out :=
  .next (
    if s.down then s
    else
      let ks := s.nmReady (u.val / 8)
      let pick := if ks.length ≤ 1 then (0, s) else s.draw
      match ks[pick.1 % max 1 ks.length]? with
      | some k =>
        (match (s.core k).q19 with
        | [] => s
        | x :: r =>
          (pick.2.startRun (newRun (s.core k).res.ctx (some k) none x.sig x.seq x.desc ((upto 0 5).map (nmTrip x.desc)) x.view)).modCore k
            fun c => { c with q19 := r, nmseq := ((x.seq, s.nextRun) :: c.nmseq).take 16 })
      | none =>
        match s.unitHead u.val with
        | none => s
        | some (n, r, x) =>
          let t := s.ctx r.ctx.val
          if x.paused || t.stopped || (atCommit r x && t.halted) || s.pauseDue r x then s
          else if x.iter = 0 then s.unitStart n r x
          else s.nmIterate n r x)

/-- MAXPH of a header in reference ns (R13). -/
def maxPh (hdr : List Word) : Nat := let n := bits (wd hdr 6) 31 8; 16 * if n = 0 then 62500 else n
/-- The header of a run's kernel. -/
def State.runHdr (s : State) (r : NmRun) : List Word :=
  match r.core, r.card with
  | some k, _ => (s.core k).res.hdr
  | none, some n => (mget (s.ctx r.ctx.val).jobs n).elim [] fun j => j.hdr
  | none, none => []

/-- A unit under a revocation of its region pauses at its commit boundary; one that comes to it after MAXPH stops its
context (R326). -/
def execUnitPause (u : Fin 64) (s : State) : Out :=
  .next (
    match s.unitHead u.val with
    | none => s
    | some (n, r, x) =>
      if s.down || x.paused || !s.pauseDue r x then s
      else
        let t := s.ctx r.ctx.val
        let late := t.revs.any fun v => (s.unitExts r u.val).contains v.ext &&
            decide (v.start + maxPh (s.runHdr r) < s.rtime)
        if late then s.stopRun r 0x66 0 0
        else s.setUnit n r { x with paused := true })

/-! ### Completion and NMSTAT (R324, R325, R327) -/

/-- Failed channels of a run so far, and the lowest failed unit with its first lost element. -/
def nmFailMask (r : NmRun) : Nat := (r.units.map fun x => if x.fail.isSome then 2 ^ (x.unit % 8) else 0).sum
def nmFirst (r : NmRun) : Option (Nat × Nat) := r.units.findSome? fun x => x.fail.map fun f => (x.unit, f)
/-- The completion entry (R324 Table 4). -/
def nmEntry (r : NmRun) : Gran :=
  let f := nmFirst r
  BitVec.ofNat 128 (((f.elim 0 fun x => x.2) % 2 ^ 32 * 2 ^ 32 + nmOuts r.desc r.trips % 2 ^ 32) * 2 ^ 64 +
    (0xE1 * 2 ^ 56 + (if f.isSome then 0x51 else 0) * 2 ^ 48 + nmFailMask r * 2 ^ 40 + (f.elim 0 fun x => x.1) * 2 ^ 34 +
      r.seq % 2 ^ 32))
/-- Memory bytes a run has written. -/
def State.nmBytes (s : State) (r : NmRun) : List Nat :=
  r.units.flatMap fun x => (s.nmOutList r x.unit).flatMap fun a => upto a ((nmO r.desc).width / 8)

/-- A run completes (R324): signal and entry for a command's run, DONE or FAILED for a variant's job (R327), which waits while
a debugger holds the context (R60). -/
def execNearMemoryCompletion (n : Nat) (s : State) : Out :=
  .next (
    match mget s.runs n with
    | none => s
    | some r =>
      if s.down || r.done || !(r.units.all fun x => x.done) || (s.ctx r.ctx.val).stopped then s
      else match r.core, r.card with
        | some k, _ =>
          let live := (s.core k).mark != .dying
          if s.holdFull k || (live && decide (64 ≤ (s.core k).qUsed 25)) then s
          else if !live then ({ s with runs := mdel s.runs n } : State).settle k
          else
            let s1 := ({ s with runs := mset s.runs n { r with done := true } } : State).modCore k fun c =>
              (c.noteAcq 19 r.seq (s.ownWrites r.view) (s.nmBytes r)).wake
            let s2 := match r.sig with
              | some m => s1.give k (.sem m 1 0 (s.engDone r.view))
              | none => s1
            s2.give k (.ev ⟨nmEntry r, 0, some (19, r.seq)⟩)
        | none, some m =>
          if (s.ctx r.ctx.val).halted then s
          else
          let s1 : State := ({ s with runs := mdel s.runs n } : State).modCtx r.ctx.val fun t =>
            match mget t.jobs m with
            | some j => { t with jobs := mset t.jobs m { j with dview := j.dview.join (s.engDone r.view) } }
            | none => t
          (match nmFirst r with
          | some f => s1.jobFail r.ctx.val m 0x20 0x51 f.1
          | none => s1.jobDone r.ctx.val m)
        | none, none => s)

/-- The NMSTAT word (R325 Table 5): the block's 16 most recent runs are those of its queue and then those that have left it. -/
def nmWord (s : State) (c : Core) (seq : Nat) : Nat :=
  if !(((c.q19.reverse.map fun x => x.seq) ++ c.nmseq.map fun e => e.1).take 16).contains seq then 2 ^ 47
  else if c.q19.any fun x => x.seq == seq then 0
  else
    match (c.nmseq.find? fun e => e.1 == seq).bind fun e => (mget s.runs e.2).map fun r => (e.2, r) with
    | none => 2 ^ 47
    | some (n, r) =>
      let begun := r.units.any fun x => x.done || (mgetD s.unitQ x.unit []).head? == some n
      let st := if r.done then 3 else if r.units.any fun x => x.paused then 2 else if begun then 1 else 0
      let f := nmFirst r
      st * 2 ^ 62 + nmFailMask r * 2 ^ 54 + (f.elim 0 fun x => x.1) * 2 ^ 48 +
        ((r.units.map fun x => x.outs).foldl Nat.min (nmOuts r.desc r.trips)) % 2 ^ 32
def execNmstat (h : Head) (d a : SIx) (s : State) : Out :=
  .next (s.issue1 h fun t => t.setS d (w64 (nmWord t t.me ((t.sr a).toNat % 2 ^ 32))))

end Sys2Proof.Machine
end

