-- ==== Sys2Proof/Machine/Walk.lean ====
section
/-!
DEFINITION. Sys2Proof/Machine/Walk.lean: Teasel coordinate walks (R330 to R335).
-/
namespace Sys2Proof.Machine
open Sys2Proof

/-! ### The parameter block (R331) and issue (R332) -/

def wkSeg (p : List Word) : Nat := bits (wd p 0) 43 38 + 1
def wkNnz (p : List Word) : Nat := bits (wd p 0) 23 0
def wkCoff (p : List Word) : Nat := bits (wd p 1) 63 32
def wkAbuf (p : List Word) : Nat := bits (wd p 2) 63 43
def wkAsl (p : List Word) : Nat := bits (wd p 2) 42 35 + 1
def wkBbuf (p : List Word) : Nat := bits (wd p 2) 34 14
def wkBsl (p : List Word) : Nat := bits (wd p 2) 13 6 + 1
def wkKoff (p : List Word) : Nat := bits (wd p 3) 63 32
def wkKlen (p : List Word) : Nat := bits (wd p 3) 31 16
/-- Granules of a slot (R331). -/
def wkGrans (p : List Word) (t : Word) : Nat := (wkKlen p * (tType t).width + 127) / 128

/-- The kinds and paths Teasel reads (R332). -/
def walkKind (h : Handle) : Option Flt :=
  if hKind h = 1 ∨ (hKind h = 0 ∧ [0, 1, 2, 4].contains (hPath h)) then none else some accPerm

/-- The checks of IXWALK after its block is read (R332). -/
def State.walkFault (s : State) (p : List Word) : Option Flt :=
  let n (hi lo : Nat) : Nat := bits (wd p 0) hi lo
  let hc := s.handleN (n 63 60)
  let ha := s.handleN (n 59 56)
  let hb := s.handleN (n 55 52)
  let ta := s.newT (Fin.ofNat 16 (n 51 48))
  let tb := s.newT (Fin.ofNat 16 (n 47 44))
  let k := hcnt s.res.hdr
  let a := wkAbuf p
  let b := wkBbuf p
  let ae := a + wkAsl p * (16 * wkGrans p ta)
  let be := b + wkBsl p * (16 * wkGrans p ta)
  firstFlt
    [ if n 63 60 < k ∧ n 59 56 < k ∧ n 55 52 < k ∧ n 51 48 < tcnt s.res.hdr ∧ n 47 44 < tcnt s.res.hdr then none
      else some undeclared,
      needs (n 37 24 == 0 && bits (wd p 1) 31 0 == 0 && bits (wd p 2) 5 0 == 0 && bits (wd p 3) 15 0 == 0),
      needs (wkCoff p % 8 == 0 && a % 16 == 0 && b % 16 == 0),
      needs (wkKlen p != 0 && tType ta == tType tb && (tType ta).isX),
      if max ae be ≤ scrbytes s.res.hdr ∧ (ae ≤ b ∨ be ≤ a) then none else some undeclared,
      needs (viewHolds hc (wkCoff p) (8 * wkNnz p)),
      usePerm hc 10 false,
      tensorCheck ha ta 10 false false,
      tensorCheck hb tb 10 false false,
      walkKind hc, walkKind ha, walkKind hb,
      s.leaseFault (handleExts hc ++ handleExts ha ++ handleExts hb) ]

def execIxwalk (h : Head) (a : SIx) (sig : Option (Fin 16)) (s : State) : Out :=
  .next (s.issue h fun t => t.withBlock (t.sr a) 32 fun p =>
    match t.walkFault p with
    | some f => t.fault f (t.sr a).toNat
    | none =>
      let n (hi lo : Nat) : Nat := bits (wd p 0) hi lo
      let hc := t.handleN (n 63 60)
      let ha := t.handleN (n 59 56)
      let hb := t.handleN (n 55 52)
      t.enginePush (decide (16 ≤ t.me.q20.length + b2n t.me.wrun.isSome)) fun u0 =>
        let u := u0.earlyCommit u0.cur
        let m := (u.me.eseq[3] + 1) % 2 ^ 32
        let v := u.engView u.cur u.cur
        let x : WalkCmd := ⟨p, hPlace u hc, hPlace u ha, hPlace u hb, u.newT (Fin.ofNat 16 (n 51 48)),
          u.newT (Fin.ofNat 16 (n 47 44)), sig, m, u.me.ph, handleExts hc ++ handleExts ha ++ handleExts hb, v.1⟩
        (v.2.modMe fun c => { c with eseq := c.eseq.set 3 m, q20 := c.q20 ++ [x] }).countCmd)
def execIxwalkPop (h : Head) (d : SIx) (s : State) : Out :=
  .next (s.issue h fun t => t.popRes d (fun c => c.q21) fun c x => { c with q21 := c.q21.tail, pop21 := c.pop21 ++ [x] })

/-! ### The walk (R333, R334) -/

/-- Entry e of the list: row, column, poisoned. -/
def State.walkEntry (s : State) (k : Nat) (x : WalkCmd) (e : Nat) : (Nat × Nat × Bool) × State :=
  let r := s.placeRead k x.view x.list false (wkCoff x.param + 8 * e) 8
  (((nums32 r.1).getD 0 0, (nums32 r.1).getD 1 0, r.2.1), r.2.2)
/-- Row-major order of coordinates. -/
def coordLt (a b : Nat × Nat × Bool) : Bool := decide (a.1 < b.1 ∨ (a.1 = b.1 ∧ a.2.1 < b.2.1))

/-- Positions that a segment takes: from q on while rows are equal, in order, readable, at most n more. -/
def State.segEnd : Nat → State → Nat → WalkCmd → Nat → Nat → (Nat × Nat × Bool) → Nat × State
  | 0, s, _, _, q, _, _ => (q, s)
  | n + 1, s, k, x, q, hi, prev =>
    if hi ≤ q then (q, s)
    else
      let e := s.walkEntry k x q
      if e.1.2.2 || e.1.1 != prev.1 || coordLt e.1 prev then (q, e.2) else e.2.segEnd n k x (q + 1) hi e.1

/-- Elements of a source row: bytes of columns KOFF up, zeros outside the shape (R194), and whether any is poisoned. -/
def State.walkRow (s : State) (k : Nat) (x : WalkCmd) (p : Place) (t : Word) (i : Nat) : List Byte × Bool × State :=
  let w := (tType t).width / 8
  let n := if tRows t ≤ i then 0 else min (tCols t - wkKoff x.param) (wkKlen x.param)
  let r := if n = 0 then ([], false, s) else s.placeRead k x.view p false (i * tStride t + wkKoff x.param * w) (n * w)
  (r.1 ++ List.replicate ((wkKlen x.param - n) * w) 0, r.2.1, r.2.2)

/-- The next segment of a walk, or its end (R333, R334). -/
def State.walkNext (s : State) (k : Nat) (x : WalkRun) : WalkRun × State :=
  if x.hi ≤ x.p then ({ x with last := some 0 }, s)
  else
    let e := s.walkEntry k x.cmd x.p
    let b := if x.p = 0 then e else e.2.walkEntry k x.cmd (x.p - 1)
    if e.1.2.2 || b.1.2.2 then ({ x with last := some 0x40 }, b.2.logEngine k 5 0x40 5 0 x.p)
    else if x.p ≠ 0 ∧ coordLt e.1 b.1 then ({ x with last := some 0x59 }, b.2.logEngine k 5 0x59 5 0 x.p)
    else
      let q := b.2.segEnd (wkSeg x.cmd.param - 1) k x.cmd (x.p + 1) x.hi e.1
      ({ x with seg := some q.1, gran := 0, bad := false }, q.2)

/-- Granule g of a slot at scratch offset o of a core, under the parities of the command. -/
def State.slotGran (s : State) (k : Nat) (x : WalkCmd) (o g : Nat) : Nat := dblMap (s.core k).res.hdr x.view.par (o + 16 * g) / 16
/-- The slot that granule n of an open segment belongs to: its offset, source, shape and entry position. -/
def WalkRun.slotOf (x : WalkRun) (n : Nat) : Nat × Place × Word × Nat × Bool :=
  let g := wkGrans x.cmd.param x.cmd.ta
  let m := n / max 1 g
  if m = 0 then (wkAbuf x.cmd.param + x.na % wkAsl x.cmd.param * (16 * g), x.cmd.rowP, x.cmd.ta, x.p, true)
  else (wkBbuf x.cmd.param + (x.nb + m - 1) % wkBsl x.cmd.param * (16 * g), x.cmd.colP, x.cmd.tb, x.p + m - 1, false)
/-- Granules of an open segment that ends at q. -/
def WalkRun.total (x : WalkRun) (q : Nat) : Nat := wkGrans x.cmd.param x.cmd.ta * (1 + q - x.p)
/-- Whether the next granule that a walk must write is still full (R335). -/
def State.slotFull (s : State) (k : Nat) (x : WalkRun) : Bool :=
  let t := x.slotOf x.gran
  s.granBusy (.scr k) (s.slotGran k x.cmd t.1 (x.gran % max 1 (wkGrans x.cmd.param x.cmd.ta))) || s.holdFull k

/-- Write the granules of the open segment while each is empty, at most n of them. -/
def State.walkWrite : Nat → State → Nat → WalkRun → Nat → WalkRun × State
  | 0, s, _, x, _ => (x, s)
  | n + 1, s, k, x, q =>
    if x.total q ≤ x.gran || s.slotFull k x then (x, s)
    else
      let t := x.slotOf x.gran
      let g := x.gran % max 1 (wkGrans x.cmd.param x.cmd.ta)
      let e := s.walkEntry k x.cmd t.2.2.2.1
      let r := e.2.walkRow k x.cmd t.2.1 t.2.2.1 (if t.2.2.2.2 then e.1.1 else e.1.2.1)
      let o := s.slotGran k x.cmd t.1 g
      let bs := (r.1.drop (16 * g)).take 16
      let s1 := r.2.2.engGran (r.2.2.engClk x.cmd.view) (.scr k) o (patchGran 0 0 bs) (granMask 0 bs.length) r.2.1
      s1.walkWrite n k { x with gran := x.gran + 1, bad := x.bad || r.2.1 } q

/-- Entries of a segment with a coordinate out of range (R333). -/
def State.walkClips (s : State) (k : Nat) (x : WalkRun) (q : Nat) : Nat :=
  ((upto x.p (q - x.p)).filter fun e =>
    let t := (s.walkEntry k x.cmd e).1
    decide (tRows x.cmd.ta ≤ t.1 ∨ tRows x.cmd.tb ≤ t.2.1)).length

/-- Push a record of the walk into q21. -/
def State.walkPush (s : State) (k : Nat) (x : WalkRun) (w : Nat) : State :=
  s.give k (.elem 21 (w64 w) x.cmd.ph)
/-- The record of a segment and of the end (R334 Table 3). -/
def WalkRun.record (x : WalkRun) (q : Nat) : Nat :=
  0xA1 * 2 ^ 56 + x.p % 2 ^ 24 * 2 ^ 24 + (q - x.p) % 128 * 2 ^ 16 + x.na % wkAsl x.cmd.param * 2 ^ 8 + x.nb % wkBsl x.cmd.param
def WalkRun.endRecord (x : WalkRun) (st : Nat) : Nat :=
  0xA2 * 2 ^ 56 + st * 2 ^ 48 + x.p % 2 ^ 24 * 2 ^ 24 + x.nclip % 2 ^ 16

/-- A segment whose granules are all written: its record, and the walk goes on behind it. -/
def State.walkDeliver (s : State) (k : Nat) (x : WalkRun) (q : Nat) : State :=
  let y : WalkRun := { x with
    p := q
    na := x.na + 1
    nb := x.nb + (q - x.p)
    nclip := min 0xFFFF (x.nclip + s.walkClips k x q)
    seg := none
    gran := 0
    last := if x.bad then some 0x40 else none }
  let s1 := s.walkPush k x (x.record q)
  let s2 := if x.bad then s1.logEngine k 5 0x40 5 0 x.p else s1
  s2.modCore k fun c => { c with wrun := some y }

/-- Put back a running walk. -/
def State.setWalk (s : State) (k : Nat) (x : WalkRun) : State := s.modCore k fun c => { c with wrun := some x }

/-- Whether core k has a walk that its die's Teasel may serve. -/
def State.teaselWork (s : State) (k : Nat) : Bool :=
  s.engineOn k && ((s.core k).wrun.isSome || (s.engineStarts k && !(s.core k).q20.isEmpty))
/-- Whether it is core k's turn: Teasel finishes the segment it has begun, then turns to the next core of its die with a walk
(R335); the first turn is the lowest core's, a DESIGN CHOICE (notes/assumptions/50.md). -/
def State.teaselTurn (s : State) (k : Nat) : Bool :=
  let d := k / 64
  let last := mgetD s.teasel d 63
  if ((s.core (64 * d + last)).wrun.any fun x => x.seg.isSome) then k == 64 * d + last
  else ((upto 1 64).map fun i => 64 * d + (last + i) % 64).find? s.teaselWork == some k
/-- Teasel turns to core k. -/
def State.teaselServe (s : State) (k : Nat) : State := { s with teasel := mset s.teasel (k / 64) (k % 64) }

/-- Teasel serves the head of a core's q20 in its turn: it starts it, opens its next segment, writes granules while they are
empty, delivers a segment, or ends the walk (R333 to R335). -/
def execTeaselSegment (k : Nat) (s : State) : Out :=
  .next (
    if !s.engineOn k || !s.teaselTurn k then s
    else match (s.core k).wrun with
      | none =>
        match (s.core k).q20 with
        | [] => s
        | x :: r =>
          let b := (s.core k).res
          let n := wkNnz x.param
          let y : WalkRun := ⟨x, b.rank * n / b.gsize, (b.rank + 1) * n / b.gsize, 0, 0, 0, none, 0, false, none⟩
          s.modCore k fun c => { c with q20 := r, wrun := some y }
      | some x =>
        let room := decide ((s.core k).qUsed 21 < 32) && !s.holdFull k
        match x.last, x.seg with
        | some st, _ =>
          if !room then s
          else
            let s1 := ((s.walkPush k x (x.endRecord st)).modCore k fun c => ({ c with wrun := none } : Core).wake).teaselServe k
            (match x.cmd.sig with
            | some n => s1.give k (.sem n 1 x.cmd.ph (s.engDone x.cmd.view))
            | none => s1)
        | none, none => let r := s.walkNext k x; (r.2.setWalk k r.1).teaselServe k
        | none, some q =>
          if x.gran < x.total q then
            let r := s.walkWrite (x.total q) k x q
            r.2.setWalk k r.1
          else if !room then s
          else s.walkDeliver k x q)

/-- Whether a running walk waits only on a full granule of its own core's scratch, or on its own full q21 (R350). -/
def State.walkStuck (s : State) (k : Nat) (x : WalkRun) : Bool :=
  let full := decide (32 ≤ (s.core k).qUsed 21)
  match x.last, x.seg with
  | some _, _ => full
  | none, none => false
  | none, some q => if x.gran < x.total q then s.slotFull k x else full

end Sys2Proof.Machine
end

