-- ==== Sys2Proof/Machine/Clock.lean ====
section
/-!
DEFINITION. Sys2Proof/Machine/Clock.lean: what passing time changes: RTIME, CYCLE and the watchdog count (R137, R359, R398);
and which commands count as outstanding (R350).
-/
namespace Sys2Proof.Machine
open Sys2Proof

/-! ### Outstanding commands (R294, R350)

A command held at the head of its queue until its phase ends is none that could unblock a stream: only the core's streams
end the phase (R88, R294). -/

/-- Whether a transfer queue or its running command counts as outstanding: not behind a command that only this core's
streams can set free, nor one whose semaphore, which only this core's streams and commands signal (R281), gives it nothing
now (R277). -/
def State.copyBusy (s : State) (k : Nat) (q : Fin 4) : Bool :=
  let c := s.core k
  match c.crun[q] with
  | some x => if x.waited || x.done || x.cancel then !s.copyStuck k x else !c.semBlocked x.cmd.sems.semw (.copy q)
  | none => c.cq[q].head?.any fun x =>
      !x.held c && (!x.sems.wen || x.silent || x.cancelled || !c.semBlocked x.sems.semw (.copy q))
/-- The same of the matrix engine. -/
def Core.mxBusy (c : Core) : Bool :=
  match c.mx with
  | some m => m.waited || !c.semBlocked m.cmd.sems.semw .matrix
  | none => c.q11.head?.any fun x => !x.sems.wen || !c.semBlocked x.sems.semw .matrix
/-- The same of Teasel's walks. -/
def State.walkBusy (s : State) (k : Nat) : Bool :=
  match (s.core k).wrun with
  | some x => !s.walkStuck k x
  | none => !(s.core k).q20.isEmpty
/-- Whether an engine command or walk of the block counts as outstanding (R350). -/
def State.outstanding (s : State) (k : Nat) : Bool :=
  let c := s.core k
  c.mxBusy || [(0 : Fin 4), 1, 2, 3].any (fun q => s.copyBusy k q) ||
    (match c.prun with
     | some x => !(x.done && decide (32 ≤ c.qUsed 17))
     | none => c.q16.head?.any fun x => c.freed x.ph) ||
    (match c.srun with
     | some x => !(x.rows.isEmpty && decide (64 ≤ c.qUsed 25))
     | none => c.q18.head?.any fun x => c.freed x.ph) ||
    (c.q19.head?.any fun x => c.freed x.ph) || s.walkBusy k || (c.q22.head?.any fun x => c.freed x.ph) ||
    c.sprun.any (fun x => !(x.done && decide (32 ≤ c.qUsed 23))) ||
    s.runs.any fun r => r.2.core == some k && !r.2.done &&
      !((r.2.units.all fun u => u.done) && decide (64 ≤ c.qUsed 25))

/-- A wait that R350 counts. -/
def Blk.counts : Blk → Bool
  | .loose | .align | .engineQ | .q11 | .work | .sem => true
  | .run | .other => false

/-! ### Time (R137, R359, R398) -/

/-- Whether a core's block keeps its context's watchdog counting (R359). -/
def State.watched (s : State) (c : Nat) : Bool :=
  !s.down && !(s.ctx c).halted && s.cores.any fun e =>
    e.2.tfault.isNone && e.2.retr.isEmpty && e.2.mark != .dying && e.2.blk.any fun r => r.ctx.val == c

/-- The whole reference ns and the whole core clocks that end when `ns` reference ns and after them `cc` core clocks have
passed (R398). -/
def State.elapsed (s : State) (ns cc : Nat) : Nat × Nat :=
  let x := ns * s.freq + 1000 * cc
  ((x + s.nsPart) / s.freq, (x + s.ccPart) / 1000)
/-- The starvation count of a core that has been `starving` for cc core clocks (R350, R362). -/
def State.starveCount (s : State) (starving : Nat → Bool) (k : Nat) (c : Core) (cc : Nat) : Nat :=
  if c.blk.any fun r => (s.ctx r.ctx.val).halted then c.starve else if starving k then c.starve + cc else 0
/-- Let `ns` reference nanoseconds and after them `cc` core clocks pass. -/
def State.passTime (s : State) (starving : Nat → Bool) (ns cc : Nat) : State :=
  if ns = 0 ∧ cc = 0 then s
  else
    let d := s.elapsed ns cc
    { s with
      rtime := s.rtime + d.1
      nsPart := (ns * s.freq + 1000 * cc + s.nsPart) % s.freq
      ccPart := (ns * s.freq + 1000 * cc + s.ccPart) % 1000
      cores := s.cores.map fun e =>
        (e.1, { e.2 with cycle := e.2.cycle + d.2, starve := s.starveCount starving e.1 e.2 d.2 })
      ctxs := s.ctxs.map fun e => (e.1, if s.watched e.1 then { e.2 with wdcnt := e.2.wdcnt + d.1 } else e.2) }

end Sys2Proof.Machine
end

