-- ==== Sys2Proof/Machine/Exchange.lean ====
section
/-!
DEFINITION. Sys2Proof/Machine/Exchange.lean: Speedwell's forms, its packets and its completions (R336 to R345).
-/
namespace Sys2Proof.Machine
open Sys2Proof

/-! ### Parameter blocks and checks (R339 to R343) -/

def spGroup (p : List Word) : Nat := bits (wd p 0) 63 58
def spN (p : List Word) : Nat := bits (wd p 0) 23 0
/-- The group that a block names. -/
def Ctx.spGrp (t : Ctx) (p : List Word) : Option Group := mget t.groups (spGroup p)
/-- n rounded up to a multiple of 4 (R340). -/
def up4 (n : Nat) : Nat := (n + 3) / 4 * 4
def xrTy (p : List Word) : Ty := (Ty.ofCode (bits (wd p 0) 49 45)).getD .i4

/-- Handle fields of a form: bits, whether Speedwell writes it, first offset and bytes (R340 to R343). -/
def spRoles (form : Nat) (p : List Word) (g : Group) : List (Nat × Bool × Nat × Nat) :=
  let h (hi : Nat) : Nat := bits (wd p 0) hi (hi - 3)
  let up (n : Nat) : Nat := bits (wd p n) 63 32
  let lo (n : Nat) : Nat := bits (wd p n) 31 0
  match form with
  | 0 =>
    [ (h 57, false, up 1, 4 * spN p), (h 53, true, up 2, 4 * up4 g.nrank + 4 * g.bcap * g.nrank),
      (h 49, true, lo 2, 4 * spN p) ] ++
      (if bit (wd p 0) 41 then [] else [(h 45, false, lo 1, 4 * (g.nrank + 1))])
  | 1 =>
    [ (h 57, false, 0, 0), (h 53, true, lo 1, if spN p = 0 then 0 else (spN p - 1) * bits (wd p 2) 31 16 + bits (wd p 2) 15 0),
      (h 49, false, up 2, 4 * spN p), (h 45, false, up 3, 4 * g.nrank) ]
  | 2 => [ (h 57, false, up 1, spN p * ((xrTy p).width / 8)), (h 53, true, lo 1, spN p * ((xrTy p).width / 8)) ]
  | _ => [ (h 57, false, up 1, spN p) ]

/-- Reserved fields, alignments and ranges of a form (R340 to R343).  Bits of the parameter blocks of A2A.VEC, XRED and XPUT that
R341 to R343 neither name nor call reserved must be zero as the reserved ones of R340: a DESIGN CHOICE
(notes/assumptions/71.md). -/
def spFields (form : Nat) (p : List Word) (g : Group) : Bool :=
  let up (n : Nat) : Nat := bits (wd p n) 63 32
  let lo (n : Nat) : Nat := bits (wd p n) 31 0
  let zero (n : Nat) : Bool := (upto n (8 - n)).all fun i => wd p i == 0
  match form with
  | 0 => bits (wd p 0) 40 24 == 0 && zero 3 && up 1 % 4 == 0 && lo 1 % 4 == 0 && up 2 % 4 == 0 && lo 2 % 4 == 0
  | 1 =>
    let vstr := bits (wd p 2) 31 16
    let vlen := bits (wd p 2) 15 0
    bits (wd p 0) 41 24 == 0 && lo 3 == 0 && zero 4 && up 3 % 16 == 0 && vstr % 16 == 0 && vlen % 16 == 0 &&
      decide (16 ≤ vstr ∧ vstr ≤ 8192 ∧ 16 ≤ vlen ∧ vlen ≤ vstr)
  | 2 =>
    let ty := xrTy p
    bits (wd p 0) 44 24 == 0 && zero 2 && (ty == .f32 || ty == .bf16 || ty == .i32 || ty == .i64) &&
      decide (spN p * (ty.width / 8) ≤ 2 ^ 24)
  | _ =>
    bits (wd p 0) 34 24 == 0 && lo 1 == 0 && zero 5 && spN p % 16 == 0 && wd p 3 % 8 == 0 &&
      decide (bits (wd p 0) 53 44 < g.nrank)

/-- The checks of a Speedwell form after its block is read (R339). -/
def State.spFault (s : State) (form : Nat) (p : List Word) : Option Flt :=
  match (s.ctx s.cx).spGrp p with
  | none => some accBounds
  | some g =>
    let rs := spRoles form p g
    firstFlt
      ([ if rs.all fun r => decide (r.1 < hcnt s.res.hdr) then none else some undeclared, needs (spFields form p g) ] ++
       (rs.map fun r => needs (viewHolds (s.handleN r.1) r.2.2.1 r.2.2.2)) ++
       (rs.map fun r => usePerm (s.handleN r.1) 11 r.2.1) ++
       [s.leaseFault (rs.flatMap fun r => handleExts (s.handleN r.1))])

/-- A form that places a record in q22 (R339). -/
def State.spForm (s : State) (form sub : Nat) (a : SIx) (sig : Option (Fin 16)) : Res :=
  s.withBlock (s.sr a) 64 fun p =>
    match s.spFault form p with
    | some f => s.fault f (s.sr a).toNat
    | none => s.enginePush (decide (16 ≤ s.me.q22.length)) fun t =>
      let n := (t.me.eseq[4] + 1) % 2 ^ 32
      let g := ((t.ctx t.cx).spGrp p).getD ⟨1, 0, [], 0, 0, 0, 0, 0⟩
      let hs := (spRoles form p g).map fun r => t.handleN r.1
      let v := t.engView t.cur t.cur
      (v.2.modMe fun c => { c with
        eseq := c.eseq.set 4 n
        q22 := c.q22 ++ [⟨form, sub, p, hs.map (hPlace t), sig, n, c.ph, hs.flatMap handleExts, v.1⟩] }).countCmd
def execA2aIdx (h : Head) (a : SIx) (sig : Option (Fin 16)) (s : State) : Out := .next (s.issue h fun t => t.spForm 0 0 a sig)
def execA2aVec (h : Head) (a : SIx) (sig : Option (Fin 16)) (s : State) : Out := .next (s.issue h fun t => t.spForm 1 0 a sig)
def execXredSum (h : Head) (a : SIx) (sig : Option (Fin 16)) (s : State) : Out := .next (s.issue h fun t => t.spForm 2 0 a sig)
def execXredMin (h : Head) (a : SIx) (sig : Option (Fin 16)) (s : State) : Out := .next (s.issue h fun t => t.spForm 2 1 a sig)
def execXredMax (h : Head) (a : SIx) (sig : Option (Fin 16)) (s : State) : Out := .next (s.issue h fun t => t.spForm 2 2 a sig)
def execXput (h : Head) (a : SIx) (sig : Option (Fin 16)) (s : State) : Out := .next (s.issue h fun t => t.spForm 3 0 a sig)
def execA2aPop (h : Head) (d : SIx) (s : State) : Out :=
  .next (s.issue h fun t => t.popRes d (fun c => c.q23) fun c x =>
    { c.acquire 22 (bits x.1.toNat 31 16) with q23 := c.q23.tail, pop23 := c.pop23 ++ [x] })

/-- XABORT (R344): the phase commits early, and the group's attempt number rises. -/
def execXabort (h : Head) (a : SIx) (s : State) : Out :=
  .next (s.issue h fun t =>
    let g := (t.sr a).toNat % 64
    if (mget (t.ctx t.cx).groups g).isNone then t.fault accBounds (t.sr a).toNat
    else t.enginePush false fun u => (u.earlyCommit u.cur).abortGroup u.cx g)

/-! ### A running command (R336, R344, R345) -/

/-- The running command of core k with sequence number `seq`. -/
def State.spRun (s : State) (k seq : Nat) : Option SpRun := (s.core k).sprun.find? fun x => x.cmd.seq == seq
/-- Change it. -/
def State.modSp (s : State) (k seq : Nat) (f : SpRun → SpRun) : State :=
  s.modCore k fun c => { c with sprun := c.sprun.map fun x => if x.cmd.seq = seq then f x else x }
/-- Its packets that no peer has acknowledged yet, by rank. -/
def State.spUnacked (s : State) (k seq : Nat) : List Nat :=
  s.tx.filterMap fun e => if e.2.own = some (k, seq) then some e.2.rank else none
/-- A running command completes with a status; its packets are withdrawn, and with a status other than zero its writes. -/
def State.spEnd (s : State) (k seq st info : Nat) (mism refused : Bool) : State :=
  let t := s.modSp k seq fun x =>
    { x with status := st, info := info, mism := mism, refused := refused, done := true, outq := if st = 0 then x.outq else [] }
  { t with tx := t.tx.filter fun e => e.2.own != some (k, seq) }
/-- What a packet says of a command's kind (R345). -/
def SpCmd.kind (x : SpCmd) : Nat := if x.form = 2 then 2 + x.sub else x.form
/-- The element count that the ranks must agree on (R345): an all-reduce's. -/
def SpCmd.nel (x : SpCmd) : Nat := if x.form = 2 then spN x.param else 0
/-- A message cut into packets of 4,096 bytes, at least one (R336). -/
def chunks (bs : List Byte) : List (List Byte) :=
  (upto 0 (max 1 ((bs.length + 4095) / 4096))).map fun i => (bs.drop (4096 * i)).take 4096
/-- Send a message of a running command to a rank; one for an unreachable device fails the command at once (R338). -/
def State.spSend (s : State) (k : Nat) (x : SpRun) (g : Group) (rank : Nat) (bs : List Byte) (b : List Byte → PacketBody) : State :=
  let dev := g.devs.getD rank 0
  if (s.spRun k x.cmd.seq).all fun y => y.done then s
  else if !s.reachable dev then s.spEnd k x.cmd.seq 0x57 rank false false
  else
    let cs := chunks bs
    let cseq := if x.cmd.form = 3 then s.nextTx else x.cseq
    (cs.zip (upto 0 cs.length)).foldl
      (fun (t : State) c => t.sendTx (some (k, x.cmd.seq)) rank dev ⟨0, x.ctx, x.grp, x.att, cseq, g.rank, 0, c.2, cs.length, b c.1⟩) s
/-- A packet that answers one received: an acknowledgement. -/
def State.spReply (s : State) (g : Group) (p : Packet) (b : PacketBody) : State :=
  s.toPort (g.devs.getD p.src 0) { p with src := g.rank, body := b }
/-- Messages to every other rank, in ascending order. -/
def State.spAll (s : State) (k : Nat) (x : SpRun) (g : Group) (bs : Nat → List Byte) : State :=
  (upto 0 g.nrank).foldl
    (fun (t : State) d => if d = g.rank then t else t.spSend k x g d (bs d) (.part x.cmd.kind x.cmd.nel)) s

/-! ### Writes of Speedwell (R181, R186, R301, R303) -/

/-- A write as pieces inside one granule each. -/
def piecesOf (p : Place) (off : Nat) (bs : List Byte) : List (Place × Nat × List Byte) :=
  (granPieces (p.addr + off) bs.length).map fun q => (p, q.1, (bs.drop (q.1 - p.addr - off)).take q.2)
/-- Whether a piece must wait: for a row whose way is pinned (R303), a q25 that is full (R186), a halted core's holding
buffer (R360). -/
def State.pieceWaits (s : State) (c : Fin 8) (k : Nat) (w : Place × Nat × List Byte) : Bool :=
  match w.1.kind with
  | .mem => s.rowsPinned [w.2.1]
  | .window =>
    let r := w.2.1 - onChipBase
    let j := r / 2 ^ 23
    s.meet c j == .block && (s.holdFull j ||
      (r % 2 ^ 23 == 0x280000 && w.2.2.length == 16 && decide (64 ≤ (s.core j).qUsed 25)))
  | .local => s.holdFull k
  | .elastic => false
/-- Its fault (R186, R358). -/
def State.pieceFault (s : State) (c : Fin 8) (w : Place × Nat × List Byte) : Option Flt :=
  s.windowFault c w.1 (w.2.1 - w.1.addr) w.2.2.length
/-- Perform the pending writes of a running command, at most n pieces, in their order, while none must wait: a row that the
command itself keeps pinned loses that pin first. -/
def State.spDrain : Nat → State → Nat → Nat → State
  | 0, s, _, _ => s
  | n + 1, s, k, seq =>
    match s.spRun k seq with
    | none => s
    | some x =>
      match x.outq with
      | [] => s
      | w :: r =>
        match s.pieceFault x.ctx w with
        | some f => s.fatalAgent k 6 f.1 f.2 w.2.1
        | none =>
          let mine := if w.1.kind = .mem then (s.waysAt w.2.1).filterMap fun y => if x.pins.contains y.1 then some y.1 else none else []
          let s1 := ((s.unpinWays mine).rowRelease).modSp k seq fun y => { y with pins := y.pins.filter fun p => !mine.contains p }
          if s1.pieceWaits x.ctx k w then (if w.1.kind = .mem then s1.clearRows [w.2.1] else s1)
          else ((s1.placeOut k x.cmd.view w.1 (w.2.1 - w.1.addr) w.2.2).modSp k seq fun y => { y with outq := r }).spDrain n k seq
/-- A write of a running command: it stands in line behind the command's earlier ones. -/
def State.spOut (s : State) (k seq : Nat) (p : Place) (off : Nat) (bs : List Byte) : State :=
  let t := s.modSp k seq fun x => { x with outq := x.outq ++ piecesOf p off bs }
  t.spDrain ((t.spRun k seq).elim 0 fun x => x.outq.length) k seq

/-- Read a source of a command; the hot ways that hold rows of it are pinned while the transfer lasts (R301). -/
def State.spSource (s : State) (k : Nat) (x : SpCmd) (n off len : Nat) : List Byte × Bool × State :=
  let p := x.bases.getD n Place.none
  let r := s.placeRead k x.view p false off len
  let held := (r.2.2.spRun k x.seq).elim [] fun y => y.pins
  let ws := ((r.2.2.waysOf (p.bytes off len)).filterMap fun w =>
    if w.2.ctx = (s.core k).res.ctx ∧ w.2.valid ∧ !held.contains w.1 then some w.1 else none).dedup
  (r.1, r.2.1, (r.2.2.pinWays ws).modSp k x.seq fun y => { y with pins := y.pins ++ ws })

/-! ### Collectives (R340 to R342) -/

/-- The rank that takes an index (R340); none: a miss. -/
def idxRank (hash : Bool) (n : Nat) (l : List Nat) (x : Nat) : Option Nat :=
  if hash then some (bits (x * 0x9E3779B1 % 2 ^ 32) 31 16 % n)
  else (upto 0 n).find? fun k => decide (l.getD k 0 ≤ x ∧ x < l.getD (k + 1) 0)
/-- Buckets by rank, the permutation, and the misses (R340). -/
def bucketing (hash : Bool) (n bcap : Nat) (l xs : List Nat) : Map (List Nat) × List Nat × Nat :=
  xs.foldl
    (fun (a : Map (List Nat) × List Nat × Nat) x =>
      match idxRank hash n l x with
      | none => (a.1, a.2.1 ++ [0xFFFFFFFF], a.2.2 + 1)
      | some d =>
        let b := mgetD a.1 d []
        if bcap ≤ b.length then (a.1, a.2.1 ++ [0xFFFFFFFF], a.2.2 + 1)
        else (mset a.1 d (b ++ [x]), a.2.1 ++ [d * bcap + b.length], a.2.2)) ([], [], 0)

def SpCmd.base (x : SpCmd) (n : Nat) : Place := x.bases.getD n Place.none
def bytes32 (xs : List Nat) : List Byte := xs.flatMap fun n => toBytes 4 n
/-- A part is here. -/
def State.gotPart (s : State) (k seq src : Nat) (bs : List Byte) : State :=
  s.modSp k seq fun y => { y with parts := mset y.parts src bs }

/-- The part of rank `src` of an index exchange (R340): the count, then the indices. -/
def State.takeIdx (s : State) (k : Nat) (x : SpRun) (g : Group) (src : Nat) (bs : List Byte) : State :=
  let o := bits (wd x.cmd.param 2) 63 32
  let s1 := s.spOut k x.cmd.seq (x.cmd.base 1) (o + 4 * src) (toBytes 4 (bs.length / 4))
  (s1.spOut k x.cmd.seq (x.cmd.base 1) (o + 4 * up4 g.nrank + 4 * g.bcap * src) bs).gotPart k x.cmd.seq src []
/-- The vectors that rank `src` returns, to the positions whose permutation names them (R341). -/
def State.takeVecs (s : State) (k : Nat) (x : SpRun) (g : Group) (src : Nat) (bs : List Byte) : State :=
  let p := x.cmd.param
  let vlen := bits (wd p 2) 15 0
  let perm := ((s.spRun k x.cmd.seq).elim x.perm fun y => y.perm)
  let s1 := (perm.zip (upto 0 (spN p))).foldl
    (fun (t : State) e =>
      let i := e.1 - g.bcap * src
      if g.bcap * src ≤ e.1 ∧ e.1 < g.bcap * (src + 1) ∧ (i + 1) * vlen ≤ bs.length then
        t.spOut k x.cmd.seq (x.cmd.base 1) (bits (wd p 1) 31 0 + e.2 * bits (wd p 2) 31 16) ((bs.drop (i * vlen)).take vlen)
      else t) s
  s1.gotPart k x.cmd.seq src []

/-- One element of an all-reduce (R342): the parts' encodings in rank order. -/
def xrFold (sub : Nat) (ty : Ty) (xs : List Nat) : Nat :=
  let wide (n : Nat) : Nat := if ty = .bf16 then r32 (fvalue .bf16 n) else n
  let op (a b : Nat) : Nat :=
    if ty = .f32 ∨ ty = .bf16 then
      (if sub = 0 then r32 ((v32 a).add (v32 b) .rne).1 else (minMaxF .f32 (sub == 2) a b).1)
    else if sub = 0 then (a + b) % 2 ^ ty.width
    else (minMax ty (sub == 2) a b).1
  match xs with
  | [] => 0
  | x :: r =>
    let v := r.foldl (fun a b => op a (wide b)) (wide x)
    if ty = .bf16 then (roundTo .bf16 (v32 v) .rne false).1 else v
/-- The result of an all-reduce whose parts are all here (R342). -/
def State.reduceOut (s : State) (k : Nat) (x : SpRun) : State :=
  let ty := xrTy x.cmd.param
  let w := ty.width / 8
  let els := (upto 0 (spN x.cmd.param)).map fun e =>
    xrFold x.cmd.sub ty (x.parts.map fun q => ofBytes ((q.2.drop (w * e)).take w))
  s.spOut k x.cmd.seq (x.cmd.base 1) (bits (wd x.cmd.param 1) 31 0) (els.flatMap fun n => toBytes w n)
/-- The part of rank `src` of an all-reduce. -/
def State.takeRed (s : State) (k : Nat) (x : SpRun) (g : Group) (src : Nat) (bs : List Byte) : State :=
  let y : SpRun := { x with parts := mset x.parts src bs }
  let t := s.gotPart k x.cmd.seq src bs
  if x.parts.length < g.nrank ∧ y.parts.length = g.nrank then t.reduceOut k y else t
/-- A whole part. -/
def State.takeMsg (s : State) (k : Nat) (x : SpRun) (g : Group) (src : Nat) (bs : List Byte) : State :=
  match x.cmd.form with
  | 0 => s.takeIdx k x g src bs
  | 1 => s.takeVecs k x g src bs
  | _ => s.takeRed k x g src bs
/-- Whether a part's bytes are what the command expects. -/
def SpRun.fits (x : SpRun) (g : Group) (bs : List Byte) : Bool :=
  match x.cmd.form with
  | 0 => bs.length % 4 == 0 && decide (bs.length ≤ 4 * g.bcap)
  | 1 => bs.length % max 1 (bits (wd x.cmd.param 2) 15 0) == 0
  | _ => bs.length == spN x.cmd.param * ((xrTy x.cmd.param).width / 8)

/-- A collective whose parts and acknowledgements are all here is done (R345). -/
def State.spCheck (s : State) (k seq : Nat) (g : Group) : State :=
  if (s.spUnacked k seq).isEmpty then
    s.modSp k seq fun x => if !x.done && decide (x.cmd.form < 3 ∧ g.nrank ≤ x.parts.length) then { x with done := true } else x
  else s

/-! ### Inbound packets (R336, R343 to R345) -/

/-- The running collective of a group under an attempt and sequence number: its core and record. -/
def State.findSp (s : State) (c : Fin 8) (g : Fin 64) (att : BitVec 16) (cseq : Nat) : Option (Nat × SpRun) :=
  s.cores.findSome? fun e => (e.2.sprun.find? fun x =>
    x.ctx == c && x.grp == g && x.att == att && x.cseq == cseq && decide (x.cmd.form < 3) && !x.done).map fun x => (e.1, x)
/-- Hold a packet until its collective begins here, or until what it waits for. -/
def State.holdRx (s : State) (p : Packet) : State := { s with rxhold := s.rxhold ++ [p] }
/-- A packet dropped at ingress is counted at its port. -/
def State.portDropped (s : State) (p : Fin 8) : State :=
  { s with portDrop := mset s.portDrop p.val (mgetD s.portDrop p.val 0 + 1) }
/-- Whether a port's holding buffer of 4 MiB has room for a packet of a halted context (R360), by payload bytes
(notes/assumptions/35.md). -/
def State.portRoom (s : State) (p : Packet) : Bool :=
  let held := (s.rxhold.filter fun q => q.port == p.port && (s.ctx q.ctx.val).halted).map fun q => q.body.payload
  decide (held.sum + p.body.payload ≤ 2 ^ 22)

/-- The place of an extent's bytes. -/
def extPlace (x : Extent) : Place := ⟨if xTier x = 4 then .window else .mem, 0, 0, xBase x, 2 ^ xLog x⟩
/-- The extent behind an inbound buffer that takes a one-sided write; none: it is refused (R343). -/
def Ctx.putExt (t : Ctx) (buf off len : Nat) (flag : Option (Nat × Word)) : Option Extent :=
  (mget t.bufs buf).bind fun n =>
    let x := t.ext n
    if !xValid x || decide (2 ^ xLog x < off + len) || flag.any fun f => decide (2 ^ xLog x < f.1 + 8) then none else some x
/-- The permission of an inbound write, checked at the access: the buffer's extent may have been replaced since its
registration (R169, R170). -/
def putPerm (x : Extent) : Option Flt := if !xRo x && permOk (xPerm x) 11 true then none else some accPerm
/-- The flag's write. -/
def flagPieces (p : Place) (flag : Option (Nat × Word)) : List (Place × Nat × List Byte) :=
  flag.elim [] fun f => piecesOf p f.1 (toBytes 8 f.2.toNat)

/-- Perform one piece of a peer's write, after what `v` holds (R343); answers what follows it holds. -/
def State.rxPiece (s : State) (c : Fin 8) (v : View) (w : Place × Nat × List Byte) : View × State :=
  if w.1.kind = .mem then
    let g := s.newAgent peerClass
    let t := g.2.memWrite g.1 v (cellsAt w.2.1 w.2.2)
    (View.put [] g.1 t.wseq, t)
  else
    let r := w.2.1 - onChipBase
    ([], if s.meet c (r / 2 ^ 23) = .block then s.writeWin v (r / 2 ^ 23) (r % 2 ^ 23) true w.2.2 else s)
/-- Perform pieces in any order; answers what all of them hold. -/
def State.rxPieces (s : State) (c : Fin 8) (v : View) (ws : List (Place × Nat × List Byte)) : View × State :=
  ws.foldl (fun a w => let r := a.2.rxPiece c v w; (a.1.join r.1, r.2)) ([], s)
/-- What arrived of a message of a peer. -/
def State.rxPut (s : State) (p : Packet) : RxPut :=
  (s.rxPuts.find? fun e => e.ctx == p.ctx && e.grp == p.grp && e.src == p.src && e.cseq == p.cseq).getD
    ⟨p.ctx, p.grp, p.src, p.cseq, [], []⟩
def State.setRxPut (s : State) (e : RxPut) : State :=
  { s with rxPuts := e :: s.rxPuts.filter fun x => !(x.ctx == e.ctx && x.grp == e.grp && x.src == e.src && x.cseq == e.cseq) }

/-- A packet of a one-sided write (R343): refused, performed already, held while a row is pinned or a q25 full, or performed,
the flag once every data granule is. -/
def State.takePut (s : State) (g : Group) (p : Packet) (buf off len : Nat) (data : List Byte) (flag : Option (Nat × Word)) : State :=
  let c := p.ctx
  match (s.ctx c.val).putExt buf off len flag with
  | none => s.spReply g p (.putAck true)
  | some x =>
    let e := s.rxPut p
    let pl := extPlace x
    let ws := piecesOf pl (off + 4096 * p.frag) data
    let fs := if p.frags ≤ e.got.length + 1 then flagPieces pl flag else []
    if e.got.contains p.frag then s.spReply g p (.putAck false)
    else
      match (ws ++ fs).findSome? fun w => ((putPerm x).orElse fun _ => s.pieceFault c w).map fun f => (f, w.2.1) with
      | some f =>
        let j := if pl.kind = .window then (f.2 - onChipBase) / 2 ^ 23 else 0
        s.contextStopBy c.val none f.1.1 ⟨f.1.1, f.1.2, 3, j, 0, 6, 0, 0, 0, 0, f.2⟩
      | none =>
        if (ws ++ fs).any (s.pieceWaits c 0) then
          (s.clearRows ((ws ++ fs).filterMap fun w => if w.1.kind = .mem then some w.2.1 else none)).holdRx p
        else
          let r := s.rxPieces c [] ws
          let y : RxPut := { e with got := p.frag :: e.got, view := e.view.join r.1 }
          ((r.2.rxPieces c y.view fs).2.setRxPut y).spReply g p (.putAck false)

/-- Whether attempt a is newer than b in serial comparison. -/
def newerAtt (a b : BitVec 16) : Bool := a != b && decide ((a - b).toNat < 2 ^ 15)

/-- The packets of rank `src`'s part that are here, joined in order once all are. -/
def SpRun.whole (x : SpRun) (src frags : Nat) : Option (List Byte) :=
  let ps := x.frs.filter fun e => e.1 / 2 ^ 32 == src
  if ps.length = frags then some (ps.flatMap fun e => e.2) else none
/-- A packet of a collective that runs here (R340 to R345). -/
def State.takePart (s : State) (k : Nat) (x : SpRun) (g : Group) (p : Packet) : State :=
  let fail (t : State) : State := t.spEnd k x.cmd.seq 0x57 p.src true false
  match p.body with
  | .part kind nel bs =>
    let t := s.spReply g p .ack
    let key := 2 ^ 32 * p.src + p.frag
    if kind ≠ x.cmd.kind ∨ nel ≠ x.cmd.nel then fail t
    else if (mget x.parts p.src).isSome || (mget x.frs key).isSome then t
    else
      let y : SpRun := { x with frs := mset x.frs key bs }
      let u := t.modSp k x.cmd.seq fun z => { z with frs := y.frs }
      match y.whole p.src p.frags with
      | none => u
      | some m => if y.fits g m then (u.takeMsg k y g p.src m).spCheck k x.cmd.seq g else fail u
  | .mismatch => fail s
  | _ => s

/-- An acknowledgement (R336, R345): the packet is withdrawn; a one-sided write completes with its last one. -/
def State.takeAck (s : State) (g : Group) (p : Packet) (refused : Bool) : State :=
  match (mget s.tx p.id).filter fun e => e.pkt.ctx == p.ctx && e.pkt.grp == p.grp && e.rank == p.src with
  | none => s
  | some e =>
    let t : State := { s with tx := mdel s.tx p.id }
    match e.own with
    | none => t
    | some o =>
      if refused then t.spEnd o.1 o.2 0x57 e.rank false true
      else if ((t.spRun o.1 o.2).any fun x => x.cmd.form == 3) && (t.spUnacked o.1 o.2).isEmpty then t.spEnd o.1 o.2 0 0 false false
      else t.spCheck o.1 o.2 g

/-- A packet reaches Speedwell (R336, R343, R344, R360). -/
def State.receive (s : State) (p : Packet) : State :=
  let t := s.ctx p.ctx.val
  match mget t.groups p.grp.val with
  | none => s.portDropped p.port
  | some g =>
    if t.stopped then s.portDropped p.port
    else if t.halted then (if s.portRoom p then s.holdRx p else s)
    else match p.body with
      | .unsupported => s.portDropped p.port
      | .put buf off len data flag => s.takePut g p buf off len data flag
      | .putAck refused => s.takeAck g p refused
      | .ack => s.takeAck g p false
      | .token =>
        let u := if newerAtt p.att g.att then s.adoptAtt p.ctx.val p.grp.val p.att else s
        if p.src = g.rank then u else u.spReply g p .ack
      | _ =>
        if newerAtt g.att p.att then s.modCtx p.ctx.val fun t => { t with groups := mset t.groups p.grp.val { g with drops := g.drops + 1 } }
        else
          let s1 := if p.att = g.att then s else s.adoptAtt p.ctx.val p.grp.val p.att
          let h := (mget (s1.ctx p.ctx.val).groups p.grp.val).getD g
          match s1.findSp p.ctx p.grp p.att p.cseq with
          | some e => s1.takePart e.1 e.2 h p
          | none =>
            if h.cseq ≤ p.cseq then s1.holdRx p
            else match p.body with
              | .mismatch => s1
              | _ => s1.spReply h p .ack

/-- Deliver the packets held that a test selects, in their order. -/
def State.redeliver (s : State) (sel : Packet → Bool) : State :=
  let ps := s.rxhold.filter sel
  ps.foldl (fun (t : State) p => t.receive p) { s with rxhold := s.rxhold.filter fun p => !sel p }
/-- One-sided writes that wait try again. -/
def State.retryPuts (s : State) : State :=
  if s.rxhold.isEmpty then s
  else s.redeliver fun p => (match p.body with
    | .put .. => true
    | _ => false) && !(s.ctx p.ctx.val).halted

/-- A packet arrives, by a port in service (R336); a feature outside Table 5 is dropped before anything else. -/
def execInboundPacket (p : Packet) (s : State) : Out :=
  .next (
    if s.down || !s.booted || !s.portsUp.contains p.port.val then s
    else if p.body = .unsupported then s.portDropped p.port
    else s.receive p)

/-- An abort token (R344); the event names no sender, so nothing answers it. -/
def execAbortToken (g : Fin 64) (c : Fin 8) (att : BitVec 16) (s : State) : Out :=
  .next (
    if s.down || !s.booted then s
    else match mget (s.ctx c.val).groups g.val with
      | none => s
      | some x => if (s.ctx c.val).stopped then s else s.receive ⟨0, c, g, att, 0, x.rank, 0, 0, 1, .token⟩)

/-! ### Commands (R339 to R345) -/

/-- An index exchange starts: the permutation is written, the buckets go out, and this rank's own is taken (R340). -/
def State.startIdx (s : State) (k : Nat) (x : SpRun) (g : Group) : State :=
  let p := x.cmd.param
  let hash := bit (wd p 0) 41
  let a := s.spSource k x.cmd 0 (bits (wd p 1) 63 32) (4 * spN p)
  let l := if hash then ([], false, a.2.2) else a.2.2.spSource k x.cmd 3 (bits (wd p 1) 31 0) (4 * (g.nrank + 1))
  if a.2.1 || l.2.1 then l.2.2.spEnd k x.cmd.seq 0x40 0 false false
  else
    let b := bucketing hash g.nrank g.bcap (nums32 l.1) (nums32 a.1)
    let s1 := l.2.2.spOut k x.cmd.seq (x.cmd.base 2) (bits (wd p 2) 31 0) (bytes32 b.2.1)
    let s2 := s1.modSp k x.cmd.seq fun y =>
      if b.2.2 = 0 then y else { y with status := 0x58, info := min b.2.2 0x3FFF }
    (s2.takeIdx k x g g.rank (bytes32 (mgetD b.1 g.rank []))).spAll k x g fun d => bytes32 (mgetD b.1 d [])

/-- The vectors for one rank: their bytes in order, whether any is uncorrectable. -/
def State.vecsFor (s : State) (k : Nat) (x : SpRun) (off : Nat → Nat) (n vlen : Nat) : List Byte × Bool × State :=
  (upto 0 n).foldl
    (fun (a : List Byte × Bool × State) i =>
      let r := a.2.2.spSource k x.cmd 0 (off i) vlen
      (a.1 ++ r.1, a.2.1 || r.2.1, r.2.2)) ([], false, s)

/-- A vector return starts: positions without a rank are zeroed, and every source rank is sent its vectors (R341). -/
def State.startVec (s : State) (k : Nat) (x : SpRun) (g : Group) : State :=
  let p := x.cmd.param
  let vlen := bits (wd p 2) 15 0
  let vstr := bits (wd p 2) 31 16
  let cn := s.spSource k x.cmd 3 (bits (wd p 3) 63 32) (4 * g.nrank)
  let counts := nums32 cn.1
  let perm := cn.2.2.spSource k x.cmd 2 (bits (wd p 2) 63 32) (4 * spN p)
  let off (src i : Nat) : Nat := bits (wd p 1) 63 32 + (g.bcap * src + i) * vstr
  let beyond := (upto 0 g.nrank).any fun d =>
    counts.getD d 0 != 0 && decide ((x.cmd.base 0).len < off d (counts.getD d 0 - 1) + vlen)
  if beyond then perm.2.2.fatalAgent k 6 accBounds.1 accBounds.2 (x.cmd.base 0).addr
  else
    let vs := (upto 0 g.nrank).foldl
      (fun (a : List (List Byte) × Bool × State) d =>
        let r := a.2.2.vecsFor k x (off d) (counts.getD d 0) vlen
        (a.1 ++ [r.1], a.2.1 || r.2.1, r.2.2)) ([], false, perm.2.2)
    if cn.2.1 || perm.2.1 || vs.2.1 then vs.2.2.spEnd k x.cmd.seq 0x40 0 false false
    else
      let s0 := vs.2.2.modSp k x.cmd.seq fun y => { y with perm := nums32 perm.1 }
      let s1 := ((nums32 perm.1).zip (upto 0 (spN p))).foldl
        (fun (t : State) e =>
          if e.1 = 0xFFFFFFFF then t.spOut k x.cmd.seq (x.cmd.base 1) (bits (wd p 1) 31 0 + e.2 * vstr) (List.replicate vlen 0) else t) s0
      (s1.takeVecs k x g g.rank (vs.1.getD g.rank [])).spAll k x g fun d => vs.1.getD d []

/-- An all-reduce starts (R342). -/
def State.startRed (s : State) (k : Nat) (x : SpRun) (g : Group) : State :=
  let a := s.spSource k x.cmd 0 (bits (wd x.cmd.param 1) 63 32) (spN x.cmd.param * ((xrTy x.cmd.param).width / 8))
  if a.2.1 then a.2.2.spEnd k x.cmd.seq 0x40 0 false false
  else (a.2.2.takeRed k x g g.rank a.1).spAll k x g fun _ => a.1

/-- A one-sided write starts; one to this rank itself is performed here, data then flag (R343). -/
def State.startPut (s : State) (k : Nat) (x : SpRun) (g : Group) : State :=
  let p := x.cmd.param
  let a := s.spSource k x.cmd 0 (bits (wd p 1) 63 32) (spN p)
  let peer := bits (wd p 0) 53 44
  let buf := bits (wd p 0) 43 36
  let flag : Option (Nat × Word) := if bit (wd p 0) 35 then some (wd p 3, p.getD 4 0) else none
  if a.2.1 then a.2.2.spEnd k x.cmd.seq 0x40 0 false false
  else if peer = g.rank then
    match (a.2.2.ctx x.ctx.val).putExt buf (wd p 2) (spN p) flag with
    | none => a.2.2.spEnd k x.cmd.seq 0x57 peer false true
    | some e =>
      match putPerm e with
      | some f => a.2.2.fatalAgent k 6 f.1 f.2 (xBase e + wd p 2)
      | none =>
        let t := a.2.2.spOut k x.cmd.seq (extPlace e) (wd p 2) a.1
        (flag.elim t fun f => t.spOut k x.cmd.seq (extPlace e) f.1 (toBytes 8 f.2.toNat)).modSp k x.cmd.seq fun y => { y with done := true }
  else a.2.2.spSend k x g peer a.1 fun bs => .put buf (wd p 2) (spN p) bs flag

/-- The head of q22 starts once its phase has ended or committed early, up to 16 running at once (R339). -/
def execSpeedwellCommand (k : Nat) (s : State) : Out :=
  .next (
    if !s.engineStarts k || decide (16 ≤ (s.core k).sprun.length) then s
    else match (s.core k).q22 with
      | [] => s
      | x :: r =>
        if !(s.core k).freed x.ph then s
        else
          let c := (s.core k).res.ctx
          let gi : Fin 64 := Fin.ofNat 64 (spGroup x.param)
          match mget (s.ctx c.val).groups gi.val with
          | none => s.fatalAgent k 6 accBounds.1 accBounds.2 0
          | some g =>
            let y : SpRun := ⟨x, c, gi, g.att, g.cseq, s.rtime, [], [], [], [], [], 0, 0, false, false, false⟩
            let s1 := s.modCore k fun c => { c with q22 := r, sprun := c.sprun ++ [y] }
            if x.form = 3 then s1.startPut k y g
            else
              let s2 := s1.modCtx c.val fun t => { t with groups := mset t.groups gi.val { g with cseq := g.cseq + 1 } }
              let s3 := match x.form with
                | 0 => s2.startIdx k y g
                | 1 => s2.startVec k y g
                | _ => s2.startRed k y g
              (s3.spCheck k x.seq g).redeliver fun p => p.ctx == c && p.grp == gi && p.att == y.att && p.cseq == y.cseq)

/-- A packet unacknowledged for 64 µs goes out again; after 16 times its peer is unreachable (R336, R345). -/
def execRetransmissionTimeout (n : Nat) (s : State) : Out :=
  .next (
    match mget s.tx n with
    | none => s
    | some e =>
      if s.down || decide (s.rtime < e.at_ + 64000) then s
      else if !s.reachable e.dev || decide (16 ≤ e.tries) then
        (match e.own with
        | some o => s.spEnd o.1 o.2 0x57 e.rank false false
        | none => { s with tx := mdel s.tx n })
      else ({ s with tx := mset s.tx n { e with tries := e.tries + 1, at_ := s.rtime } } : State).toPort e.dev e.pkt)

/-- The lowest rank whose part or acknowledgement is missing. -/
def State.spMissing (s : State) (k : Nat) (x : SpRun) (g : Group) : Nat :=
  ((upto 0 g.nrank).find? fun d => (mget x.parts d).isNone || (s.spUnacked k x.cmd.seq).contains d).getD 0
/-- A collective not complete TMO µs after its start (R345). -/
def execCollectiveTimeout (k seq : Nat) (s : State) : Out :=
  .next (
    match s.spRun k seq with
    | none => s
    | some x =>
      match mget (s.ctx x.ctx.val).groups x.grp.val with
      | none => s
      | some g =>
        if s.down || x.done || decide (3 ≤ x.cmd.form) || decide (s.rtime < x.start + g.tmo * 1000) then s
        else s.spEnd k seq 0x57 (s.spMissing k x g) false false)

/-- The element of a completed Speedwell command (R345 Table 7). -/
def spElem (x : SpRun) : Word :=
  w64 ((0xF1 + x.cmd.form) * 2 ^ 56 + x.status * 2 ^ 48 + x.att.toNat * 2 ^ 32 + x.cmd.seq % 65536 * 2 ^ 16 +
    b2n x.refused * 2 ^ 15 + b2n x.mism * 2 ^ 14 + x.info % 2 ^ 14)
/-- Memory bytes that a command has written, for the acquire of its element. -/
def spBytes (x : SpRun) (g : Group) : List Nat :=
  ((spRoles x.cmd.form x.cmd.param g).zip x.cmd.bases).flatMap fun r => if r.1.2.1 then r.2.bytes r.1.2.2.1 r.1.2.2.2 else []

/-- A Speedwell command's waiting writes go on; once none is left and it is done, its element enters q23, its semaphore is
signalled together with that, and its pins go (R301, R345). -/
def execSpeedwellCompletion (k seq : Nat) (s : State) : Out :=
  .next (
    if !s.engineOn k then s
    else match s.spRun k seq with
      | none => s
      | some x =>
        let live := (s.core k).mark != .dying
        if !x.outq.isEmpty then s.spDrain x.outq.length k seq
        else if !x.done || (live && decide (32 ≤ (s.core k).qUsed 23)) then s
        else
          let e := x.cmd.view
          let g := (mget (s.ctx x.ctx.val).groups x.grp.val).getD ⟨1, 0, [], 0, 0, 0, 0, 0⟩
          let s0 := (s.unpinWays x.pins).rowRelease
          let s1 := s0.modCore k fun c =>
            let d : Core := { c with sprun := c.sprun.filter fun y => y.cmd.seq != seq }
            (if live then d.noteAcq 22 (seq % 65536) (s.ownWrites e) (spBytes x g) else d).wake
          let s2 := if live then s1.give k (.elem 23 (spElem x) x.cmd.ph) else s1
          let s3 := match x.cmd.sig with
            | some n => if live then s2.give k (.sem n 1 x.cmd.ph (s.engDone e)) else s2
            | none => s2
          s3.settle k)

end Sys2Proof.Machine
end

