-- ==== Sys2Proof/Machine/Phase.lean ====
section
/-!
DEFINITION. Sys2Proof/Machine/Phase.lean: the aligning forms PHASE, QUIET, TRAPF and KEND (R84, R158, R160, R274 to R277), and
the checkpoint that a PHASE takes (R178, R280, R353).
-/
namespace Sys2Proof.Machine
open Sys2Proof

/-! ### Alignment (R84) -/

/-- All three streams go on past the aligning form. -/
def Regs.passAll (r : Regs) : Regs := { r with c := r.c.advance, a := r.a.advance, v := r.v.advance }
def State.passAll (s : State) : State := (s.modRegs Regs.passAll).modMe Core.wake
/-- An aligning form: it issues in C's turn once all three streams have reached it and Campion has answered C's earlier forms;
a false guard only aligns. -/
def State.aligning (s : State) (g : Guard) (work : State → State) : State :=
  match s.strm with
  | .c =>
    if s.st.acted then work s
    else if !s.me.aligned then s.blocked .align
    else if !s.guardB g then s.passAll
    else if !s.st.await.isEmpty then s.blocked .other
    else work s
  | _ => s.blocked .align

/-! ### Commands of the engines -/

/-- Whether the block has a command, run or held window write that has not completed. -/
def State.enginesBusy (s : State) (k : Nat) : Bool :=
  let c := s.core k
  c.mx.isSome || !c.q11.isEmpty || c.cq.toList.any (fun q => !q.isEmpty) || c.crun.toList.any Option.isSome ||
    !c.q16.isEmpty || c.prun.isSome || !c.q18.isEmpty || c.srun.isSome || !c.q19.isEmpty || s.nmBusy k ||
    !c.q20.isEmpty || c.wrun.isSome || !c.q22.isEmpty || !c.sprun.isEmpty || !c.aww.isEmpty

/-- Whether a place names an extent. -/
def Place.names (p : Place) (n : Nat) : Bool := (p.kind == .mem || p.kind == .window) && p.ext == n
def MxCmd.namesExt (x : MxCmd) (n : Nat) : Bool := (x.op == .accld || x.op == .accst) && x.place.names n
def CopyCmd.namesExt (x : CopyCmd) (n : Nat) : Bool := (x.op != .fill && x.src.names n) || x.dst.names n
/-- Whether a matrix command that has not retired names an extent. -/
def Core.mxNames (c : Core) (n : Nat) : Bool := c.q11.any (fun x => x.namesExt n) || c.mx.any fun x => x.cmd.namesExt n
/-- Whether a command of core k's block that has not completed names an extent (R177); without `held`, those that wait for the
end of their phase, and what stands behind them, do not count (R211, R294).  A near-memory run at its chiplet acknowledges for
itself (R177). -/
def State.cmdNames (s : State) (k : Nat) (held : Bool) (n : Nat) : Bool :=
  let c := s.core k
  c.mxNames n ||
    c.cq.toList.any (fun q => (if held then q else q.takeWhile fun x => !x.held c).any fun x => x.namesExt n) ||
    c.crun.toList.any (fun o => o.any fun x => x.cmd.namesExt n) ||
    (c.q16.any fun x => (held || c.freed x.ph) && x.exts.contains n) || (c.prun.any fun x => x.cmd.exts.contains n) ||
    (c.q18.any fun x => (held || c.freed x.ph) && x.exts.contains n) || (c.srun.any fun x => x.cmd.exts.contains n) ||
    (c.q19.any fun x => (held || c.freed x.ph) && x.exts.contains n) || (c.q20.any fun x => x.exts.contains n) ||
    (c.wrun.any fun x => x.cmd.exts.contains n) || (c.q22.any fun x => (held || c.freed x.ph) && x.exts.contains n) ||
    c.sprun.any fun x => x.cmd.exts.contains n

/-- Whether an ACCST of the current phase to memory has still to retire (R255, R274). -/
def Core.accstLeft (c : Core) : Bool :=
  let p (x : MxCmd) : Bool := x.op == .accst && x.place.kind == .mem && x.ph == c.ph
  c.q11.any p || c.mx.any fun x => p x.cmd

/-! ### The checkpoint (R353, R356) -/

/-- Whether a granule lies in a scratch range of the header (R19). -/
def inRange (w g : Nat) : Bool := decide (bits w 63 46 ≤ g ∧ g < bits w 63 46 + bits w 45 28)
/-- Whether a checkpoint keeps a scratch granule (R20): must-keep ranges stand in words 32 to 39, discardable ones in words
40 to 47. -/
def keptGran (hdr : List Word) (g : Nat) : Bool :=
  ((upto 0 (bits (wd hdr 7) 51 48)).any fun n => inRange (wd hdr (32 + n)) g) ||
    (bit (wd hdr 3) 50 && !(upto 0 (bits (wd hdr 7) 47 44)).any fun n => inRange (wd hdr (40 + n)) g)
/-- The elements of a register file below a declared count; the others as at block start (R11). -/
def cutVec {α : Type} {n : Nat} (cnt : Nat) (v init : Vector α n) : Vector α n :=
  Vector.ofFn fun i => if i.val < cnt then v[i] else init[i]
/-- A stream's state as a checkpoint keeps it: the declared registers (R11, R353). -/
def Stream.saved (hdr : List Word) (m : Stm) (x : Stream) : Stream :=
  { x with
    s := cutVec (scnt hdr m) x.s Stream.init.s
    p := cutVec (pcnt hdr m) x.p Stream.init.p
    lc := cutVec (lcnt hdr) x.lc Stream.init.lc }
/-- What a checkpoint saves of a core (R353 Table 3): the record of the phase that has ended, with the flags of commands that
retired since (R125). -/
def Core.saved (c : Core) : Ckpt where
  regs :=
    let r := c.prec.regs
    let hdr := c.res.hdr
    { r with
      c := { r.c.saved hdr .c with tflags := c.r.c.tflags }
      a := r.a.saved hdr .a
      v := r.v.saved hdr .v
      h := cutVec (hcnt hdr) (r.h.map (·.take 1)) Regs.init.h
      t := cutVec (tcnt hdr) (r.t.map (·.take 1)) Regs.init.t }
  trapinfo := c.trapinfo
  phasecnt := c.phasecnt
  sem := cutVec (semcnt c.res.hdr) c.sem Core.init.sem
  scr := c.scr.filter fun e => keptGran c.res.hdr e.1
  acc := c.acc.filter fun e => bit (c.res.hw 3) (52 + e.1 / 4096)
  ring := c.ring
  q10 := c.q10
  q17 := c.q17
  q21 := c.q21
  q23 := c.q23
  q25 := c.q25
  cseq := c.cseq
  eseq := c.eseq
  nmseq := c.nmseq
  acqs := c.acqs
  clk := c.clk
  semv := c.semv
  frame := c.res.frame
  revoked := c.stale

/-- The lowest free checkpoint slot of a context (R354). -/
def Ctx.freeSlot (t : Ctx) : Option Nat := (upto 0 (t.cks.length + 1)).find? fun n => decide (n < t.ckslots) && (mget t.cks n).isNone

/-- The grant of a gang goes back once no unretired member runs (R185). -/
def Ctx.gangRelease (t : Ctx) (card gang : Nat) : Ctx :=
  match mget t.gangs (gkey card gang) with
  | none => t
  | some g =>
    if (t.gangRecs card gang).all fun m => m.2.core.isNone then
      { t with gangs := mset t.gangs (gkey card gang) { g with placed := false, elastic := [] } }
    else t

/-- The address of a checkpoint slot: the slots follow the card pool and the record store in the reserved range (R354,
R423). -/
def Ctx.ckAddr (t : Ctx) (slot : Nat) : Nat := t.rbase + 513 * 2 ^ 20 + slot * 0x240000
/-- F and P of saved granules, two bits each, F the even one, by byte (R354). -/
def fpBytes (m : Map SGran) : Map Nat :=
  m.foldl (fun q e => mset q (e.1 / 4) (mgetD q (e.1 / 4) 0 + (b2n e.2.full + 2 * b2n e.2.pois) * 4 ^ (e.1 % 4))) []
/-- The bytes of a slot that R354 Table 4 lays out, by offset: accumulators in their containers (R122), F and P, scratch.
The first 64 KiB, whose layout no rule gives, are held as `Ckpt` only. -/
def Ckpt.cells (x : Ckpt) : List Host.Cell :=
  (x.acc.flatMap fun e => cellsAt (0x10000 + 8 * e.1) (toBytes 8 (wrap 64 e.2.toInt))) ++
    (fpBytes x.scr).map (fun e => (0x30000 + e.1, BitVec.ofNat 8 e.2)) ++
    x.scr.flatMap fun e => cellsAt (0x40000 + 16 * e.1) (toBytes 16 e.2.data.toNat)
/-- Write a checkpoint at its slot's address: what Table 4 has as zero is zero, the bytes of granules not saved stay. -/
def State.writeCkpt (s : State) (base : Nat) (x : Ckpt) : State :=
  let kept := mcut s.mem (base + 0x10000) (base + 0x40000)
  { s with mem := Memory.setAll kept (x.cells.map fun c => (base + c.1, c.2)) }
/-- Take the checkpoint of core k into a slot: the block is requeued with CKPT (R352, R353, R396). -/
def State.takeCkpt (s : State) (k slot : Nat) : State :=
  let c := s.core k
  let r := c.res
  let key := gkey r.card r.block
  let s1 := ((s.addStats k).writeCkpt ((s.ctx r.ctx.val).ckAddr slot) c.saved).modCtx r.ctx.val fun t =>
    let u := t.addCf r.card 27 47 32 1
    ({ u with
      cks := mset u.cks slot c.saved
      recs := match mget u.recs key with
        | some x => mset u.recs key { x with core := none, ckpt := some slot, rerun := false, escal := 0 }
        | none => u.recs } : Ctx).gangRelease r.card r.gang
  let pre := match c.mark with
    | .ckpt => true
    | .ckptAt _ p => p
    | _ => false
  let s2 := if pre then s1.logBlock k 0x62 else s1
  ((s2.ackRvks k).modCore k Core.leave).enqueue r.ctx.val key

/-- C waits in the work of an aligning form for every command of the block: on a command of q11 too, or on others only
(R242). -/
def State.inWork (s : State) : State := s.blocked (if !s.me.q11.isEmpty || s.me.mx.isSome then .work else .align)

/-- A checkpoint that is due: it waits for the block's commands, its requests to Campion and a slot (R271, R353, R354). -/
def State.ckptTurn (s : State) : State :=
  if s.enginesBusy s.cur then s.inWork
  else if !s.me.q24.isEmpty || !s.me.comm.isEmpty then s.blocked .other
  else match (s.ctx s.cx).freeSlot with
    | none => s.blocked .other
    | some n => s.takeCkpt s.cur n

/-! ### PHASE and KEND (R158, R274) -/

/-- The double-buffer parities after a PHASE (R276). -/
def Core.flipped (c : Core) : Vector Bool 8 :=
  Vector.ofFn fun i => if i.val < bits (c.res.hw 7) 59 56 then !c.r.par[i] else c.r.par[i]

/-- Whether a copy of the refetch log is being performed again and has not completed (R274, R366). -/
def Core.redoing (c : Core) (x : CopyCmd) : Bool :=
  let same (y : CopyCmd) : Bool := y.silent && y.q == x.q && y.seq == x.seq && y.ph == x.ph
  c.cq[x.q].any same || c.crun[x.q].any fun r => same r.cmd && !r.done
/-- The commit of a phase and the record of the next, once its stores are published (R274): reads that follow are performed
after write `n`; `efp`, F and P of the gang's elastic scratch. -/
def Core.nextPhase (kend : Bool) (n : Nat) (efp : Map (Bool × Bool)) (c : Core) : Core :=
  let r := { c.r with par := c.flipped }.orderReads n
  let r2 := if kend then r else r.passAll
  let ring := c.ring.map fun x => { x with thead := x.head }
  { c with
    r := r
    q24 := c.q24 ++ c.pubs.map fun p => .ready p.1 p.2 c.clk
    pubs := []
    ring := ring
    snaps := []
    log := (c.log.filter fun e => !e.done || c.redoing e.cmd).map fun e => { e with carried := true }
    prec := ⟨r2, fpOf c.scr, efp, ring, c.cseq, c.eseq⟩
    phasecnt := c.phasecnt + 1
    nPhases := c.nPhases + 1
    ph := c.ph + 1
    early := false
    trigs := 0
    pop17 := []
    pop21 := []
    pop23 := []
    pop25 := []
    semInc := Vector.replicate 16 0
    semDec := Vector.replicate 16 0 }

/-- PHASE's work; KEND's final PHASE does it too and takes no checkpoint (R158, R178, R274).  The commands naming a revoked
extent that the end of this phase sets free are waited for by the checkpoint or by KEND (notes/assumptions/51.md). -/
def State.phaseWork (kend : Bool) (s0 : State) : State :=
  if s0.st.acted then s0.ckptTurn
  else
    let s := if kend then s0.modMe fun c => { c with kend := true } else s0
    let c := s.me
    if c.accstLeft then s.blocked .work
    else if !c.walking && c.rvks.any fun x => s.cmdNames s.cur false x.ext then
      s.blocked (if c.rvks.any fun x => c.mxNames x.ext then .work else .align)
    else
      let t := s.publish s.cur
      if !t.me.comm.isEmpty then t.blocked .other
      else
        let u := t.modMe (Core.nextPhase kend t.wseq (t.efpOf t.cur))
        let v := (if 32 < u.me.log.length then u.earlyCommit u.cur else u).refresh u.cur
        if kend then ((v.modMe fun c => { c with ended := true }).modMe Core.wake).blocked .align
        else if v.me.ckptDue then (v.modSt fun x => { x with acted := true }).ckptTurn
        else v.passAll
def execPhase (g : Guard) (s : State) : Out := .next (s.aligning g (State.phaseWork false))
def execKend (g : Guard) (s : State) : Out := .next (s.aligning g (State.phaseWork true))

/-! ### QUIET and TRAPF (R160, R277) -/

/-- QUIET waits for every engine command of the block, held outbound copies among them. -/
def State.quietWork (s : State) : State :=
  if s.enginesBusy s.cur then s.inWork else (s.modMe fun c => { c with quietPt := true }).passAll
def execQuiet (g : Guard) (s : State) : Out := .next (s.aligning g State.quietWork)

/-- The flags that TRAPF sees (R160). -/
def Core.allFlags (c : Core) : Nat := (c.r.c.tflags ||| c.r.a.tflags ||| c.r.v.tflags).toNat
/-- The first stream whose TFLAGS bit n is set. -/
def Core.flagStream (c : Core) (n : Nat) : Nat :=
  if c.r.c.tflags.getLsbD n then 0 else if c.r.a.tflags.getLsbD n then 1 else 2
/-- The event that names flag n. -/
def State.logFlag (s : State) (n : Nat) : State :=
  let p := s.me.r.c.pos
  s.logEv { s.evOf s.cur 0x01 (0x30 + n) 0 with
    stream := s.me.flagStream n, p0 := p.line * 2 ^ 40 + p.lane * 2 ^ 37 + p.lseq % 2 ^ 37, p2 := s.me.allFlags }
/-- TRAPF's work (R160). -/
def State.trapfWork (s : State) : State :=
  let c := s.me
  let f := c.allFlags
  if c.trapinfo.getLsbD 8 then s.blockFail s.cur 0x38 (c.trapinfo.toNat % 256) 0
  else match (upto 0 8).find? fun n => bit f n && bit (c.res.hw 3) (56 + n) with
    | some n => s.blockFail s.cur (0x30 + n) 0 (c.flagStream n)
    | none => (((upto 0 8).filter fun n => bit f n).foldl State.logFlag s).passAll
def execTrapf (g : Guard) (s : State) : Out := .next (s.aligning g State.trapfWork)

end Sys2Proof.Machine
end

