-- ==== Sys2Proof/Machine/Header.lean ====
section
/-!
DEFINITION. Sys2Proof/Machine/Header.lean: the kernel header: its checks at arm, the expansion of its loop table into blocks
and gangs, and the tiles of its input maps (R8 to R10, R14 to R16, R18, R19, R23 to R25).
-/
namespace Sys2Proof.Machine
open Sys2Proof

/-! ### The checks of R9 -/

/-- The word of the first check that fails; the checks stand in the order of their words (notes/assumptions/20.md). -/
def faultWord (cs : List (Bool × Nat)) : Option Nat := (cs.find? fun c => !c.1).map fun c => c.2

/-- Bits hi : lo of header word n. -/
def hbits (h : List Word) (n hi lo : Nat) : Nat := bits (wd h n) hi lo
def hCodelines (h : List Word) : Nat := hbits h 1 63 40
def hCodeEnd (h : List Word) : Nat := 512 + 32 * hCodelines h
def hScrGrans (h : List Word) : Nat := hbits h 5 63 40 / 16
def hGsize (h : List Word) : Nat := hbits h 3 47 44 + 1
def hNloop (h : List Word) : Nat := hbits h 7 63 60
def hNtout (h : List Word) : Nat := hbits h 7 43 40
def hNtin (h : List Word) : Nat := hbits h 7 39 36
def hNmv (h : List Word) : Bool := bit (wd h 3) 49

/-- Whether a section outside the code begins on a 32-byte boundary and behind the code (R8). -/
def sectionOk (h : List Word) (off n : Nat) : Bool := off % 32 == 0 && (n == 0 || decide (hCodeEnd h ≤ off))
/-- IMAGEBYTES (R10): the largest end offset over all sections. -/
def imageBytes (h : List Word) : Nat :=
  max (hCodeEnd h) (max (hbits h 2 63 32 + hbits h 2 31 0) (if hNmv h then hbits h 60 63 32 + hbits h 60 31 0 else 0))

/-- Checks that the entries of a table from its count up are zero (R9). -/
def zeroFrom (h : List Word) (base size count : Nat) : List (Bool × Nat) :=
  (upto count (size - count)).map fun n => (wd h (base + n) == 0, base + n)
/-- Whether ranges of granules meet. -/
def rangesMeet (a n b m : Nat) : Bool := decide (a < b + m) && decide (b < a + n)
/-- One double-buffer pair against those before it (R18). -/
def pairOk (h : List Word) (i : Nat) : Bool :=
  let a (k : Nat) : Nat := hbits h (16 + k) 63 47
  let b (k : Nat) : Nat := hbits h (16 + k) 46 30
  let n (k : Nat) : Nat := hbits h (16 + k) 29 13
  hbits h (16 + i) 12 0 == 0 && decide (1 ≤ n i ∧ n i ≤ 65536 ∧ a i + n i ≤ hScrGrans h ∧ b i + n i ≤ hScrGrans h) &&
    !rangesMeet (a i) (n i) (b i) (n i) &&
    (upto 0 i).all fun k =>
      !rangesMeet (a i) (n i) (a k) (n k) && !rangesMeet (a i) (n i) (b k) (n k) && !rangesMeet (b i) (n i) (a k) (n k) &&
        !rangesMeet (b i) (n i) (b k) (n k)
/-- One scratch range (R19). -/
def rangeOk (h : List Word) (k : Nat) : Bool :=
  hbits h k 27 0 == 0 && decide (1 ≤ hbits h k 45 28 ∧ hbits h k 45 28 ≤ 131072 ∧ hbits h k 63 46 + hbits h k 45 28 ≤ hScrGrans h)
/-- A discardable range against the must-keep ranges (R19). -/
def discOk (h : List Word) (k : Nat) : Bool :=
  rangeOk h k && (upto 0 (hbits h 7 51 48)).all fun n =>
    !rangesMeet (hbits h k 63 46) (hbits h k 45 28) (hbits h (32 + n) 63 46) (hbits h (32 + n) 45 28)
/-- One loop-table entry below NLOOP (R14). -/
def loopOk (h : List Word) (i : Nat) : Bool :=
  hbits h (8 + i) 63 62 != 0 && hbits h (8 + i) 60 32 == 0 && (hbits h (8 + i) 61 61 == 0 || decide (hbits h (8 + i) 31 0 < 8))
/-- One output grid below NTOUT (R23). -/
def gridOk (w : Nat) : Bool :=
  let d := bits w 63 62
  d != 0 && bits w 61 46 != 0 && ((bits w 45 30 == 0) == decide (d < 2)) && ((bits w 29 14 == 0) == decide (d < 3)) &&
    bits w 13 0 == 0 && decide (gridSize w ≤ 131072)

/-- The fields of words 0 to 7 (R10 Table 2). -/
def identityChecks (h : List Word) : List (Bool × Nat) :=
  let f := hbits h
  [ (f 0 63 32 == 0x57524C31 && f 0 31 24 == 1 && f 0 23 0 == 0, 0),
    (decide (1 ≤ hCodelines h ∧ hCodelines h ≤ 524288 ∧ f 1 39 16 < hCodelines h) && f 1 15 0 == 0, 1),
    (sectionOk h (f 2 63 32) (f 2 31 0), 2),
    (f 3 48 48 == 0 && f 3 20 0 == 0 &&
      decide (f 3 43 40 ≤ 8 ∧ f 3 39 36 ≤ 8 ∧ f 3 35 31 ≤ 16 ∧ f 3 30 26 ≤ 16 ∧ f 3 25 21 ≤ 16), 3),
    (f 4 29 0 == 0 && decide (hNloop h ≤ f 4 33 30 ∧ f 4 33 30 ≤ 8) &&
      [(63, 57), (53, 47), (43, 37)].all fun p =>
        decide (1 ≤ f 4 p.1 (p.1 - 5) ∧ f 4 p.1 (p.1 - 5) ≤ 32 ∧ 1 ≤ f 4 p.2 (p.2 - 3) ∧ f 4 p.2 (p.2 - 3) ≤ 8), 4),
    (f 5 7 0 == 0 && f 5 63 40 % 16 == 0 &&
      decide (f 5 63 40 ≤ 0x200000 ∧ f 5 39 24 ≤ f 5 23 8 ∧ f 5 23 8 ≤ 1536), 5),
    (f 6 7 0 == 0, 6),
    (f 7 35 0 == 0 && decide (f 7 63 60 ≤ 8 ∧ f 7 59 56 ≤ 8 ∧ f 7 55 52 ≤ 8 ∧ f 7 51 48 ≤ 8 ∧ f 7 47 44 ≤ 8 ∧
      f 7 43 40 ≤ 4 ∧ f 7 39 36 ≤ 4), 7) ]
/-- The tables of words 8 to 63 (R14, R18, R19, R23 to R25). -/
def tableChecks (h : List Word) : List (Bool × Nat) :=
  let n (hi lo : Nat) : Nat := hbits h 7 hi lo
  (upto 0 (n 63 60)).map (fun i => (loopOk h i, 8 + i)) ++ zeroFrom h 8 8 (n 63 60) ++
  (upto 0 (n 59 56)).map (fun i => (pairOk h i, 16 + i)) ++ zeroFrom h 16 8 (n 59 56) ++
  (upto 0 (n 55 52)).map (fun i => (rangeOk h (24 + i), 24 + i)) ++ zeroFrom h 24 8 (n 55 52) ++
  (upto 0 (n 51 48)).map (fun i => (rangeOk h (32 + i), 32 + i)) ++ zeroFrom h 32 8 (n 51 48) ++
  (upto 0 (n 47 44)).map (fun i => (discOk h (40 + i), 40 + i)) ++ zeroFrom h 40 8 (n 47 44) ++
  (upto 0 (n 43 40)).map (fun i => (gridOk (wd h (48 + i)), 48 + i)) ++ zeroFrom h 48 4 (n 43 40) ++
  (upto 0 (n 39 36)).map (fun i => (hbits h (53 + 2 * i) 31 2 == 0, 53 + 2 * i)) ++ zeroFrom h 52 8 (2 * n 39 36) ++
  (if hNmv h then
    [(sectionOk h (hbits h 60 63 32) (hbits h 60 31 0), 60), (hbits h 61 51 0 == 0 && decide (hbits h 61 63 61 ≤ 4), 61)]
  else [(wd h 60 == 0, 60), (wd h 61 == 0, 61)]) ++
  [(wd h 62 == 0, 62), (wd h 63 == 0, 63)]
/-- The header word at fault (R9); the counts of word 7 bound the tables, so its check comes first. -/
def headerFault (h : List Word) : Option Nat :=
  match faultWord (identityChecks h) with
  | some n => some n
  | none => faultWord (tableChecks h)

/-! ### Expansion (R15, R16) -/

/-- Trip-count slot k of a card (R30 words 2 to 5). -/
def slotOf (snap : List Word) (k : Nat) : Nat := bits (wd snap (2 + k / 2)) (32 * (k % 2) + 31) (32 * (k % 2))
/-- Resolved trip counts of the loop levels (R15). -/
def resolveTrips (h snap : List Word) : List Nat :=
  (upto 0 (hNloop h)).map fun i => if hbits h (8 + i) 61 61 = 0 then hbits h (8 + i) 31 0 else slotOf snap (hbits h (8 + i) 2 0)
/-- KIND of level i: 1 temporal, 2 spatial over cores, 3 spatial over dies. -/
def loopKind (h : List Word) (i : Nat) : Nat := hbits h (8 + i) 63 62
/-- Spatial levels, outermost first. -/
def spatial (h : List Word) : List Nat := (upto 0 (hNloop h)).filter fun i => decide (2 ≤ loopKind h i)
def coreLevel (h : List Word) : Option Nat := ((spatial h).filter fun i => loopKind h i == 2).getLast?
def dieLevels (h : List Word) : List Nat := (spatial h).filter fun i => loopKind h i == 3
/-- Number of blocks (R15). -/
def blockCount (h : List Word) (trips : List Nat) : Nat := (spatial h).foldl (fun n i => n * trips.getD i 0) 1

/-- The header word at fault in the expansion (R15, R16). -/
def expandFault (h : List Word) (trips : List Nat) : Option Nat :=
  let d := dieLevels h
  faultWord
    [ (decide (d.length ≤ 1), 8 + d.getLastD 0),
      (d.all fun i => trips.getD i 0 == 1 || trips.getD i 0 == 2, 8 + d.headD 0),
      (decide (blockCount h trips ≤ 0xFFFFFF), 8 + (spatial h).headD 0),
      (hGsize h == 1 || (coreLevel h).isSome, 3),
      ((coreLevel h).all fun i => trips.getD i 0 % hGsize h == 0, 8 + (coreLevel h).getD 0) ]

/-- Coordinates of the spatial levels given, innermost first, of a linear index. -/
def coordsFrom (trips : List Nat) : List Nat → Nat → List (Nat × Nat)
  | [], _ => []
  | i :: r, n => (i, n % trips.getD i 1) :: coordsFrom trips r (n / trips.getD i 1)
/-- Coordinate of block `lin` along level i; 0 along a temporal level (R15, R17). -/
def blockCoord (h : List Word) (trips : List Nat) (lin i : Nat) : Nat :=
  ((coordsFrom trips (spatial h).reverse lin).find? fun c => c.1 == i).elim 0 fun c => c.2
/-- Blocks per step along the innermost spatial-over-cores level. -/
def coreStride (h : List Word) (trips : List Nat) : Nat :=
  (coreLevel h).elim 1 fun l => ((spatial h).filter fun i => decide (l < i)).foldl (fun n i => n * trips.getD i 1) 1
/-- Rank in the gang (R16, R35). -/
def gangRank (h : List Word) (trips : List Nat) (lin : Nat) : Nat :=
  (coreLevel h).elim 0 fun l => blockCoord h trips lin l % hGsize h
/-- A gang's number: the linear index of its rank-0 member. -/
def gangOf (h : List Word) (trips : List Nat) (lin : Nat) : Nat := lin - gangRank h trips lin * coreStride h trips
/-- Die of a block, if its job has a dies level (R15, R35). -/
def blockDie (h : List Word) (trips : List Nat) (lin : Nat) : Option Nat :=
  (dieLevels h).head?.map fun i => blockCoord h trips lin i

/-! ### Input maps (R24) -/

/-- Dimension field e of map n. -/
def mapDim (h : List Word) (n e : Nat) : Nat :=
  if e = 0 then hbits h (52 + 2 * n) 63 32 else if e = 1 then hbits h (52 + 2 * n) 31 0 else hbits h (53 + 2 * n) 63 32
def mapSlot (h : List Word) (n : Nat) : Nat := hbits h (53 + 2 * n) 1 0
/-- DIMS and extents of a grid (R23). -/
def gridDims (w : Nat) : Nat := bits w 63 62
def gridExt (w e : Nat) : Nat :=
  if e = 0 then bits w 61 46
  else if e = 1 then (if gridDims w < 2 then 1 else bits w 45 30)
  else if gridDims w < 3 then 1 else bits w 29 14

/-- The header word of dimension e of map n. -/
def mapWord (n e : Nat) : Nat := 52 + 2 * n + e / 2
/-- Map n of a consumer against the header of its producer (R24): the header word at fault; for the product of the spans,
which no single word gives, the map's first (notes/assumptions/53.md). -/
def mapFault (h prod : List Word) (n : Nat) : Option Nat :=
  let g := wd prod (48 + mapSlot h n)
  let d := gridDims g
  faultWord
    ((decide (mapSlot h n < hNtout prod), 53 + 2 * n) ::
      (upto 0 3).map (fun e => (if e < d then (spatial h).contains (bits (mapDim h n e) 31 29) else mapDim h n e == 0, mapWord n e)) ++
      [(decide ((upto 0 d).foldl (fun p e => p * (bits (mapDim h n e) 27 24 + 1)) 1 ≤ 16), mapWord n 0)])

/-- The tile indices that dimension e of a map selects for coordinate x of a grid extent g. -/
def dimTiles (f g x : Nat) : List Nat :=
  let lo : Int := sgn 8 (bits f 23 16) * (x : Int) / (2 ^ bits f 15 12 : Nat) + sgn 12 (bits f 11 0)
  ((upto 0 (bits f 27 24 + 1)).filterMap fun k =>
    let t := lo + (k : Nat)
    let u := if bit f 28 then min (max t 0) ((g : Int) - 1) else t
    if 0 ≤ u ∧ u < g then some u.toNat else none).dedup
/-- The input tiles of block `lin` by map n against the producer's grid (R24). -/
def mapTiles (h : List Word) (trips : List Nat) (n lin g : Nat) : List Nat :=
  let dim (e : Nat) : List Nat :=
    if gridDims g ≤ e then [0] else dimTiles (mapDim h n e) (gridExt g e) (blockCoord h trips lin (bits (mapDim h n e) 31 29))
  (dim 0).flatMap fun a => (dim 1).flatMap fun b => (dim 2).map fun c => (a * gridExt g 1 + b) * gridExt g 2 + c

end Sys2Proof.Machine
end

