-- ==== Sys2Proof/Machine/Campion.lean ====
section
/-!
DEFINITION. Sys2Proof/Machine/Campion.lean: arm requests, service nodes, tag allocation, binding, and the requests of q24
(R30 to R38, R47 to R52, R284 to R286).
-/
namespace Sys2Proof.Machine
open Sys2Proof

/-! ### The checks of a card (R30, R31, R38) -/

/-- Words 0 to 31 of a card. -/
def Ctx.card (t : Ctx) (n : Nat) : List Word := (upto 0 32).map fun w => w64 (t.cw n w)
def ckind (w : List Word) : Nat := bits (wd w 0) 27 25
/-- Binding b of a card: in use, producer, bound serial, whole (R30). -/
def bindUsed (w : List Word) (b : Nat) : Bool := bit (wd w (12 + b)) 19
def bindCard (w : List Word) (b : Nat) : Nat := bits (wd w (12 + b)) 31 20
def bindSer (w : List Word) (b : Nat) : Nat := bits (wd w (12 + b)) 63 32
def bindWhole (w : List Word) (b : Nat) : Bool := bit (wd w (12 + b)) 18
/-- Node target i. -/
def nodeTgt (w : List Word) (i : Nat) : Nat :=
  if i < 5 then bits (wd w 20) (63 - 12 * i) (52 - 12 * i) else bits (wd w 21) (63 - 12 * (i - 5)) (52 - 12 * (i - 5))
def nodeCases (w : List Word) : Nat := bits (wd w 21) 5 2

/-- Fields of word 0 that any card obeys. -/
def cardWord0 (w : List Word) : Bool :=
  bits (wd w 0) 7 0 == 0 && decide (ckind w ≤ 3) && bits (wd w 0) 12 11 != 3 && (!bit (wd w 0) 9 || bit (wd w 0) 8)
/-- Words from a to b that must be zero. -/
def zeroWords (w : List Word) (a n : Nat) : List (Bool × Nat) := (upto a n).map fun k => (wd w k == 0, k)
/-- The checks of a kernel card.  They come first (R32), so a misaligned KIMG is an invalid job card (R30), although R8 by
itself names invalid kernel header: DEDUCED, notes/assumptions/53.md. -/
def kernelChecks (w : List Word) : List (Bool × Nat) :=
  [(cardWord0 w, 0), ((bits (wd w 1) 63 60 == 0 || bits (wd w 1) 63 60 == 2) && bits (wd w 1) 8 0 == 0, 1),
   (bits (wd w 7) 31 0 == 0, 7)] ++
  (upto 0 4).map (fun b => (bits (wd w (12 + b)) 17 0 == 0, 12 + b)) ++
  [(bits (wd w 17) 45 38 == 0 && bits (wd w 17) 20 0 == 0, 17)] ++ zeroWords w 18 4
/-- The checks of node card n: none of its nine target fields names the node itself, whatever its kind and number of cases;
0xFFF names no card (R38). -/
def nodeChecks (n : Nat) (w : List Word) : List (Bool × Nat) :=
  [(cardWord0 w, 0), (decide (bits (wd w 1) 63 60 ≤ 1) && bits (wd w 1) 2 0 == 0, 1),
   (bits (wd w 2) 63 32 == 0 && (if ckind w = 2 then decide (bits (wd w 2) 31 0 ≤ 65535) else wd w 2 == 0), 2)] ++
  zeroWords w 3 4 ++ [(bits (wd w 7) 31 0 == 0, 7)] ++ zeroWords w 8 10 ++
  [(bits (wd w 20) 3 0 == 0 && (upto 0 5).all fun i => nodeTgt w i != n || n == 0xFFF, 20),
   (bits (wd w 21) 1 0 == 0 && decide (bits (wd w 21) 15 12 ≤ 5) &&
      (ckind w != 3 || decide (1 ≤ nodeCases w ∧ nodeCases w ≤ 8)) &&
      (upto 5 4).all fun i => nodeTgt w i != n || n == 0xFFF, 21)]

/-! ### Matrix kernel or near-memory variant (R37, R327) -/

/-- W(t) (R37); none for a reserved or accumulator code. -/
def typeBits (t : Nat) : Option Nat := match Ty.ofCode t with
  | some (.bx k) => some (32 * (k.val + 2) + 8)
  | some ty => if t < 0x0F then some (32 * ty.width) else none
  | none => none
/-- The intensity of a card that offers a choice and whether the variant runs, or the card word at fault. -/
def variantChoice (h w : List Word) (ithresh : Nat) : Except Nat (Nat × Bool) :=
  if !(bit (wd w 0) 10 && hNmv h) then .ok (0, false)
  else
    let m := slotOf w (hbits h 61 60 58)
    let n := slotOf w (hbits h 61 57 55)
    let k := slotOf w (hbits h 61 54 52)
    match [hbits h 61 60 58, hbits h 61 57 55, hbits h 61 54 52].find? fun s => slotOf w s == 0 with
    | some s => .error (2 + s / 2)
    | none =>
      match typeBits (bits (wd w 17) 63 59), typeBits (bits (wd w 17) 57 53), typeBits (bits (wd w 17) 51 47) with
      | some a, some b, some o =>
        let i := min (8192 * m * n * k / (a * m * k + b * k * n + o * m * n)) 0xFFFF
        .ok (i, decide (i < ithresh) && bit (wd w 17) 58 && bit (wd w 17) 52 && bit (wd w 17) 46)
      | _, _, _ => .error 17

/-- Trip counts of a variant's levels (R327). -/
def variantTrips (d w : List Word) : List Nat :=
  (upto 0 5).map fun l => if nmTsel d l then slotOf w (nmTrip d l) else nmTrip d l
/-- The checks of a chosen variant: fault code and word. -/
def variantFault (h d w : List Word) : Option (Nat × Nat) :=
  if hbits h 60 31 0 ≠ 128 ∨ !nmFieldsOk d true then some (0x20, 60)
  else if nmCommit d ≠ hbits h 61 63 61 then some (0x20, 61)
  else
    ((upto 0 5).find? fun l => nmTsel d l && (decide (65535 < slotOf w (nmTrip d l)) || slotOf w (nmTrip d l) == 0)).map
      fun l => (0x21, 2 + nmTrip d l / 2)

/-! ### What an arm finds before it changes a word (R8, R9, R15, R24, R32, R51, R62) -/

/-- The job an arm would make, with INTENS and NMSEL; a fatal check; or a wait for a revocation (R8). -/
inductive ArmCheck where
  | ok (j : Job) (intens : Nat) (nmsel : Bool)
  | bad (code aux : Nat)
  | wait

/-- The checks of the bindings that no producer enters into: a map's binding is in use, and none names the card itself
(R32). -/
def bindChecks (n : Nat) (h w : List Word) : List (Bool × Nat) :=
  (upto 0 4).map fun b => (if bindUsed w b then bindCard w b != n else decide (hNtin h ≤ b), 12 + b)
/-- Judge the producers in the order of the bindings (R32, R51): the fault; or whether all are bound, the first FAILED one
ending the loop with a void input (notes/assumptions/53.md). -/
def Ctx.judge (t : Ctx) (h w : List Word) : List Nat → Except (Nat × Nat) Bool
  | [] => .ok true
  | b :: r =>
    let p := bindCard w b
    if !bindUsed w b then t.judge h w r
    else if t.cstate p ≤ 1 ∨ t.cf p 0 27 25 ≠ 0 then .error (0x21, 12 + b)
    else if t.cstate p = 5 then .ok false
    else match (if b < hNtin h then mapFault h (mgetD t.hdrs p []) b else none) with
      | some k => .error (0x20, k)
      | none => t.judge h w r
/-- The grid that map b of header h takes from its binding's producer (R24, R285). -/
def Ctx.bindGrid (t : Ctx) (h w : List Word) (b : Nat) : Nat :=
  if bindUsed w b && decide (b < hNtin h) then wd (mgetD t.hdrs (bindCard w b) []) (48 + mapSlot h b) else 0

/-- The header words of an image at a physical address. -/
def State.headerAt (s : State) (a : Nat) : List Word := (upto 0 64).map fun i => w64 (s.peek (a + 8 * i) 8)

/-- The checks of a kernel card's arm. -/
def State.kernelCheck (s : State) (c n : Nat) : ArmCheck :=
  let t := s.ctx c
  let w := t.card n
  match faultWord (kernelChecks w) with
  | some k => .bad 0x21 k
  | none =>
    let v := wd w 1 % 2 ^ 60
    match t.findExt v with
    | none => .bad 0x20 (wd w 1)
    | some e =>
      if xRvk e.2 then .wait
      else
        let p := xPhys e.2 v
        let h := s.headerAt p
        if 1 < xTier e.2 then .bad 0x20 (wd w 1)
        else match headerFault h with
        | some k => .bad 0x20 k
        | none =>
          if xTop e.2 < v + imageBytes h then .bad 0x20 (wd w 1)
          else
            let trips := resolveTrips h w
            match expandFault h trips with
            | some k => .bad 0x20 k
            | none =>
              match variantChoice h w (t.ithresh.toNat) with
              | .error k => .bad 0x21 k
              | .ok (intens, nmsel) =>
                let d := (upto 0 16).map fun i => w64 (s.peek (p + hbits h 60 63 32 + 8 * i) 8)
                let j : Job :=
                  { snap := w.take 22, hdr := h, img := p, imgExt := e.1, trips := if nmsel then variantTrips d w else trips,
                    tokens := bits (wd w 0) 18 13, grids := (upto 0 4).map (t.bindGrid h w), nmdesc := if nmsel then d else [],
                    nmrun := none, view := [], dview := [] }
                match (if nmsel then variantFault h d w else none) <|> ((faultWord (bindChecks n h w)).map fun k => (0x21, k)) with
                | some f => .bad f.1 f.2
                | none => match t.judge h w (upto 0 4) with
                  | .error f => .bad f.1 f.2
                  | .ok bound =>
                    if bound ∧ !nmsel ∧ 2 ^ 24 < t.recs.length + blockCount h trips then .bad 0x22 0 else .ok j intens nmsel

/-! ### Tag entries (R47) -/

/-- The lowest run of n free entries, given the keys in use from `lo` up. -/
def freeRun (n : Nat) : Nat → List Nat → Option Nat
  | lo, [] => if lo + n ≤ 131072 then some lo else none
  | lo, k :: r => if lo + n ≤ k then some lo else freeRun n (k + 1) r
/-- Entries of one grid, from entry e up. -/
def gridTags (c : Fin 8) (card slot : Nat) (gen : BitVec 32) (e n : Nat) : List (Nat × Tag) :=
  (upto 0 n).map fun k => (e + k, ⟨gen, card, c, slot, .empty, k, []⟩)

/-- Allocate the entries of an arm (R47). -/
def State.allocTags (s : State) (c n : Nat) (h : List Word) (nmsel : Bool) : State :=
  let size := ((upto 0 (hNtout h)).map fun k => gridSize (wd h (48 + k))).sum
  if hNtout h = 0 then s
  else match (if nmsel then none else freeRun size 0 (s.tags.map fun e => e.1)) with
    | none => s.modCtx c fun t => t.setCf n 16 26 26 1
    | some b =>
      let gen := BitVec.ofNat 32 ((s.ctx c).cserial n)
      let es := (upto 0 (hNtout h)).flatMap fun k =>
        gridTags (Fin.ofNat 8 c) n k gen (b + slotBase h k) (gridSize (wd h (48 + k)))
      ({ s with tags := es.foldl (fun m e => mset m e.1 e.2) s.tags } : State).modCtx c fun t =>
        (t.setCf n 16 63 47 b).setCf n 16 46 27 size

/-! ### Binding (R49) -/

/-- The inputs of block `lin`: its waiter link, or what an input already satisfied releases: the completion of a DONE
producer, else the publication of a READY tile (R54). -/
def State.inputsOf (s : State) (c n : Nat) (j : Job) (lin : Nat) : List (Link ⊕ View) :=
  let t := s.ctx c
  let w := t.card n
  (upto 0 4).flatMap fun b =>
    if !bindUsed w b then []
    else
      let p := bindCard w b
      let input (tag : Option Nat) : Link ⊕ View :=
        if t.cstate p = 4 then .inr (mgetD t.dviews p []) else .inl ⟨0, Fin.ofNat 8 c, tag, p, n, lin⟩
      if bindWhole w b || t.cstate p == 4 then [input none]
      else
        let ph := mgetD t.hdrs p []
        (mapTiles j.hdr j.trips b lin (wd ph (48 + mapSlot j.hdr b))).map fun tile =>
          let e := t.cf p 16 63 47 + slotBase ph (mapSlot j.hdr b) + tile
          match mget s.tags e with
          | some x => if x.state = .ready then .inr x.view else input (some e)
          | none => input (some e)
/-- The links of every block of an arm; a near-memory run counts as one. -/
def State.linksFor (s : State) (c n : Nat) (j : Job) (blocks : Nat) : List Link :=
  (upto 0 blocks).flatMap fun lin => (s.inputsOf c n j lin).filterMap Sum.getLeft?
/-- What the arm and the inputs satisfied at it release to block `lin` (R33, R54). -/
def State.arrived (s : State) (c n : Nat) (j : Job) (lin : Nat) : View :=
  ((s.inputsOf c n j lin).filterMap Sum.getRight?).foldl View.join j.view
/-- The r-th index, from 0 up, that no link of the pool has. -/
def freeIx (used : List Nat) (r : Nat) : Nat := (sortBy (fun a b => a ≤ b) used).foldl (fun i k => if k ≤ i then i + 1 else i) r
/-- Place links, each at an index of the pool that no other has: which, the manual leaves open (R45, R49). -/
def State.placeLinks : List Link → State → State
  | [], s => s
  | l :: r, s =>
    let used := s.links.map fun x => x.ix
    let d := s.draw
    State.placeLinks r { d.2 with links := d.2.links ++ [{ l with ix := freeIx used (d.1 % (8388608 - used.length)) }] }
/-- Set WHOLE of every valid binding (R49). -/
def Ctx.allWhole (t : Ctx) (n : Nat) : Ctx :=
  (upto 0 4).foldl (fun u b => if bindUsed (t.card n) b then u.setCf n (12 + b) 18 18 1 else u) t

/-- The record of block `lin` (R35). -/
def newRec (n : Nat) (j : Job) (serial : BitVec 32) (lin joins : Nat) (v : View) : Rec where
  card := n
  block := lin
  prio := bits (wd j.snap 0) 24 19
  join := joins
  ckpt := none
  rerun := false
  dieFix := blockDie j.hdr j.trips lin
  rank := if hGsize j.hdr = 1 then 0 else gangRank j.hdr j.trips lin
  serial := serial
  enqt := 0
  gang := gangOf j.hdr j.trips lin
  escal := 0
  core := none
  view := v

/-- Links, records and the ready queues of an accepted arm (R35, R49).  The links of whole inputs are placed whatever the
pool holds, for R49 raises no error and names no other course: a DESIGN CHOICE, notes/assumptions/54.md. -/
def State.createJob (s : State) (c n : Nat) (j : Job) (nmsel : Bool) : State :=
  let blocks := if nmsel then 0 else blockCount j.hdr j.trips
  let span := if nmsel then 1 else blocks
  let l1 := s.linksFor c n j span
  let s1 := if l1.length + s.links.length ≤ 8388608 then s else s.modCtx c fun t => t.allWhole n
  let ls := s1.linksFor c n j span
  let recs := (upto 0 blocks).map fun lin =>
    (gkey n lin, newRec n j (BitVec.ofNat 32 ((s1.ctx c).cserial n)) lin (ls.filter fun l => l.block == lin).length
      (s1.arrived c n j lin))
  let s2 := (s1.placeLinks ls).modCtx c fun t =>
    { ((t.setCf n 22 63 40 blocks).setCf n 22 39 16 blocks).setCf n 0 31 28 2 with
      recs := recs.foldl (fun m r => mset m r.1 r.2) t.recs }
  s2.enqueueAll c ((recs.filter fun r => r.2.join == 0).map fun r => r.1)

/-! ### Accepting an arm (R32) -/

/-- What a request to arm comes to: a status (0 accepted), a context stop, or a wait. -/
inductive ArmOut where
  | answer (code : Nat) (s : State)
  | stopped (s : State)
  | wait

/-- The refusal of an arm (R32, R58). -/
def State.armRefusal (s : State) (c n : Nat) : Option Nat :=
  let t := s.ctx c
  if t.cstate n = 0 then some 0x10
  else if 0 < s.waiters c n then some 0x12
  else if t.cstate n = 2 ∨ t.cstate n = 3 then some 0x11
  else if (t.cf n 0 27 25 ≠ 0 ∨ t.cf n 0 24 19 = 63) ∧ !t.svc then some 0x13
  else none
/-- A fatal error of an arm by core k, or by the host (R30, R349). -/
def State.armFatal (s : State) (c n k code aux : Nat) : State :=
  s.contextStop c code ⟨code, 0, 3, k, n, 7, 0, 0, 0, 0, aux⟩
/-- The accepted arm's own words: SERIAL, words 16 and 22 to 31 (R32, R47). -/
def Ctx.acceptWords (t : Ctx) (n : Nat) : Ctx :=
  let v := (t.cserial n + 1) % 2 ^ 32
  let u := ((t.setCf n 0 63 32 (if v = 0 then 1 else v)).setCw n 16 0).setCf n 17 37 21 0
  (upto 22 10).foldl (fun x k => x.setCw n k 0) u
/-- Bind the valid bindings to their producers' serials, up to a FAILED producer (R32, R51). -/
def Ctx.bindAll (t : Ctx) (n : Nat) (h : List Word) (nmsel : Bool) : List Nat → Ctx × Bool
  | [] => (t, true)
  | b :: r =>
    let w := t.card n
    if !bindUsed w b then t.bindAll n h nmsel r
    else
      let p := bindCard w b
      let t1 := t.setCf n (12 + b) 63 32 (t.cserial p)
      if t.cstate p = 5 then (t1, false)
      else
        let whole := decide (hNtin h ≤ b) || t.cf p 16 26 26 == 1 || nmsel
        (t1.setCf n (12 + b) 18 18 (b2n whole)).bindAll n h nmsel r

/-- An accepted kernel arm (R32), which releases `v` to the job (R33).  A job that chooses the near-memory variant becomes a run
(R37) though its spatial product be 0, for which R15 has it complete at arm: a DESIGN CHOICE (notes/assumptions/72.md). -/
def State.acceptKernel (s : State) (c n : Nat) (j0 : Job) (intens : Nat) (nmsel : Bool) (v : View) : State :=
  let j := { j0 with view := v }
  let s1 := s.modCtx c fun t =>
    let u := ((t.acceptWords n).setCf n 17 37 22 intens).setCf n 17 21 21 (b2n nmsel)
    { u with jobs := mset u.jobs n { j with snap := (u.card n).take 22 }, hdrs := mset u.hdrs n j.hdr }
  let b := (s1.ctx c).bindAll n j.hdr nmsel [0, 1, 2, 3]
  let s2 := s1.setCtx c b.1
  if !b.2 then s2.jobFail c n 0x20 0x64 0
  else
    let s3 := s2.allocTags c n j.hdr nmsel
    if !nmsel ∧ blockCount j.hdr j.trips = 0 then
      (s3.modCtx c fun t => (t.setCw n 24 s.rtime).setCf n 0 31 28 2).jobDone c n
    else s3.createJob c n j nmsel

/-! ### Service nodes (R38) -/

/-- A node's read of NADDR through the latest path at dev scope (R38): the word or the fault.  Uncorrectable or poisoned data
raise none, for no rule lists Campion's read: a DESIGN CHOICE, notes/assumptions/63.md. -/
def State.nodeRead (s : State) (c a : Nat) : Except Nat Nat :=
  match s.lookup c a with
  | .error f => .error f.1
  | .ok e =>
    if !pathAllowed (bits a 63 60) (xTier e.2) then .error 0x12
    else if xTop e.2 < a % 2 ^ 60 + 8 then .error 0x10
    else if !bit (xPerm e.2) 23 then .error 0x28
    else .ok (s.peek (xPhys e.2 (a % 2 ^ 60)) 8)
/-- A node's comparison. -/
def nodeCmp (op v x : Nat) : Bool := match op with
  | 0 => v == x
  | 1 => v != x
  | 2 => decide (v < x)
  | 3 => decide (x ≤ v)
  | 4 => decide (sgn 64 v < sgn 64 x)
  | _ => decide (sgn 64 x ≤ sgn 64 v)

/-- What a node does with the word it read: the target to arm and whether it loops on it. -/
def nodeChoice (w : List Word) (word iter : Nat) : Nat × Bool :=
  let v := word &&& wd w 18
  let b := nodeCmp (bits (wd w 21) 15 12) v (wd w 19)
  if ckind w = 3 then
    let i := v / 2 ^ bits (wd w 21) 11 6
    (nodeTgt w (if i < nodeCases w then i else 8), false)
  else if ckind w = 2 then
    if b && decide (iter < bits (wd w 2) 31 0) then (nodeTgt w 0, true) else (nodeTgt w 1, false)
  else (nodeTgt w (if b then 0 else 1), false)

/-- A node ends DONE, or goes on RUNNING; a target that has ended already is met again at once (R38). -/
def State.nodeEnd (s : State) (c n tgt : Nat) (loop : Bool) : State :=
  if !loop then s.jobDone c n
  else
    let s1 := s.modCtx c fun t => t.setCf n 0 31 28 3
    if tgt ≠ 0xFFF ∧ (s1.ctx c).cstate tgt ≥ 4 then { s1 with reev := s1.reev ++ [(Fin.ofNat 8 c, n)] } else s1

/-- Arm card n of context c (R32); `v`: what the arm releases; `k`: the core whose JARM asks, for the error record. A
node's target is armed at the
same point of the order; the chain of nodes ends at the latest at a node that is already ARMED. -/
def State.armCard : Nat → State → Nat → Nat → View → Nat → ArmOut
  | 0, s, _, _, _, _ => .answer 0x11 s
  | f + 1, s, c, n, v, k =>
    match s.armRefusal c n with
    | some code => .answer code s
    | none =>
      if (s.ctx c).cf n 0 27 25 = 0 ∨ 3 < (s.ctx c).cf n 0 27 25 then
        match s.kernelCheck c n with
        | .bad code aux => .stopped (s.armFatal c n k code aux)
        | .wait => .wait
        | .ok j intens nmsel => .answer 0 (s.acceptKernel c n j intens nmsel v)
      else match faultWord (nodeChecks n ((s.ctx c).card n)) with
        | some w => .stopped (s.armFatal c n k 0x21 w)
        | none =>
          let s1 := s.modCtx c fun t =>
            let u := (t.acceptWords n).setCf n 0 31 28 2
            { u with
              jobs := mset u.jobs n
                { snap := (u.card n).take 22, hdr := [], img := 0, imgExt := 0, trips := [], tokens := 0, grids := [],
                  nmdesc := [], nmrun := none, view := v, dview := v }
              hdrs := mdel u.hdrs n }
          let w := (s1.ctx c).card n
          match s1.nodeRead c (wd w 1) with
          | .error e => .answer 0 (s1.jobFail c n 0x20 e 0)
          | .ok x =>
            let ch := nodeChoice w x 0
            let s2 := if ch.2 then s1.modCtx c fun t => t.setCf n 22 15 0 1 else s1
            if ch.1 = 0xFFF then .answer 0 (s2.nodeEnd c n ch.1 ch.2)
            else match s2.armCard f c ch.1 v k with
              | .wait => .wait
              | .stopped u => .stopped u
              | .answer 0 u => .answer 0 (u.nodeEnd c n ch.1 ch.2)
              | .answer r u => .answer 0 (u.jobFail c n 0x23 r ch.1)

/-- Re-evaluate loop node n, whose TGT0 has ended (R38); none while its target's arm must wait. -/
def State.nodeAgain (s : State) (c n : Nat) : Option State :=
  let t := s.ctx c
  let w := t.card n
  let tgt := nodeTgt w 0
  if t.cstate n ≠ 3 then some s
  else if t.cstate tgt = 5 then some (s.jobFail c n 0x22 (t.cf tgt 23 63 56) tgt)
  else if t.cstate tgt ≠ 4 then some s
  else match s.nodeRead c (wd w 1) with
    | .error e => some (s.jobFail c n 0x20 e 0)
    | .ok x =>
      let ch := nodeChoice w x (t.cf n 22 15 0)
      let s1 := if ch.2 then s.modCtx c fun u => u.setCf n 22 15 0 (t.cf n 22 15 0 + 1) else s
      if ch.1 = 0xFFF then some (s1.nodeEnd c n ch.1 ch.2)
      else match s1.armCard 4097 c ch.1 ((mgetD t.dviews tgt []).join ((mget t.jobs n).elim [] fun j => j.view)) 0 with
        | .wait => none
        | .stopped u => some u
        | .answer 0 u => some (u.nodeEnd c n ch.1 ch.2)
        | .answer r u => some (u.jobFail c n 0x23 r ch.1)
/-- Whether Campion takes requests of a context: a debugger's halt holds its arms, node re-evaluations and other requests
until the resume, a DESIGN CHOICE (R60, R360; notes/assumptions/64.md). -/
def State.ctxActs (s : State) (c : Nat) : Bool :=
  !s.down && s.hasCtx c && !(s.ctx c).stopped && !(s.ctx c).halted
/-- Re-evaluate the loop nodes that are due, in their order; what is left is met with Campion's next event or turn. -/
def State.reevaluate : Nat → State → State
  | 0, s => s
  | f + 1, s =>
    match s.reev.find? fun e => s.ctxActs e.1.val with
    | none => s
    | some e =>
      match ({ s with reev := s.reev.erase e } : State).nodeAgain e.1.val e.2 with
      | none => s
      | some t => t.reevaluate f
/-- The end of an event of Campion: the loop nodes that are due are re-evaluated (R38). -/
def State.campionEnd (s : State) : State := s.reevaluate 131072

/-! ### Requests -/

/-- The answer of Campion reaches the register of C that waits for it (R285, R286). -/
def State.answerC (s : State) (k : Nat) (d : SIx) (v : Word) : State :=
  s.modCore k fun c =>
    if c.r.c.await.contains d then
      ({ c with r := { c.r with c := { c.r.c with s := c.r.c.s.set d v, await := c.r.c.await.erase d } } } : Core).wake
    else c
/-- A request of q24 whose form stands after an acquire of `v`: what it releases happens after that too. -/
def JobReq.after (v : View) : JobReq → JobReq
  | .pub slot tile u => .pub slot tile (u.join v)
  | .ready slot tile u => .ready slot tile (u.join v)
  | .arm n d u => .arm n d (u.join v)
  | q => q
/-- An answer that acquires: what it releases, a refresh at dev, C's later reads after it, and what the later requests
release (R266, R285, R286). -/
def State.answerAcquire (s : State) (k : Nat) (v : View) : State :=
  ((s.learn k v).refresh k).modCore k fun c =>
    { c with r := { c.r with c := c.r.c.orderReads s.wseq }, q24 := c.q24.map (JobReq.after v) }
/-- The first request of q24 leaves it; a stream that waits for room goes on. -/
def State.dropReq (s : State) (k : Nat) : State := s.modCore k fun c => ({ c with q24 := c.q24.tail } : Core).retry

/-- The refusal entry of a host arm (R42). -/
def State.refusalEntry (s : State) (c n code : Nat) : State :=
  let t := s.ctx c
  let e := cqWords (t.cf n 7 63 32) (t.cserial n) code n 0 0
  s.cqPut c e.1 e.2 (t.cf n 0 9 9 == 1)

/-- The first arm request of the host's ARM register of a context.  It takes effect after every host write made before it,
those that a pin holds back included (R33). -/
def State.hostArm (s : State) (c : Nat) : State :=
  match s.arms.find? fun a => a.1.val == c with
  | none => s
  | some a =>
    let s1 : State := { s with arms := s.arms.erase a }
    if s.hostHeld a.2.2 then s
    else match s1.armCard 4097 c a.2.1 (View.put [] hostAgent a.2.2) 0 with
    | .wait => s
    | .stopped t => t
    | .answer 0 t => t.campionEnd
    | .answer r t => t.refusalEntry c a.2.1 r
/-- A JARM at the head of core k's q24. -/
def State.coreArm (s : State) (k : Nat) : State :=
  match (s.core k).q24 with
  | .arm n d v :: _ =>
    match (s.dropReq k).armCard 4097 (s.core k).res.ctx.val n v k with
    | .wait => s
    | .stopped t => t
    | .answer r t => (t.answerC k d (w64 r)).campionEnd
  | _ => s
def execArmRequest (ctx : Fin 8) (core : Option Nat) (s : State) : Out :=
  .next (match core with
    | none => if s.ctxActs ctx.val then s.hostArm ctx.val else s
    | some k =>
      if s.ctxActs (s.core k).res.ctx.val && (s.core k).res.ctx == ctx && (s.core k).blk.isSome then s.coreArm k else s)

/-- The answer of a JPATCH, and the card after it (R34). -/
def Ctx.patch (t : Ctx) (n word : Nat) (v : Word) : Nat × Ctx :=
  if t.cstate n = 0 then (0x10, t)
  else if t.cstate n = 2 ∨ t.cstate n = 3 then (0x11, t)
  else (0, if word = 7 then t.setCf n 7 63 32 (v.toNat / 2 ^ 32) else t.setCw n word v.toNat)
/-- Whether core k's requests reach Campion. -/
def State.asks (s : State) (k : Nat) : Bool := (s.core k).blk.isSome && s.ctxActs (s.core k).res.ctx.val
def execPatchRequest (k : Nat) (s : State) : Out :=
  .next (match (s.core k).q24 with
    | .patch n word v d :: _ =>
      if s.asks k then
        let c := (s.core k).res.ctx.val
        let p := (s.ctx c).patch n word v
        ((s.dropReq k).setCtx c p.2).answerC k d (w64 p.1)
      else s
    | _ => s)

/-- The JSTAT word (R286 Table 5). -/
def Ctx.statWord (t : Ctx) (n : Nat) : Word :=
  w64 (t.cserial n * 2 ^ 32 + t.cstate n * 2 ^ 28 + t.cf n 23 55 48 * 2 ^ 20 + min (t.cf n 22 39 16) 0xFFFFF)
/-- Code of a tile's state (R45). -/
def TagState.code : TagState → Nat
  | .empty => 0 | .pending => 1 | .ready => 2 | .void => 3
/-- The TAGTEST word for tile `tile` of binding b of card n, with what a READY answer releases (R285 Table 3).  RANGE is
judged by the arm that the binding was bound to. -/
def State.testWord (s : State) (c n : Nat) (h : List Word) (b tile : Nat) : Nat × View :=
  let t := s.ctx c
  let w := t.card n
  let p := bindCard w b
  let g := (mget t.jobs n).elim 0 fun j => j.grids.getD b 0
  if !bindUsed w b then (0x40, [])
  else if gridSize g ≤ tile then (0x80, [])
  else
    let stale := t.cserial p != bindSer w b
    let live := t.cstate p == 2 || t.cstate p == 3
    let ended := mgetD t.dviews p []
    let st : Nat × View :=
      if stale then (0, [])
      else if bindWhole w b then (if t.cstate p = 4 then 2 else if t.cstate p = 5 then 3 else 0, ended)
      else if live then
        (mget s.tags (t.cf p 16 63 47 + slotBase (mgetD t.hdrs p []) (mapSlot h b) + tile)).elim (0, []) fun x =>
          (x.state.code, x.view)
      else if t.cf p 23 55 48 ≠ 0 then (3, [])
      else (2, ended)
    (b2n (t.cstate p == 4) * 32 + b2n (bindWhole w b) * 16 + b2n stale * 8 + st.1, st.2)
/-- Campion answers a JSTAT or TAGTEST; one that reads DONE, or a READY tile that is not stale, is an acquire (R285,
R286). -/
def execCampionAnswer (k : Nat) (s : State) : Out :=
  .next (if !s.asks k then s
    else
      let r := (s.core k).res
      let t := s.ctx r.ctx.val
      match (s.core k).q24 with
      | .stat n d :: _ =>
        let u := (s.dropReq k).answerC k d (t.statWord n)
        if t.cstate n = 4 then u.answerAcquire k (mgetD t.dviews n []) else u
      | .test b tile d :: _ =>
        let v := s.testWord r.ctx.val r.card r.hdr b tile.toNat
        let u := (s.dropReq k).answerC k d (w64 v.1)
        if v.1 % 4 = 2 ∧ v.1 / 8 % 2 = 0 ∧ v.1 < 0x40 then u.answerAcquire k v.2 else u
      | _ => s)

/-- A TAGPUB, TAGPUB.P or the publication a PHASE sends reaches Campion (R48, R52, R53).  A tile that two TAGPUB.P made
PENDING leaves PENDING with the first end or cancel of either phase, as Table 2's rows apply one by one
(notes/assumptions/47.md). -/
def execTagPublication (k : Nat) (s : State) : Out :=
  .next (if !s.asks k then s
    else
      let u := s.dropReq k
      match (s.core k).q24 with
      | .pub slot tile v :: _ => (s.tileEntry k slot tile).elim u (u.publishTile k v)
      | .ready slot tile v :: _ => (s.tileEntry k slot tile).elim u (u.publishPending k v)
      | .pending slot tile _ :: _ => (s.tileEntry k slot tile).elim u u.tagPend
      | _ => s)

/-! ### A near-memory run of a job (R37, R327) -/

/-- What the arm of card n and its bindings' producers, which have all completed, release to its run (R33, R54). -/
def Ctx.runView (t : Ctx) (n : Nat) (j : Job) : View :=
  ((upto 0 4).filter (bindUsed (t.card n))).foldl (fun v b => v.join (mgetD t.dviews (bindCard (t.card n) b) [])) j.view
/-- The start of a job's near-memory run once its bindings have completed: the region checks and the leases of its extents,
then the run of the descriptor that the arm checked. -/
def execVariantRunStart (ctx : Fin 8) (card : Fin 4096) (s : State) : Out :=
  .next (
    let c := ctx.val
    let n := card.val
    let t := s.ctx c
    match mget t.jobs n with
    | none => s
    | some j =>
      if !s.ctxActs c ∨ t.cstate n ≠ 2 ∨ t.cf n 17 21 21 = 0 ∨ j.nmrun.isSome ∨
          (s.links.any fun l => l.ctx == ctx && l.card == n) then s
      else
        let d := j.nmdesc
        match t.nmFault d j.trips <|> s.leaseFaultOf c (t.nmExts d) with
        | some f => s.contextStop c f.1 ⟨f.1, f.2, 3, 0, n, 4, 0, 0, 0, 0, 0⟩
        | none =>
          let v := t.runView n j
          let g := s.newAgent moduleClass
          let u := g.2.modCtx c fun x =>
            { (x.setCw n 24 s.rtime).setCf n 0 31 28 3 with
              jobs := mset x.jobs n { j with nmrun := some s.nextRun } }
          u.startRun (newRun ctx none (some n) none 0 d j.trips
            { EView.none with clk := v, rfc := v, seq := s.wseq, id := g.1 }))

end Sys2Proof.Machine
end

