-- ==== Sys2Proof/Machine/Place.lean ====
section
/-!
DEFINITION. Sys2Proof/Machine/Place.lean: which ready entry runs next and where, the launch of a block, aging, and retirement
(R12, R17, R36, R58, R59, R63 to R69, R179, R184, R185, R357, R358, R392 to R396).
-/
namespace Sys2Proof.Machine
open Sys2Proof

/-! ### Idle cores and grants (R12, R66, R184) -/

/-- Idle cores of a die in ascending logical order (R66). -/
def State.idleCores (s : State) (die : Nat) : List Nat :=
  s.cores.filterMap fun e => if e.1 / 64 = die ∧ e.2.idle then some e.1 else none
/-- Whether a killed member of a gang still has commands running (R352), which may use the gang's elastic scratch: until they
have completed the kill is not done and the grant in force (R185; notes/assumptions/69.md). -/
def State.gangDying (s : State) (c key : Nat) : Bool :=
  s.cores.any fun e => e.2.mark == .dying && e.2.blk.any fun r => r.ctx.val == c && gkey r.card r.gang == key
/-- The grants in force on a die, in 64 KiB units (R184). -/
def State.granted (s : State) (die : Nat) : Nat :=
  (s.ctxs.flatMap fun e => e.2.gangs.map fun g =>
    if (g.2.placed ∨ s.gangDying e.1 g.1) ∧ g.2.die = die then g.2.grant.getD 0 else 0).sum
/-- The units of a die that no grant in force takes (R184). -/
def State.llcFree (s : State) (die : Nat) : Nat := 2048 - s.granted die
/-- The grant that a gang has had before, which it takes again (R185). -/
def State.oldGrant (s : State) (c card gang : Nat) : Option Nat := (mget (s.ctx c).gangs (gkey card gang)).bind fun g => g.grant
/-- LLCMIN and LLCMAX of a card's job. -/
def State.llcMin (s : State) (c card : Nat) : Nat := (mget (s.ctx c).jobs card).elim 0 fun j => hbits j.hdr 5 39 24
def State.llcMax (s : State) (c card : Nat) : Nat := (mget (s.ctx c).jobs card).elim 0 fun j => hbits j.hdr 5 23 8
/-- Whether a die can grant a gang: its first grant, whatever the hit rate, or the same amount again (R12, R184, R185). -/
def State.canGrant (s : State) (c card gang die : Nat) : Bool :=
  match s.oldGrant c card gang with
  | some g => decide (g ≤ s.llcFree die)
  | none => decide (s.llcMin c card ≤ min (s.llcMax c card) (s.llcFree die))
/-- The grant at a placement, by the die's hit rate over the last 16 µs, 0 to 256 in 256ths: the manual does not say which
it is, a free value (R184; notes/assumptions/9.md). -/
def State.grantFor (s : State) (c card gang die : Nat) : Nat × State :=
  match s.oldGrant c card gang with
  | some g => (g, s)
  | none =>
    let lo := s.llcMin c card
    let hi := s.llcMax c card
    let d := s.draw
    (min hi (min (s.llcFree die) (lo + (hi - lo) * (256 - d.1 % 257) / 256)), d.2)

/-! ### Eligible entries (R65) -/

def REntry.head (e : REntry) : Nat := e.blocks.headD 0
/-- The record an entry stands for first. -/
def State.entryRec (s : State) (e : REntry) : Option Rec := mget (s.ctx e.ctx.val).recs (gkey e.card e.head)
/-- What names an entry in a reservation: context, card, first block. -/
def REntry.name (e : REntry) : Nat × Nat × Nat := (e.ctx.val, e.card, e.head)
/-- Queued entries with their levels, the highest level first, each level in the order of joining. -/
def State.entries (s : State) : List (Nat × REntry) :=
  (upto 0 64).flatMap fun k => (s.ready[63 - k]!).map fun e => (63 - k, e)
/-- The level of a queued entry, by name. -/
def State.levelOf (s : State) (n : Nat × Nat × Nat) : Option Nat :=
  (s.entries.find? fun e => e.2.name == n).map fun e => e.1

/-- Whether Campion launches blocks of a context (R65). -/
def State.ctxLaunches (s : State) (c : Nat) : Bool := s.ctxActs c && decide ((s.ctx c).cqheld.length < 64)
/-- Whether the extent of a job's image is in revocation: its launches wait (R8). -/
def State.imageWaits (s : State) (c card : Nat) : Bool :=
  let t := s.ctx c
  (mget t.jobs card).any fun j => (t.findExt (wd j.snap 1 % 2 ^ 60)).any fun e => xRvk e.2
/-- Whether an entry may be placed on a die, cores apart (R65). -/
def State.eligible (s : State) (e : REntry) (die : Nat) : Bool :=
  match s.entryRec e with
  | none => false
  | some r =>
    s.ctxLaunches e.ctx.val && !s.imageWaits e.ctx.val e.card && (r.dieFix.all fun d => d == die) &&
      !(s.gangDying e.ctx.val (gkey e.card r.gang) && (s.oldGrant e.ctx.val e.card r.gang).any fun g => decide (0 < g)) &&
      s.canGrant e.ctx.val e.card r.gang die

/-! ### Held cores and the choice (R66, R67) -/

/-- Cores held for a die's reservation: the idle ones that are lowest now, as many as the gang has members, so a held core is
given up when a lower one becomes idle: a DESIGN CHOICE (R67; notes/assumptions/56.md). -/
def State.reservedCores (s : State) (die : Nat) : Option (Nat × (Nat × Nat × Nat) × List Nat) :=
  (mget s.resv die).bind fun n =>
    (s.entries.find? fun e => e.2.name == n).map fun e => (e.1, n, (s.idleCores die).take e.2.blocks.length)
/-- Whether core k is held for another entry against entry e of a level. -/
def State.heldFrom (s : State) (k lvl : Nat) (e : REntry) : Bool :=
  ((s.core k).heldFor.any fun n => n != e.name && (s.levelOf n).any fun l => decide (lvl ≤ l)) ||
    (s.reservedCores (k / 64)).any fun r => r.2.1 != e.name && decide (lvl ≤ r.1) && r.2.2.contains k
/-- Whether core k is held for another entry, whatever its level. -/
def State.heldOther (s : State) (k : Nat) (e : REntry) : Bool :=
  ((s.core k).heldFor.any fun n => n != e.name && (s.levelOf n).isSome) ||
    (s.reservedCores (k / 64)).any fun r => r.2.1 != e.name && r.2.2.contains k
/-- Idle cores of a die that an entry may take: first those held for no other, then those held for an entry of a lower
level, each in ascending order (R67; notes/assumptions/56.md). -/
def State.coresFor (s : State) (lvl : Nat) (e : REntry) (die : Nat) : List Nat :=
  let ks := (s.idleCores die).filter fun k => !s.heldFrom k lvl e
  (ks.filter fun k => !s.heldOther k e) ++ ks.filter fun k => s.heldOther k e
/-- The better of the dies a gang may go to: the one with more idle cores, die 0 on a tie (R67). -/
def State.betterDie (s : State) (ds : List Nat) : Option Nat :=
  if ds.contains 1 ∧ (!ds.contains 0 ∨ (s.idleCores 0).length < (s.idleCores 1).length) then some 1
  else if ds.contains 0 then some 0 else none
/-- Whether a gang can be placed on a die (R65, R67). -/
def State.gangFits (s : State) (lvl : Nat) (e : REntry) (d : Nat) : Bool :=
  s.eligible e d && decide (e.blocks.length ≤ (s.coresFor lvl e d).length)
/-- Where a gang places, its ranks in ascending order of the cores (R67).  The die is the better of those that can grant and
hold it now, R12 letting it on no other: DEDUCED, notes/assumptions/56.md. -/
def State.gangCores (s : State) (lvl : Nat) (e : REntry) : Option (List Nat) :=
  (s.betterDie ([0, 1].filter (s.gangFits lvl e))).map fun d =>
    sortBy (fun a b => a ≤ b) ((s.coresFor lvl e d).take e.blocks.length)
/-- What core k takes: the first entry eligible for it, a gang only where it can be placed on k's own die (R65), with the
cores it starts on (R66). -/
def State.pick (s : State) (k : Nat) : Option (Nat × REntry × List Nat) :=
  s.entries.findSome? fun x =>
    if s.heldFrom k x.1 x.2 || !s.eligible x.2 (k / 64) then none
    else if x.2.gang then
      if s.gangFits x.1 x.2 (k / 64) then (s.gangCores x.1 x.2).map fun ks => (x.1, x.2, ks) else none
    else some (x.1, x.2, [k])
/-- Campion's next placement: idle cores are served die 0 first, in ascending order (R66). -/
def State.nextPlacement (s : State) : Option (Nat × REntry × List Nat) :=
  (s.idleCores 0 ++ s.idleCores 1).findSome? fun k => s.pick k

/-- A gang that is first at the highest level that holds an entry and cannot place reserves a die (R67). -/
def State.reserve (s : State) : State :=
  match s.entries.head? with
  | none => s
  | some x =>
    let e := x.2
    if !e.gang ∨ (s.resv.any fun r => r.2 == e.name) ∨ (s.gangCores x.1 e).isSome then s
    else
      let d := match (s.entryRec e).bind fun r => r.dieFix with
        | some d => d
        | none => (s.betterDie [0, 1]).getD 0
      if (mget s.resv d).any fun n => (s.levelOf n).isSome then s else { s with resv := mset s.resv d e.name }

/-! ### Launching a block (R17, R36, R59, R179, R357, R358) -/

/-- A stream at block start: its loop counters hold the block's coordinates (R17). -/
def startStream (j : Job) (lin : Nat) : Stream :=
  { Stream.init with
    pos := ⟨hbits j.hdr 1 39 16, 1, 0⟩
    lc := Vector.ofFn fun i => if loopKind j.hdr i.val < 2 then 0 else BitVec.ofNat 32 (blockCoord j.hdr j.trips lin i.val) }
/-- What the core of a record is told at launch (R36). -/
def State.resident (s : State) (c : Nat) (j : Job) (r : Rec) (llc : Nat) (frame : Word) (img ext k : Nat) : Resident where
  ctx := Fin.ofNat 8 c
  card := r.card
  block := r.block
  serial := r.serial
  rank := r.rank
  gang := r.gang
  gsize := hGsize j.hdr
  prio := r.prio
  hdr := s.headerAt img
  img := img
  imgExt := ext
  frame := frame
  jarg := (j.snap.drop 8).take 4
  trip := (upto 0 8).map fun i => BitVec.ofNat 32 (j.trips.getD i 0)
  llc := llc * 65536
  since := s.rtime
  cyc0 := (s.core k).cycle
/-- What a launch, resume or re-run of a core learns and refreshes (R33, R54, R271). -/
def Core.launched (v : View) (wseq : Nat) (c : Core) : Core :=
  let d := { c with seen := [], clk := c.clk.join v, rfc := c.rfc.join (c.clk.join v), r := c.r.orderReads wseq }
  { d with prec := { d.prec with regs := d.r } }
/-- A core that starts a block afresh: cleaned, its streams at the entry line. -/
def Core.freshStart (c : Core) (b : Resident) (j : Job) (v : View) (wseq : Nat) : Core :=
  let st := startStream j b.block
  ({ c.leave with
    blk := some b
    r := { Regs.init with c := st, a := st, v := st }
    ph := 1
    heldFor := none } : Core).launched v wseq
/-- A core that resumes a checkpointed block (R20, R353, R356, R357). -/
def Core.resume (c : Core) (b : Resident) (ck : Ckpt) (v : View) (wseq : Nat) : Core :=
  let old (q : List (Word × Nat)) : List (Word × Nat) := q.map fun x => (x.1, 0)
  ({ c.leave with
    blk := some b
    r := ck.regs
    trapinfo := ck.trapinfo
    phasecnt := ck.phasecnt
    sem := ck.sem
    scr := ck.scr
    acc := ck.acc
    ring := ck.ring
    q10 := ck.q10.map fun x => (x.1, 0)
    q17 := old ck.q17
    q21 := old ck.q21
    q23 := old ck.q23
    q25 := ck.q25.map fun x => { x with ph := 0 }
    cseq := ck.cseq
    eseq := ck.eseq
    nmseq := ck.nmseq
    acqs := ck.acqs
    semv := ck.semv
    ph := 1
    prec := ⟨ck.regs, fpOf ck.scr, [], ck.ring, ck.cseq, ck.eseq⟩
    heldFor := none } : Core).launched (v.join ck.clk) wseq

/-- Translate a saved handle again if its extent has been revoked (R179). -/
def State.retranslate (s : State) (c : Nat) (revoked : List Nat) (h : Handle) : Except (Nat × Nat × Nat) Handle :=
  if hKind h = 0 ∧ hValid h ∧ revoked.contains (hExt h) then
    match s.translate c (hBase h) (hLen h) with
    | .ok x => .ok x
    | .error f => .error (f.1, f.2, hBase h)
  else .ok h
/-- The first fault among the newest versions of a core's handles at a resume. -/
def State.resumeFault (s : State) (k : Nat) : Option (Nat × Nat × Nat) :=
  let c := s.core k
  c.r.h.toList.findSome? fun v => v.findSome? fun x =>
    match s.retranslate c.res.ctx.val c.retr x.2.2 with
    | .error f => some f
    | .ok _ => none
/-- Translate a resumed core's revoked handles again; a fault waits for its answer (R176, R179). -/
def State.retranslateAll (s : State) (k : Nat) : State :=
  match s.resumeFault k with
  | some f => s.modCore k fun c => { c with tfault := some f }
  | none =>
    let go (c : Core) (x : Handle) : Handle := match s.retranslate c.res.ctx.val c.retr x with
      | .ok y => y
      | .error _ => x
    s.modCore k fun c =>
      let h := c.r.h.map fun v => v.map fun x => (x.1, x.2.1, go c x.2.2)
      { c with r := { c.r with h := h }, prec := { c.prec with regs := { c.prec.regs with h := h } }, retr := [], tfault := none }

/-- Whether a binding's producer has been armed again since (R59). -/
def Ctx.stale (t : Ctx) (n : Nat) : Bool :=
  let w := t.card n
  (upto 0 4).any fun b => bindUsed w b && t.cserial (bindCard w b) != bindSer w b
/-- The image of a job translated afresh: its extent and address, or the fault (R8). -/
def State.imageAt (s : State) (c : Nat) (j : Job) : Except Nat (Nat × Nat) :=
  let v := wd j.snap 1 % 2 ^ 60
  match (s.ctx c).findExt v with
  | none => .error 0x10
  | some e =>
    if s.lapsed c e.2 then .error 0x13
    else if 1 < xTier e.2 ∨ xTop e.2 < v + imageBytes j.hdr then .error 0x10
    else .ok (e.1, xPhys e.2 v)

/-- Extents of a context whose revocation is in progress: a checkpointed block has acknowledged it, so a resume translates
handles of them again too, which waits (R176, R177, R179). -/
def Ctx.revoking (t : Ctx) : List Nat := t.revs.map fun v => v.ext
/-- No read reaches back to what an earlier block left in a core's scratch (R394, R395). -/
def State.cutHist (s : State) (k : Nat) : State := { s with ghist := mcut s.ghist ((Where.scr k).key 0) ((Where.scr (k + 1)).key 0) }
/-- Start, resume or re-run the block of a record on core k (R66). -/
def State.startBlock (s : State) (c key k : Nat) : State :=
  let t := s.ctx c
  match mget t.recs key with
  | none => s
  | some r =>
    match mget t.jobs r.card with
    | none => s
    | some j =>
      let ck := r.ckpt.bind fun n => mget t.cks n
      let line := ck.elim (hbits j.hdr 1 39 16) fun x => x.regs.c.pos.line
      let pos := ck.elim (Pos.mk line 0 0) fun x => x.regs.c.pos
      let err (code : Nat) : CtxErr := ⟨code, 0, 0, k, r.card, 0, r.block, pos.line, pos.lane, pos.lseq, wd j.snap 1⟩
      match s.imageAt c j with
      | .error code => s.contextStop c code (err code)
      | .ok (ext, img) =>
        let llc := ((mget t.gangs (gkey r.card r.gang)).bind fun g => g.grant).getD 0
        let frame := ck.elim (w64 (wd j.snap 6)) fun x => x.frame
        let b := s.resident c j r llc frame img ext k
        let s1 := (s.cutHist k).modCtx c fun u =>
          let first := u.cstate r.card == 2
          let v := if first then (u.setCw r.card 24 s.rtime).setCf r.card 0 31 28 3 else u
          { v with
            recs := mset v.recs key { r with core := some k, ckpt := none }
            cks := r.ckpt.elim v.cks fun n => mdel v.cks n }
        match ck with
        | some x =>
          let s2 := s1.modCore k fun o => { o.resume b x r.view s.wseq with retr := x.revoked ++ t.revoking }
          (s2.modCore k fun o => { o with prec := { o.prec with efp := s2.efpOf k } }).retranslateAll k
        | none =>
          let s2 := s1.modCore k fun o => o.freshStart b j r.view s.wseq
          match s2.targetFault b line with
          | some code => s2.contextStop c code { err code with aux := 0 }
          | none => s2

/-- A gang is placed with its grant fixed (R12, R67), which reads zero with F = 0 (R184). -/
def State.placeGang (s : State) (c card gang die : Nat) : State :=
  let g := s.grantFor c card gang die
  g.2.modCtx c fun t =>
    let x := mgetD t.gangs (gkey card gang) GangSt.init
    let size := (mget t.jobs card).elim 1 fun j => hGsize j.hdr
    { t with gangs := mset t.gangs (gkey card gang) { x with placed := true, die := die, grant := some g.1, size := size, elastic := [] } }
/-- An entry leaves its queue; nothing is held for it any more. -/
def State.unqueue (s : State) (lvl : Nat) (e : REntry) : State :=
  let i : Fin 64 := Fin.ofNat 64 lvl
  { s with
    ready := s.ready.set i (s.ready[i].erase e)
    resv := s.resv.filter fun r => r.2 != e.name
    cores := s.cores.map fun x => (x.1, if x.2.heldFor = some e.name then { x.2 with heldFor := none } else x.2) }
/-- The stale-tag fault: reported as a fatal error is, in the black-box record and the context error record, but only the
job ends (R59; notes/assumptions/13.md). -/
def State.staleFault (s : State) (e : REntry) (k : Nat) : State :=
  let c := e.ctx.val
  let x : CtxErr := ⟨0x2E, 0, 3, k, e.card, 7, e.head, 0, 0, 0, 0⟩
  let s1 := (s.logEv { Ev.of 0x01 0x2E c with
    die := k / 64 % 2, lcore := k % 64, stream := 3, agent := 7, card := e.card, block := e.head }).modCtx c fun t =>
      t.fillErr (x.words s.rtime)
  (s1.jobFail c e.card 0x20 0x2E e.head).campionEnd
/-- Place an entry on its cores, after the serial comparison (R59, R67). -/
def State.placeEntry (s : State) (lvl : Nat) (e : REntry) (ks : List Nat) : State :=
  let c := e.ctx.val
  let s1 := s.unqueue lvl e
  if (s.ctx c).stale e.card then s1.staleFault e (ks.headD 0)
  else
    let gang := (s.entryRec e).elim 0 fun r => r.gang
    let s2 := s1.placeGang c e.card gang (ks.headD 0 / 64)
    (e.blocks.zip ks).foldl (fun (t : State) x => if (t.ctx c).stopped then t else t.startBlock c (gkey e.card x.1) x.2) s2

/-- Campion's next placement, if it is of a gang or not as asked. -/
def State.placeNext (s : State) (gang : Bool) : State :=
  let s1 := s.reserve
  match s1.nextPlacement with
  | some (lvl, e, ks) => if e.gang == gang then s1.placeEntry lvl e ks else s1
  | none => s1
def execLaunch (s : State) : Out := .next (if s.down then s else s.placeNext false)
def execGangPlacement (s : State) : Out := .next (if s.down then s else s.placeNext true)

/-! ### Aging (R68) -/

/-- Whether a queued entry's wait has reached the quantum. -/
def State.ageDue (s : State) (x : Nat × REntry) : Bool :=
  decide (x.1 ≤ 58) && (s.entryRec x.2).any fun r => decide (250 ≤ (s.enqt - r.enqt).toNat)
/-- A queued entry rises a level. -/
def State.ageEntry (s : State) (lvl : Nat) (e : REntry) : State :=
  let i : Fin 64 := Fin.ofNat 64 lvl
  let s1 : State := { s with ready := s.ready.set i (s.ready[i].erase e) }
  (s1.modCtx e.ctx.val fun t =>
    { t with recs := e.blocks.foldl (fun m b =>
        match mget m (gkey e.card b) with
        | some x => mset m (gkey e.card b) { x with prio := lvl + 1, enqt := s.enqt }
        | none => m) t.recs }).appendReady (lvl + 1) e
/-- The entries at levels 0 to 58 whose quantum has passed rise, at one point of Campion's order: in ascending card index and
linear block index, a gang by its rank-0 member (R63), of equal ones the lower context first (notes/assumptions/57.md). -/
def execAging (s : State) : Out :=
  .next (if s.down then s
    else
      let place (x : Nat × REntry) : Nat := gkey x.2.card ((s.entryRec x.2).elim x.2.head fun r => r.gang) * 8 + x.2.ctx.val
      (sortBy (fun a b => place a ≤ place b) (s.entries.filter s.ageDue)).foldl (fun t x => t.ageEntry x.1 x.2) s)

/-! ### Retirement (R275, R392 to R396) -/

/-- Once every other member of a gang has left its core, a requeued gang may join its queue. -/
def State.gangRejoin (s : State) (c card gang : Nat) : State :=
  match (s.ctx c).gangRecs card gang with
  | [] => s
  | m :: _ => s.enqueue c m.1

/-- The retirement of the block on core k (R392). -/
def State.retire (s : State) (k : Nat) : State :=
  let c := s.core k
  let r := c.res
  let x := r.ctx.val
  let gone := c.nmseq.map fun e => e.2
  let s1 := (s.addStats k).ackRvks k
  let s2 : State := { s1 with runs := s1.runs.filter fun e => !(gone.contains e.1 && e.2.done) }
  let s3 := s2.modCtx x fun t =>
    let left := t.cf r.card 22 39 16 - 1
    { (t.setCf r.card 31 63 56 (t.cf r.card 31 63 56 ||| c.allFlags)).setCf r.card 22 39 16 left with
      recs := mdel t.recs (gkey r.card r.block)
      jobs := match mget t.jobs r.card with
        | some j => mset t.jobs r.card { j with dview := j.dview.join c.clk }
        | none => t.jobs
      wdcnt := 0 }
  let s4 := ((s3.gangLeave x r.card r.gang).modCore k Core.leave).modCtx x fun t => t.gangRelease r.card r.gang
  if (s4.ctx x).cf r.card 22 39 16 = 0 then (s4.jobDone x r.card).campionEnd else s4.gangRejoin x r.card r.gang

def execBlockRetirement (k : Nat) (s : State) : Out :=
  .next (
    let c := s.core k
    if !s.asks k || !c.ended || s.enginesBusy k || !c.q24.isEmpty || !c.comm.isEmpty || c.mark == .dying
    then s else s.retire k)

/-! ### Watchdog and starvation (R350, R359) -/

def execWatchdogExpiry (ctx : Fin 8) (s : State) : Out :=
  .next (
    let t := s.ctx ctx.val
    if s.down || !s.hasCtx ctx.val || t.stopped || t.wdcnt < t.wdlim.toNat * 1000000 then s
    else match s.coresOf ctx.val fun _ => true with
      | [] => s
      | k :: _ => s.contextStop ctx.val 0x2F (s.errAgent k 7 0x2F 0 0))

/-- A core whose three streams have been blocked for 2^20 clocks (Machine/Run.lean counts them); the lowest of them is C
(R88, R350). -/
def execQueueStarvation (k : Nat) (s : State) : Out :=
  .next (
    let c := s.core k
    if c.blk.isNone || s.down || (s.ctx c.res.ctx.val).halted || c.starve < 2 ^ 20 then s
    else s.contextStop c.res.ctx.val 0x2B (s.errAt k .c c.r.c.pos 0x2B 0 0))

end Sys2Proof.Machine
end

