-- ==== Sys2Proof/Machine/Preempt.lean ====
section
/-!
DEFINITION. Sys2Proof/Machine/Preempt.lean: pre-emption by drain, kill and checkpoint (R13, R185, R280, R351, R352).
-/
namespace Sys2Proof.Machine
open Sys2Proof

/-- Remaining time of the block on core k in reference ns; none without an estimate (R13). -/
def State.remaining (s : State) (k : Nat) : Option Nat :=
  let r := (s.core k).res
  if hbits r.hdr 6 63 32 = 0 then none else some (hbits r.hdr 6 63 32 * 16 - (s.rtime - r.since))

/-- The actions on a victim (R351), with their codes in the record (R421) and their costs. -/
inductive PreAct where
  | drain | kill | ckpt
  deriving DecidableEq, Repr
def PreAct.code : PreAct → Nat
  | .drain => 0 | .kill => 1 | .ckpt => 2

/-- PCLASS of a block's job, and its context's free checkpoint slots. -/
def State.pclass (s : State) (k : Nat) : Nat :=
  let r := (s.core k).res
  (mget (s.ctx r.ctx.val).jobs r.card).elim 0 fun j => bits (wd j.snap 0) 12 11
def Ctx.ckfree (t : Ctx) : Nat := t.ckslots - t.cks.length

/-- The action on the block of core k, if one is available (R351). -/
def State.preAct (s : State) (k : Nat) : Option PreAct :=
  let r := (s.core k).res
  let t := s.ctx r.ctx.val
  if (s.remaining k).any fun n => decide (n < t.pdrain.toNat * 16) then some .drain
  else if bit (r.hw 3) 51 ∧ s.pclass k = 0 ∧ s.rtime - r.since < t.pkill.toNat * 16 then some .kill
  else if s.pclass k ≠ 2 ∧ 0 < t.ckfree then some .ckpt
  else none

/-- A group of victims taken together: its cores with their actions, and its cost (R185, R351). -/
structure Victims where
  cores : List (Nat × PreAct)
  cost  : Nat
  deriving DecidableEq, Repr

/-- Whether a mark leaves a block to be chosen: one for a revocation's checkpoint is no pre-emption. -/
def Mark.free : Mark → Bool
  | .none => true
  | .ckptAt _ p => !p
  | _ => false
/-- Whether a block may be chosen for a newcomer at a level on certain dies. -/
def State.mayTake (s : State) (lvl : Nat) (dies : List Nat) (k : Nat) : Bool :=
  let c := s.core k
  dies.contains (k / 64) && c.mark.free && decide (c.res.prio < lvl) && s.ctxActs c.res.ctx.val &&
    c.blk.isSome && c.heldFor.isNone
/-- The group of core k: its whole gang, every member with an action; a kill of one is a kill of all. -/
def State.victimsOf (s : State) (lvl : Nat) (dies : List Nat) (k : Nat) : Option Victims :=
  let r := (s.core k).res
  let ks := s.coresOf r.ctx.val fun x => x.card == r.card && x.gang == r.gang
  let live := ((s.ctx r.ctx.val).gangRecs r.card r.gang).length
  let acts := ks.filterMap fun j => (s.preAct j).map fun a => (j, a)
  if !(ks.all fun j => s.mayTake lvl dies j) ∨ ks.length ≠ live ∨ acts.length ≠ ks.length then none
  else
    let acts := if acts.any fun a => a.2 == .kill then acts.map fun a => (a.1, PreAct.kill) else acts
    if (s.ctx r.ctx.val).ckfree < (acts.filter fun a => a.2 == .ckpt).length then none
    else some ⟨acts, (acts.map fun a => a.2.code).sum⟩

/-- Whether group a comes before group b: lower level, lower cost, less remaining time, lower core (R351). -/
def State.victimBefore (s : State) (a b : Victims) : Bool :=
  let k (v : Victims) : Nat := (v.cores.map fun x => x.1).headD 0
  let lvl (v : Victims) : Nat := (s.core (k v)).res.prio
  let rem (v : Victims) : Nat :=
    (v.cores.map fun x => (s.remaining x.1).getD (2 ^ 64)).foldl min (2 ^ 64)
  decide (lvl a < lvl b ∨ lvl a = lvl b ∧ (a.cost < b.cost ∨ a.cost = b.cost ∧ (rem a < rem b ∨ rem a = rem b ∧ k a ≤ k b)))
/-- The group taken for a newcomer with a balance of tokens. -/
def State.bestVictims (s : State) (lvl : Nat) (dies : List Nat) (tokens : Nat) : Option Victims :=
  ((s.cores.filterMap fun e => if s.mayTake lvl dies e.1 then s.victimsOf lvl dies e.1 else none).filter fun v =>
    decide (v.cost ≤ tokens)).foldl
    (fun (best : Option Victims) v => match best with
      | none => some v
      | some b => if s.victimBefore b v then some b else some v) none

/-- Tokens of a job. -/
def Ctx.tokens (t : Ctx) (n : Nat) : Nat := (mget t.jobs n).elim 0 fun j => j.tokens
/-- The newcomer's job pays (R351, R396). -/
def Ctx.spend (t : Ctx) (n cost : Nat) : Ctx :=
  { t.addCf n 30 31 24 cost with
    jobs := match mget t.jobs n with
      | some j => mset t.jobs n { j with tokens := j.tokens - cost }
      | none => t.jobs }
/-- The choice of core k, as the record logs it (R421). -/
def State.logChoice (s : State) (e : REntry) (k : Nat) (a : PreAct) : State :=
  let r := (s.core k).res
  s.logEv { s.evOf k 0x04 0 0 with
    p0 := 0
    p1 := k / 64 * 2 ^ 63 + k % 64 * 2 ^ 57 + r.card * 2 ^ 40 + r.block * 2 ^ 16
    p2 := a.code
    p3 := e.card + e.head * 2 ^ 16 }
/-- The phase count at which a gang is checkpointed: the largest of its members plus one (R280). -/
def State.gangTarget (s : State) (ks : List Nat) : Nat := (ks.map fun k => (s.core k).phasecnt).foldl max 0 + 1
/-- Take one group of victims for a newcomer (R352); a checkpoint that a revocation has set stays at its phase count. -/
def State.takeVictims (s : State) (e : REntry) (v : Victims) : State :=
  let ks := v.cores.map fun x => x.1
  let s1 := v.cores.foldl (fun t x => t.logChoice e x.1 x.2) (s.modCtx e.ctx.val fun t => t.spend e.card v.cost)
  let target := s1.gangTarget ks
  let s2 := v.cores.foldl (fun (t : State) x => t.modCore x.1 fun c =>
    { c with
      heldFor := some e.name
      mark := match x.2, c.mark with
        | .drain, .none => .drain
        | .ckpt, .none => if ks.length = 1 then .ckpt else .ckptAt target true
        | .ckpt, .ckptAt t _ => .ckptAt t true
        | _, m => m }) s1
  match v.cores with
  | (k, .kill) :: _ => s2.killGang k 0x63 true
  | _ => s2
/-- Whether enough cores are free or held for a newcomer on some of the dies where it is eligible (R351): one core, or as
many as a gang's members on one die. -/
def State.enoughFor (s : State) (lvl : Nat) (e : REntry) (dies : List Nat) : Bool :=
  let on (d : Nat) : Nat := (s.coresFor lvl e d).length +
    (s.cores.filter fun x => x.2.heldFor == some e.name && x.2.blk.isSome && x.1 / 64 == d).length
  dies.any fun d => decide (e.blocks.length ≤ on d)
/-- Victims one group at a time, until enough cores are freed or held. -/
def State.takeMany : Nat → State → Nat → REntry → List Nat → State
  | 0, s, _, _, _ => s
  | f + 1, s, lvl, e, dies =>
    if s.enoughFor lvl e dies then s
    else match s.bestVictims lvl dies ((s.ctx e.ctx.val).tokens e.card) with
      | none => s
      | some v => (s.takeVictims e v).takeMany f lvl e dies

/-- Pre-emption for the first entry of one level, on every die where it is eligible (R351). -/
def State.preemptLevel (s : State) (lvl : Nat) : State :=
  match (s.ready[Fin.ofNat 64 lvl]).head? with
  | none => s
  | some e => s.takeMany 128 lvl e ([0, 1].filter fun d => s.eligible e d)
def execPreemption (s : State) : Out :=
  .next (if s.down then s else [63, 62, 61, 60].foldl State.preemptLevel s)

end Sys2Proof.Machine
end

