-- ==== Sys2Proof/Machine/Extents.lean ====
section
/-!
DEFINITION. Sys2Proof/Machine/Extents.lean: the checks of an extent entry, revocation, leases, and the answer to a translation
fault (R166, R167, R169, R176 to R179, R309, R326, R383).
-/
namespace Sys2Proof.Machine
open Sys2Proof

/-! ### Regions (R166) and the checks of an entry (R169) -/

/-- Counts of the configuration record (R74). -/
def State.hbmch (s : State) : Nat := bits (wd s.config 1) 63 56
def State.lpgen (s : State) : Nat := bits (wd s.config 2) 55 48
/-- Size of the HBM4E general region. -/
def State.hbmTop (s : State) : Nat := (2 * s.hbmch - s.hrcsz) * 2 ^ 30
/-- Whether a channel is leasable (LPLSE). -/
def State.leasable (s : State) (ch : Nat) : Bool := decide (ch < 64) && bit (wd s.config 6) ch
/-- Whether a physical range lies inside one region of a tier and touches no hole. -/
def State.inRegion (s : State) (tier a n : Nat) : Bool :=
  match tier with
  | 0 => decide (a + n ≤ s.hbmTop)
  | 1 => decide (lpBase ≤ a ∧ a + n ≤ lpBase + s.lpgen * 2 ^ 34)
  | 2 => (leaseChannel a).any fun ch => s.leasable ch && decide (a + n ≤ leaseBase + (ch + 1) * 2 ^ 34)
  | 3 => decide (hostBase ≤ a ∧ a + n ≤ hostBase + 2 ^ 51)
  | 4 => (windowOf a).any fun w => (s.core w.1).inServ && decide (w.2 + n ≤ 0x400000)
  | _ => false
/-- Where an interleaved region over the channels `cs` in service, in granules of g bytes, places its offset a (R167):
the channel and the offset in it. -/
def interleave (cs : List Nat) (g a : Nat) : Nat × Nat :=
  (cs.getD (a / g % cs.length) 0, a / (g * cs.length) * g + a % g)
/-- The LPDDR-6 channels of the general region, ascending: those in service that are not leasable (R74, R167). -/
def State.lpGeneral (s : State) : List Nat :=
  (upto 0 64).filter fun c => bit (wd s.config 5) c && !bit (wd s.config 6) c
/-- The home of a 256-byte granule of general memory (R420): die and slice. -/
def homeSlice (a : Nat) : Nat × Nat :=
  let n := Nat.xor (bits a 15 8) (bits a 23 16)
  (n % 2, n / 2)
/-- Whether a range of memory meets a context's reserved range (R423). -/
def Ctx.reserves (t : Ctx) (a n : Nat) : Bool := rangesMeet a n t.rbase t.rlen
/-- Whether the command processor accepts an entry for extent `id` of context c (R169). -/
def State.extentOk (s : State) (c id : Nat) (x : Extent) : Bool :=
  let n := 2 ^ (xLog x - 21)
  let size := 2 ^ xLog x
  decide (21 ≤ xLog x ∧ xLog x ≤ 36 ∧ xAtc x ≤ 2) && xf x 58 39 == 0 && xVbase x % n == 0 && xFrame x % n == 0 &&
    s.inRegion (xTier x) (xBase x) size && !(s.ctxs.any fun e => e.2.reserves (xBase x) size) &&
    !((s.ctx c).exts.any fun e => e.1 != id && xValid e.2 && rangesMeet (xFirst x) size (xFirst e.2) (2 ^ xLog e.2)) &&
    (xTier x != 2 || (leaseChannel (xBase x)).any fun ch => s.leased c ch) &&
    (!xRo x || Nat.land (xPerm x) 0x555555 == 0) && xValid x && !xRvk x

/-! ### Starting a revocation (R177, R178, R326) -/

/-- Whether the block of core k holds an extent (R177): its image, a handle version not freed (R90), a command that has not
completed, near-memory runs at their chiplets among them; the handles of a resume that still waits for its translations are
not restored yet (R179). -/
def State.holds (s : State) (k n : Nat) : Bool :=
  let c := s.core k
  (c.mark != .dying && (c.res.imgExt == n ||
      c.retr.isEmpty && c.r.h.toList.any fun v => (pruneVersions c.r.a.pos c.r.v.pos v).any fun x =>
        hKind x.2.2 == 0 && hExt x.2.2 == n)) ||
    s.cmdNames k true n || s.runs.any fun r => r.2.core == some k && (s.runExts r.2).contains n
/-- The revocation of an extent reaches core k: logged, and a gang's target is set (R178, R280). -/
def State.reachCore (s : State) (n k : Nat) : State :=
  let c := s.core k
  let r := c.res
  let s1 := (s.logEv { s.evOf k 0x03 0 0 with p0 := n, p1 := c.phasecnt }).modCore k fun c =>
    { c with rvks := c.rvks ++ [⟨n, s.rtime⟩] }
  let ks := s.coresOf r.ctx.val fun x => x.card == r.card && x.gang == r.gang
  if c.mark = .dying ∨ r.gsize ≤ 1 then s1
  else
    let target := s1.gangTarget ks
    ks.foldl (fun (t : State) j => t.modCore j fun x => match x.mark with
      | .ckptAt _ _ => x
      | m => { x with mark := .ckptAt target (m == .ckpt) }) s1
/-- Set RVK and send the revocation to every holder (R177); a resume that waits translates the extent's handles again (R179). -/
def State.revoke (s : State) (c n : Nat) (new : Option Extent) (slot : Option (Nat × Word)) (keep : Bool) : State :=
  let s0 := s.modCtx c fun t =>
    { t with exts := mset t.exts n (t.ext n ||| BitVec.ofNat 128 (2 ^ 126)), revs := t.revs ++ [⟨n, new, slot, keep, s.rtime⟩] }
  let s1 : State := { s0 with cores := s0.cores.map fun e =>
    if !e.2.retr.isEmpty && e.2.blk.any fun r => r.ctx.val == c then (e.1, { e.2 with retr := n :: e.2.retr }) else e }
  (s1.cores.filterMap fun e => if (e.2.blk.any fun r => r.ctx.val == c) && s1.holds e.1 n then some e.1 else none).foldl
    (fun t k => t.reachCore n k) s1

/-! ### The end of a revocation (R177, R179, R288, R326, R383) -/

/-- Whether a near-memory unit still works in an extent under revocation. -/
def State.unitsHold (s : State) (c n : Nat) : Bool :=
  s.unitQ.any fun q => (s.unitHead q.1).any fun h =>
    h.2.1.ctx.val == c && !h.2.2.paused && !h.2.2.done && (s.unitExts h.2.1 q.1).contains n
/-- The region that a unit or a broadcast source goes on with after the revocation of extent e: that of the new entry, else
the one designated now (R326). -/
def Ctx.regionAfter (t : Ctx) (u : Nat) (e : Option Nat) : Option (Nat × Nat × Nat) :=
  (e.bind fun n => (t.regionOf u n).map fun g => (n, g)) <|> (mget t.regions u).bind fun n => (t.regionOf u n).map fun g => (n, g)
/-- The units whose NMBASE stands for extent n of context c have it loaded again; without a region they have none until their
next context switch (R319, R326). -/
def State.reload (s : State) (c n : Nat) : State :=
  let t := s.ctx c
  (s.nmext.filter fun e => e.2 == n && mget s.nmctx e.1 == some c).foldl
    (fun (u : State) e => match t.regionAfter e.1 (some n) with
      | some g => u.loadBase e.1 c g.1 g.2
      | none => { u with nmctx := mdel u.nmctx e.1 }) s
/-- The broadcast source's base of a run is loaded again after the revocation of extent n. -/
def Ctx.resource (t : Ctx) (n : Nat) (r : NmRun) : NmRun :=
  if nmBcast r.desc && (r.aext == some n || r.aext.isNone) then match t.regionAfter (nmSrc r.desc) r.aext with
    | some g => { r with abase := g.2.1, alen := g.2.2, aext := some g.1 }
    | none => { r with aext := none }
  else r
/-- Whether a paused unit of a run may go on: its regions are there and not under revocation. -/
def State.mayResume (s : State) (r : NmRun) (u : Nat) : Bool :=
  let t := s.ctx r.ctx.val
  !s.regionRevoked r u && (t.regionAfter u (s.unitExt r.ctx.val u)).isSome &&
    (!nmBcast r.desc || (t.regionAfter (nmSrc r.desc) (s.srcExt r)).isSome)
/-- After the revocation of extent n, or the designation of it: NMBASE and the broadcast bases that stand for it are loaded
again, and paused units whose regions are there and no longer under revocation go on (R326). -/
def State.unpause (s : State) (c n : Nat) : State :=
  let s1 := s.reload c n
  let t := s1.ctx c
  let s2 : State := { s1 with runs := s1.runs.map fun e => if e.2.ctx.val = c then (e.1, t.resource n e.2) else e }
  s2.unitQ.foldl
    (fun (v : State) q => match v.unitHead q.1 with
      | some (m, r, x) =>
        if r.ctx.val = c ∧ x.paused ∧ v.mayResume r q.1 then
          let w := match t.regionAfter q.1 none with
            | some g => if mget v.nmctx q.1 = some c then v else v.loadBase q.1 c g.1 g.2
            | none => v
          w.setUnit m r { x with paused := false }
        else v
      | none => v) s2

/-- Must-save entries of KIND 0 that no valid TIER 0 extent holds any more are withdrawn and logged (R383). -/
def State.withdrawLost (s : State) (c n : Nat) : State :=
  let t := s.ctx c
  let lost := t.must.filter fun e =>
    bits (wd e.2 0) 61 60 == 0 && !(t.exts.any fun x => xValid x.2 && xTier x.2 == 0 &&
      decide (xFirst x.2 ≤ wd e.2 1 ∧ wd e.2 1 + wd e.2 2 ≤ xTop x.2))
  lost.foldl
    (fun (u : State) e => (u.logEv { Ev.of 0x0A 0 c with p0 := e.1, p1 := n, p2 := wd e.2 0 % 2 ^ 32 }).modCtx c fun x =>
      { x with must := mdel x.must e.1 }) s
/-- Table descriptors with a shard in an extent lose VALID (R288). -/
def Ctx.dropTables (t : Ctx) (n : Nat) : Ctx :=
  { t with tables := t.tables.map fun d =>
      if (tbExts d.2).contains n then (d.1, d.2.set 0 (w64 (putBits (wd d.2 0) 63 63 0))) else d }

/-- C reissues the form whose fault waited for a revocation that has ended; a resume translates again (R176, R179). -/
def State.retryWaiting (s : State) (c : Nat) : State :=
  (s.cores.filterMap fun e =>
    if (e.2.blk.any fun r => r.ctx.val == c) && e.2.tfault.any fun f => f.1 == 0x11 && !((s.ctx c).findExt (f.2.2 % 2 ^ 60)).any fun x => xRvk x.2
    then some e.1 else none).foldl
    (fun (t : State) k =>
      let u := t.modCore k fun x => { x with tfault := none }
      if (t.core k).retr.isEmpty then u else u.retranslateAll k) s

/-- Write words 6 and 7 of a request record (R404 Table 5). -/
def State.respond (s : State) (addr : Nat) (w0 : Word) (status value : Nat) : State :=
  let rseq := w0.toNat % 2 ^ 32
  let t := s.loneWrite moduleClass (cellsAt (addr + 48) (toBytes 8 (status * 2 ^ 56 + value % 2 ^ 56) ++ toBytes 8 (2 ^ 63 + rseq)))
  if bit w0.toNat 52 then t.raiseMod 0 else t

/-- The command processor ends a revocation whose holders have all acknowledged (R177).  The new entry is the one that the
request's check accepted; no reserved range is set aside over it meanwhile (R28, R423). -/
def State.endRevocation (s : State) (c : Nat) (v : Revoc) : State :=
  let old := (s.ctx c).ext v.ext
  let clear := BitVec.ofNat 128 (putBits old.toNat 126 126 0)
  let s1 := s.modCtx c fun t =>
    let u := { t with
      revs := t.revs.erase v
      cks := t.cks.map fun k => (k.1, { k.2 with revoked := v.ext :: k.2.revoked })
      exts := if v.keep then mset t.exts v.ext clear else match v.new with
        | some x => mset t.exts v.ext x
        | none => mdel t.exts v.ext }
    if v.keep ∨ v.new.isSome then u else u.dropTables v.ext
  let s2 := ((if v.keep then s1 else s1.withdrawLost c v.ext).unpause c v.ext).retryWaiting c
  match v.slot with
  | some r => s2.respond r.1 r.2 0 0
  | none => s2
/-- Whether core k, at the end of its phase or killed, waits only for near-memory runs of which a revocation keeps one: it then
acknowledges before its checkpoint, its retirement or its requeue (R178, R326; notes/assumptions/62.md). -/
def State.acksEarly (s : State) (k n : Nat) : Bool :=
  let c := s.core k
  (c.ended || c.underWay) && !s.cmdNames k true n &&
    s.runs.any fun r => r.2.core == some k && !r.2.done && r.2.units.any fun x =>
      !x.done && (s.unitHead x.unit).any fun h => h.2.2.paused
/-- Core k acknowledges the revocation of extent n; the handles that its checkpoint will hold are translated again at the
resume. -/
def State.ackEarly (s : State) (n k : Nat) : State :=
  let s1 := (s.core k).rvks.foldl (fun t x =>
    if x.ext = n then t.logEv { t.evOf k 0x03 0 0 with p0 := n, p1 := (s.core k).phasecnt, p2 := 1 } else t) s
  s1.modCore k fun c => { c with rvks := c.rvks.filter fun x => x.ext != n, stale := n :: c.stale }
/-- The command processor takes the acknowledgements of cores that may give theirs now; the revocation ends when no core
and no near-memory unit holds the extent any more (R177). -/
def execRevocationComplete (ctx : Fin 8) (ext : Fin 16384) (s : State) : Out :=
  .next (
    let c := ctx.val
    match (s.ctx c).revs.find? fun v => v.ext == ext.val with
    | none => s
    | some v =>
      let holders := s.cores.filterMap fun e =>
        if (e.2.blk.any fun r => r.ctx == ctx) && e.2.rvks.any fun x => x.ext == v.ext then some e.1 else none
      if s.down ∨ s.unitsHold c v.ext ∨ holders.any (fun k => !s.acksEarly k v.ext) then s
      else (holders.foldl (fun t k => t.ackEarly v.ext k) s).endRevocation c v)

/-- A holding core that has not acknowledged within MAXPH (R178). -/
def execRevocationPhaseLimit (k : Nat) (s : State) : Out :=
  .next (
    let c := s.core k
    let r := c.res
    if !s.asks k || c.mark == .dying || !(c.rvks.any fun x => decide (x.at_ + maxPh r.hdr < s.rtime) && !s.acksEarly k x.ext) then s
    else if bit (r.hw 3) 51 then s.killGang k 0x63 false
    else s.contextStop r.ctx.val 0x66 (s.errAt k .c c.r.c.pos 0x66 0 0))

/-- The driver's answer to a translation fault at a quiet point or at a resume (R176, R179). -/
def execTranslationFaultAnswer (k : Nat) (retry : Bool) (s : State) : Out :=
  .next (
    let c := s.core k
    match c.tfault with
    | none => s
    | some (code, detail, addr) =>
      if s.down || code == 0x11 then s
      else if !retry then s.contextStop c.res.ctx.val code (s.errAt k .c c.r.c.pos code detail addr)
      else
        let u := s.modCore k fun x => { x with tfault := none }
        if c.retr.isEmpty then u else u.retranslateAll k)

/-! ### Leases (R309) -/

/-- Extents of a context on a leased channel. -/
def Ctx.onChannel (t : Ctx) (ch : Nat) : List Nat :=
  t.exts.filterMap fun e => if xValid e.2 ∧ xTier e.2 = 2 ∧ leaseChannel (xBase e.2) = some ch then some e.1 else none
/-- Whether a near-memory run holds an extent of a context. -/
def State.runHolds (s : State) (c n : Nat) : Bool :=
  (s.runs.any fun r => r.2.ctx.val == c && (s.runExts r.2).contains n) ||
    s.cores.any fun e => (e.2.blk.any fun r => r.ctx.val == c) && e.2.q19.any fun x => x.exts.contains n
/-- Whether a near-memory run or a scatter-update holds an extent of a channel, which defers its lapse. -/
def State.lapseDeferred (s : State) (c ch : Nat) : Bool :=
  ((s.ctx c).onChannel ch).any fun n =>
    s.runHolds c n || s.cores.any fun e => (e.2.blk.any fun r => r.ctx.val == c) &&
      ((e.2.q18.any fun x => x.exts.contains n) || e.2.srun.any fun x => x.cmd.exts.contains n)
/-- A lease lapses: every extent of its channel is revoked and keeps its entry. -/
def State.lapse (s : State) (c ch : Nat) : State :=
  let s1 : State := { s with leases := match mget s.leases ch with
    | some l => mset s.leases ch { l with lapsed := true }
    | none => s.leases }
  (((s1.ctx c).onChannel ch).filter fun n => !xRvk ((s1.ctx c).ext n)).foldl
    (fun t n => t.revoke c n none none true) s1
def execLeaseLapse (ch : Fin 64) (s : State) : Out :=
  .next (match mget s.leases ch.val with
    | none => s
    | some l =>
      if s.down ∨ l.lapsed ∨ s.rtime < l.expiry ∨ s.lapseDeferred l.ctx.val ch.val then s else s.lapse l.ctx.val ch.val)

end Sys2Proof.Machine
end

