-- ==== Sys2Proof/Machine/Crypto.lean ====
section
/-!
DEFINITION. Sys2Proof/Machine/Crypto.lean: SHAKE256, and Ed448 signing and verification, the algorithms that the manual names
(R388, R390, R400 to R402).
-/
namespace Sys2Proof.Machine
open Sys2Proof

/-! ### SHAKE256 (FIPS 202), on 25 lanes, lane x + 5 y -/

def laneAt (a : List Word) (x y : Nat) : Word := a.getD (x % 5 + 5 * (y % 5)) 0
/-- The lanes that a function of x and y gives. -/
def spongeLanes (f : Nat → Nat → Word) : List Word := (upto 0 25).map fun i => f (i % 5) (i / 5)
/-- The lanes that the walk from (1, 0) by (x, y) ↦ (y, 2 x + 3 y) passes in n steps, each with the steps done so far. -/
def rhoWalk : Nat → Nat → Nat → Nat → List (Nat × Nat)
  | 0, _, _, _ => []
  | n + 1, k, x, y => (x + 5 * y, k) :: rhoWalk n (k + 1) y ((2 * x + 3 * y) % 5)
/-- The rotation of each lane: the lane passed at step k of the walk is rotated by the triangular number of k + 1; lane 0 by none. -/
def rhoShifts : List Nat :=
  (rhoWalk 24 0 1 0).foldl (fun l e => l.set e.1 ((e.2 + 1) * (e.2 + 2) / 2 % 64)) (List.replicate 25 0)
/-- The constants of n rounds, from the shift register r of 8 bits (feedback 0x71): seven bits a round, bit j at 2^j − 1. -/
def iotaFrom : Nat → Nat → List Word
  | 0, _ => []
  | n + 1, r =>
    let out := (upto 0 7).foldl (fun (e : Nat × Nat) j =>
      (Nat.xor (2 * e.1 % 256) (if bit e.1 7 then 0x71 else 0), e.2 + e.1 % 2 * 2 ^ (2 ^ j - 1))) (r, 0)
    w64 out.2 :: iotaFrom n out.1
def keccakTheta (a : List Word) : List Word :=
  let c := (upto 0 5).map fun x => (upto 0 5).foldl (fun w y => w ^^^ laneAt a x y) 0
  spongeLanes fun x y => laneAt a x y ^^^ c.getD ((x + 4) % 5) 0 ^^^ (c.getD ((x + 1) % 5) 0).rotateLeft 1
/-- The rotations and the permutation of the lanes: lane (x, y) goes to (y, 2 x + 3 y). -/
def keccakRhoPi (a : List Word) : List Word :=
  spongeLanes fun x y => (laneAt a (x + 3 * y) x).rotateLeft (rhoShifts.getD ((x + 3 * y) % 5 + 5 * x) 0)
def keccakChi (a : List Word) : List Word :=
  spongeLanes fun x y => laneAt a x y ^^^ (~~~(laneAt a (x + 1) y) &&& laneAt a (x + 2) y)
def keccakRound (a : List Word) (rc : Word) : List Word :=
  let b := keccakChi (keccakRhoPi (keccakTheta a))
  b.set 0 (b.getD 0 0 ^^^ rc)
def keccak (a : List Word) : List Word := (iotaFrom 24 1).foldl keccakRound a

/-- 64-bit words of bytes, and back. -/
def packWords (bs : List Byte) : List Word := (upto 0 (bs.length / 8)).map fun i => w64 (ofBytes ((bs.drop (8 * i)).take 8))
def unpackWords (ws : List Word) : List Byte := ws.flatMap fun x => toBytes 8 x.toNat
/-- A message with its suffix and padding: whole blocks of 136 bytes. -/
def shakePad (bs : List Byte) : List Byte :=
  let n := 136 - bs.length % 136
  bs ++ if n = 1 then [0x9F] else 0x1F :: List.replicate (n - 2) 0 ++ [0x80]
/-- Absorb n blocks. -/
def shakeAbsorb : Nat → List Word → List Byte → List Word
  | 0, a, _ => a
  | n + 1, a, bs =>
    let b := packWords (bs.take 136)
    shakeAbsorb n (keccak ((upto 0 25).map fun i => a.getD i 0 ^^^ b.getD i 0)) (bs.drop 136)
/-- n blocks of output. -/
def shakeSqueeze : Nat → List Word → List Byte
  | 0, _ => []
  | n + 1, a => unpackWords (a.take 17) ++ shakeSqueeze n (keccak a)
/-- n bytes of SHAKE256 of a message. -/
def shake256 (n : Nat) (bs : List Byte) : List Byte :=
  let m := shakePad bs
  (shakeSqueeze ((n + 135) / 136) (shakeAbsorb (m.length / 136) (List.replicate 25 0) m)).take n
/-- A digest of 64 bytes. -/
def digest64 (bs : List Byte) : List Byte := shake256 64 bs

/-! ### Ed448 (RFC 8032): the curve x² + y² = 1 − 39081 x² y² over the integers modulo p -/

def edP : Nat := 2 ^ 448 - 2 ^ 224 - 1
/-- The order of the base point. -/
def edL : Nat := 2 ^ 446 - 13818066809895115352007386748515426880336692474882178609894547503885
def edAdd (a b : Nat) : Nat := (a + b) % edP
def edSub (a b : Nat) : Nat := (a + (edP - b % edP)) % edP
def edMul (a b : Nat) : Nat := a * b % edP
/-- x^e for an exponent of at most n bits. -/
def edPow : Nat → Nat → Nat → Nat
  | 0, _, _ => 1
  | n + 1, x, e =>
    let h := edPow n (edMul x x) (e / 2)
    if e % 2 = 1 then edMul x h else h

/-- A point, projective. -/
structure EdPoint where
  x : Nat
  y : Nat
  z : Nat
  deriving DecidableEq, Repr
def edZero : EdPoint := ⟨0, 1, 1⟩
def edBase : EdPoint :=
  ⟨224580040295924300187604334099896036246789641632564134246125461686950415467406032909029192869357953282578032075146446173674602635247710,
   298819210078481492676017930443930673437544040154080242095928241372331506189835876003536878655418784733982303233503462500531545062832660,
   1⟩
/-- The sum of two points. -/
def EdPoint.add (p q : EdPoint) : EdPoint :=
  let a := edMul p.z q.z
  let b := edMul a a
  let c := edMul p.x q.x
  let d := edMul p.y q.y
  let e := edMul (edP - 39081) (edMul c d)
  let f := edSub b e
  let g := edAdd b e
  let h := edMul (edAdd p.x p.y) (edAdd q.x q.y)
  ⟨edMul (edMul a f) (edSub (edSub h c) d), edMul (edMul a g) (edSub d c), edMul f g⟩
/-- k times a point, for k of at most n bits. -/
def EdPoint.mul : Nat → Nat → EdPoint → EdPoint
  | 0, _, _ => edZero
  | n + 1, k, p =>
    let h := EdPoint.mul n (k / 2) (p.add p)
    if k % 2 = 1 then p.add h else h
/-- Whether two points are the same. -/
def EdPoint.same (p q : EdPoint) : Bool := edMul p.x q.z == edMul q.x p.z && edMul p.y q.z == edMul q.y p.z
/-- The 57 bytes of a point. -/
def EdPoint.encode (p : EdPoint) : List Byte :=
  let i := edPow 448 p.z (edP - 2)
  toBytes 57 (edMul p.y i + edMul p.x i % 2 * 2 ^ 455)
/-- The point that 57 bytes encode, if they do. -/
def edDecode (bs : List Byte) : Option EdPoint :=
  let v := ofBytes bs
  let y := v % 2 ^ 455
  let u := edSub (edMul y y) 1
  let w := edSub (edMul (edP - 39081) (edMul y y)) 1
  let t := edMul (edMul u u) (edMul u w)
  let x := edMul t (edPow 448 (edMul t (edMul (edMul u u) (edMul w w))) ((edP - 3) / 4))
  let sign := v / 2 ^ 455 % 2
  if bs.length ≠ 57 ∨ edP ≤ y ∨ edMul w (edMul x x) ≠ u ∨ (x = 0 ∧ sign = 1) then none
  else some ⟨if x % 2 = sign then x else edP - x, y, 1⟩

/-- The hash of Ed448 with an empty context. -/
def edHash (bs : List Byte) : List Byte :=
  shake256 114 ([0x53, 0x69, 0x67, 0x45, 0x64, 0x34, 0x34, 0x38, 0, 0] ++ bs)
/-- Whether 114 bytes are the signature of a message under a public key. -/
def edVerify (key msg sig : List Byte) : Bool :=
  let s := ofBytes (sig.drop 57)
  match edDecode key, edDecode (sig.take 57) with
  | some a, some r =>
    let k := ofBytes (edHash (sig.take 57 ++ key ++ msg)) % edL
    let four (p : EdPoint) := (p.add p).add (p.add p)
    sig.length == 114 && decide (s < edL) && (four (EdPoint.mul 446 s edBase)).same ((four r).add (four (EdPoint.mul 446 k a)))
  | _, _ => false
/-- The signature of a message by a secret key of 57 bytes. -/
def edSign (secret msg : List Byte) : List Byte :=
  let h := shake256 114 secret
  let a := putBits (ofBytes (h.take 55) / 4 * 4 + bits ((h.getD 55 0).toNat) 7 0 * 2 ^ 440) 447 447 1
  let key := (EdPoint.mul 448 a edBase).encode
  let r := ofBytes (edHash (h.drop 57 ++ msg)) % edL
  let rr := (EdPoint.mul 446 r edBase).encode
  let k := ofBytes (edHash (rr ++ key ++ msg)) % edL
  rr ++ toBytes 57 ((r + k * a) % edL)

end Sys2Proof.Machine
end

