-- ==== Sys2Proof/Machine/Requests.lean ====
section
/-!
DEFINITION. Sys2Proof/Machine/Requests.lean: the requests to the trusted command processor (R169, R177, R288, R309, R319, R337,
R338, R382, R383, R404, R405, R423).  Each event takes the next request of its operation.
-/
namespace Sys2Proof.Machine
open Sys2Proof

/-! ### The ring (R404) -/

def reqOp (w : List Word) : Nat := bits (wd w 0) 63 56
def reqCtx (w : List Word) : Nat := bits (wd w 0) 55 53
/-- Operand n of a request. -/
def arg (w : List Word) (n : Nat) : Nat := wd w (n + 1)
/-- The extent entry that two words give. -/
def entryOf (lo hi : Nat) : Extent := BitVec.ofNat 128 (hi * 2 ^ 64 + lo)
/-- The descriptor that a table request carries. -/
def reqTab (w : List Word) : Tab := (w.drop 2).take 4

/-- LEN of a must-save entry's words (R382). -/
def msLen (d : List Word) : Nat := wd d 2
/-- A saved entry's pieces with their headers, in bytes (R388; notes/assumptions/60.md). -/
def Saved.body (x : Saved) : Nat := x.npiece * (64 + msLen x.desc)
/-- The entry of the save store that a restore names (R391). -/
def NonVol.entry (nv : NonVol) (w : List Word) : Option Saved := if nv.held then nv.saved.find? fun x => x.slot == arg w 0 else none
/-- The virtual address of a report copy or a restore, without path bits, and the bytes written there (R391). -/
def State.reqRange (s : State) (w : List Word) : Nat × Nat :=
  match reqOp w with
  | 0x38 => (arg w 2 % 2 ^ 60, arg w 1)
  | 0x39 => (arg w 1 % 2 ^ 60, (s.nv.entry w).elim 0 Saved.body)
  | _ => (0, 0)
/-- The extents of its context that a request names, by number or by an address range (R391, R404). -/
def State.reqExts (s : State) (w : List Word) : List Nat :=
  match reqOp w with
  | 0x10 => [arg w 0]
  | 0x11 => [arg w 0]
  | 0x1A => [arg w 1]
  | 0x20 => tbExts (reqTab w)
  | 0x29 => [arg w 1]
  | 0x38 | 0x39 =>
    let r := s.reqRange w
    (s.ctx (reqCtx w)).exts.filterMap fun e =>
      if xValid e.2 && rangesMeet r.1 r.2 (xFirst e.2) (2 ^ xLog e.2) then some e.1 else none
  | _ => []
/-- Whether a request waits: for a revocation in progress or behind an earlier request of the same extent, or, a restore,
behind an earlier one of the same report entry (R404). -/
def State.reqWaits (s : State) (before : List (Nat × List Word)) (w : List Word) : Bool :=
  ((s.reqExts w).any fun n => ((s.ctx (reqCtx w)).revs.any fun v => v.ext == n) ||
    before.any fun b => reqCtx b.2 == reqCtx w && (s.reqExts b.2).contains n) ||
    (reqOp w == 0x39 && before.any fun b => reqOp b.2 == 0x39 && arg b.2 0 == arg w 0)

/-- Address of ring record n. -/
def State.ringAddr (s : State) (n : Nat) : Nat :=
  hostBase + (s.rqbase.toNat / 4096 * 4096 + 64 * (n % 2 ^ s.rqsize)) % 2 ^ 51
/-- Words 0 to 5 of the record at an address. -/
def State.readReq (s : State) (a : Nat) : List Word := (upto 0 6).map fun i => w64 (s.peek (a + 8 * i) 8)
/-- Whether a request completes when its work is done, out of ring order: a revocation, a write that replaces a valid extent,
a restore (R404). -/
def State.lateReq (s : State) (w : List Word) : Bool :=
  reqOp w == 0x11 || reqOp w == 0x39 || (reqOp w == 0x10 && xValid ((s.ctx (reqCtx w)).ext (arg w 0)))
/-- The first waiting request of an operation that waits no more, unless one before it completes in ring order and may. -/
def State.findReq (s : State) (op : Nat → Bool) : List (Nat × List Word) → List (Nat × List Word) → Option (Nat × List Word)
  | _, [] => none
  | before, r :: rest =>
    if s.reqWaits before r.2 then s.findReq op (before ++ [r]) rest
    else if op (reqOp r.2) then some r
    else if s.lateReq r.2 then s.findReq op (before ++ [r]) rest
    else none

/-- The operations of R404 Table 6. -/
def knownOps : List Nat :=
  [0x01, 0x02, 0x10, 0x11, 0x18, 0x19, 0x1A, 0x20, 0x28, 0x29, 0x2A, 0x30, 0x31, 0x38, 0x39, 0x40]
/-- Operations that name no context (R404). -/
def moduleOp (op : Nat) : Bool := op == 0x01 || op == 0x2A || op == 0x40
/-- Handle one request: `f` answers a status, a value and the new state, or none where the response comes later. -/
def State.handle (s : State) (r : Nat × List Word) (f : List Word → State → Option (Nat × Nat) × State) : State :=
  let w := r.2
  if bits (wd w 0) 51 32 ≠ 0 then s.respond r.1 (w.getD 0 0) 0x02 0
  else if knownOps.contains (reqOp w) && !moduleOp (reqOp w) && !s.hasCtx (reqCtx w) then s.respond r.1 (w.getD 0 0) 0x04 0
  else match f w s with
    | (none, t) => t
    | (some a, t) => t.respond r.1 (w.getD 0 0) a.1 a.2
/-- Operations that complete when their work is done, out of ring order (R404). -/
def lateOp (op : Nat) : Bool := op == 0x10 || op == 0x11 || op == 0x39
/-- Whether a request that completes in ring order has waited and may be handled now: it goes before the ring's head. -/
def State.readyFirst (s : State) : List (Nat × List Word) → List (Nat × List Word) → Bool
  | _, [] => false
  | before, r :: rest => (!s.lateReq r.2 && !s.reqWaits before r.2) || s.readyFirst (before ++ [r]) rest
/-- The record at RQHEAD, if the driver has submitted one, with its address. -/
def State.headReq (s : State) : Option (Nat × List Word) :=
  if s.rqhead % 2 ^ s.rqsize = s.rqtail % 2 ^ s.rqsize then none
  else some (s.ringAddr s.rqhead, s.readReq (s.ringAddr s.rqhead))
/-- Restores at RQHEAD are read and go on meanwhile, at most n of them, while a later request is handled (R404). -/
def State.passRestores : Nat → State → State
  | 0, s => s
  | n + 1, s =>
    match s.headReq with
    | some r =>
      if reqOp r.2 = 0x39 then
        ({ s with rqhead := (s.rqhead + 1) % 2 ^ s.rqsize, waitReq := s.waitReq ++ [r] } : State).passRestores n
      else s
    | none => s
/-- Take the next request whose operation a test selects: one that waited, else the record at RQHEAD; a restore does not hold
up the requests behind it. -/
def State.request (s : State) (op : Nat → Bool) (f : Nat → List Word → State → Option (Nat × Nat) × State) : Out :=
  .next (
    if s.down || !s.booted then s
    else match s.findReq op [] s.waitReq with
      | some r => (({ s with waitReq := s.waitReq.erase r } : State)).handle r (f r.1)
      | none =>
        if s.readyFirst [] s.waitReq then s
        else
          let u := if op 0x39 then s else s.passRestores (2 ^ s.rqsize)
          match u.headReq with
          | none => s
          | some r =>
            if !op (reqOp r.2) then s
            else
              let t : State := { u with rqhead := (u.rqhead + 1) % 2 ^ u.rqsize }
              if t.reqWaits t.waitReq r.2 then { t with waitReq := t.waitReq ++ [r] } else t.handle r (f r.1))

/-- A response with no value. -/
def done (status : Nat) (s : State) : Option (Nat × Nat) × State := (some (status, 0), s)
/-- Refuse a request as invalid, or perform it. -/
def okIf (ok : Bool) (s : State) (t : State) : Option (Nat × Nat) × State := if ok then done 0 t else done 0x02 s

/-! ### Contexts (R404, R423) -/

/-- Ranges of memory that a reserved range must miss: those of other contexts, of valid extents, and of the entries that
revocations in progress will write (R28, R169). -/
def State.taken (s : State) : List (Nat × Nat) :=
  s.ctxs.flatMap fun e => (e.2.rbase, e.2.rlen) ::
    ((e.2.exts.map fun x => x.2) ++ e.2.revs.filterMap fun v => v.new).filterMap fun x =>
      if xValid x then some (xBase x, 2 ^ xLog x) else none
/-- Length of a reserved range: 1 MiB, 512 MiB and CKSLOTS × 2.25 MiB, rounded up to 2 MiB. -/
def reservedLen (cks : Nat) : Nat := (513 * 2 ^ 20 + cks * (9 * 2 ^ 18) + (2 ^ 21 - 1)) / 2 ^ 21 * 2 ^ 21
/-- The highest free range of a length: it ends at the top of general memory or where a taken range begins. -/
def State.reserveRange (s : State) (n : Nat) : Option Nat :=
  let tops := s.hbmTop :: (s.taken.map fun r => r.1)
  let ok (b : Nat) : Bool := decide (b + n ≤ s.hbmTop) && !(s.taken.any fun r => rangesMeet b n r.1 r.2)
  let bases := (tops.filterMap fun t => if n ≤ t then some ((t - n) / 2 ^ 21 * 2 ^ 21) else none).filter ok
  bases.foldl (fun (m : Option Nat) b => some (m.elim b fun x => max x b)) none
/-- The lowest free context number. -/
def State.freeCtx (s : State) : Option Nat := (upto 0 8).find? fun c => !s.hasCtx c

def execCreateContext (s : State) : Out :=
  s.request (· == 0x01) fun _ w t =>
    let cks := bits (arg w 0) 12 0
    let svc := bit (arg w 0) 16
    if cks < 128 ∨ 4096 < cks then done 0x02 t
    else if !t.armed then done 0x03 t
    else if !svc && bits (wd t.config 0) 63 56 != 0 then done 0x06 t
    else match t.freeCtx, t.reserveRange (reservedLen cks) with
      | some c, some b =>
        (some (0, c + b / 2 ^ 21 * 2 ^ 4 + reservedLen cks / 2 ^ 21 * 2 ^ 35),
         t.setCtx c { Ctx.init with svc := svc, ckslots := cks, rbase := b, rlen := reservedLen cks })
      | _, _ => done 0x05 t

/-- Whether a context has a job or a block that runs. -/
def State.running (s : State) (c : Nat) : Bool :=
  !(s.ctx c).jobs.isEmpty || s.cores.any fun e => e.2.blk.any fun r => r.ctx.val == c
/-- Everything a context holds goes back; its revocations in progress, which no holder is left to acknowledge, end. -/
def State.dropCtx (s : State) (c : Nat) : State :=
  let t := (s.ctx c).revs.foldl
    (fun (u : State) v => v.slot.elim u fun r => u.respond r.1 r.2 0 0) s
  { t with
    ctxs := mdel t.ctxs c
    leases := t.leases.filter fun l => l.2.ctx.val != c
    ways := t.ways.filter fun w => w.2.ctx.val != c
    rxPuts := t.rxPuts.filter fun p => p.ctx.val != c
    nmctx := t.nmctx.filter fun u => u.2 != c
    cores := t.cores.map fun e => if e.2.lastCtx.any (fun n => n.val == c) then (e.1, { e.2 with lastCtx := none }) else e
    arms := t.arms.filter fun a => a.1.val != c
    reev := t.reev.filter fun a => a.1.val != c
    rxhold := t.rxhold.filter fun p => p.ctx.val != c }
def execDestroyContext (s : State) : Out :=
  s.request (· == 0x02) fun _ w t =>
    let c := reqCtx w
    let u := if t.running c && !(t.ctx c).stopped then
        (t.logEv (Ev.of 0x01 0x65 c)).stopWork c none 0x65 0 [0, 0, 0, 0]
      else t
    done 0 (u.dropCtx c)

/-! ### Extents (R169, R177, R309) -/

/-- An extent that peers reach through an inbound buffer carries atomic transport class 2 (R171, R337;
notes/assumptions/59.md). -/
def Ctx.peerClass (t : Ctx) (id : Nat) (x : Extent) : Extent :=
  if t.bufs.any fun b => b.2 == id then BitVec.ofNat 128 (putBits x.toNat 116 115 2) else x
def execWriteExtent (s : State) : Out :=
  s.request (· == 0x10) fun a w t =>
    let c := reqCtx w
    let id := arg w 0
    let x := (t.ctx c).peerClass id (entryOf (arg w 1) (arg w 2))
    if 16384 ≤ id ∨ !t.extentOk c id x then done 0x02 t
    else if xValid ((t.ctx c).ext id) then (none, t.revoke c id (some x) (some (a, w.getD 0 0)) false)
    else done 0 (t.modCtx c fun u => { u with exts := mset u.exts id x })

/-- An entry with another frame (R404 operation 0x11). -/
def Extent.reframe (x : Extent) (f : Nat) : Extent := BitVec.ofNat 128 (putBits x.toNat 89 59 f)
def execRevokeExtent (s : State) : Out :=
  s.request (· == 0x11) fun a w t =>
    let c := reqCtx w
    let id := arg w 0
    let x := (t.ctx c).ext id
    let new := Extent.reframe x (bits (arg w 1) 51 21)
    if !xValid x then done 0x02 t
    else if bit (arg w 1) 0 then
      if xTier x = 2 ∧ t.runHolds c id then done 0x03 t else (none, t.revoke c id none (some (a, w.getD 0 0)) false)
    else if !t.extentOk c id new then done 0x02 t
    else (none, t.revoke c id (some new) (some (a, w.getD 0 0)) false)

def execLeaseChannel (s : State) : Out :=
  s.request (· == 0x18) fun _ w t =>
    let c := Fin.ofNat 8 (reqCtx w)
    let ch := arg w 0
    let set (p : Nat) : State := { t with leases := mset t.leases ch ⟨c, p, t.rtime + p * 1000000, false⟩ }
    if !t.leasable ch then done 0x02 t
    else match mget t.leases ch with
      | none => okIf (arg w 1 != 0) t (set (arg w 1))
      | some l =>
        if l.lapsed then okIf (arg w 1 != 0) t (set (arg w 1))
        else if l.ctx ≠ c then done 0x03 t
        else done 0 (set (if arg w 1 = 0 then l.period else arg w 1))

def execEndLease (s : State) : Out :=
  s.request (· == 0x19) fun _ w t =>
    let c := reqCtx w
    let ch := arg w 0
    match mget t.leases ch with
    | none => done 0x02 t
    | some l =>
      if l.ctx.val ≠ c ∨ l.lapsed then done 0x02 t
      else
        let u : State := { t with leases := mset t.leases ch { l with expiry := t.rtime } }
        done 0 (if u.lapseDeferred c ch then u else u.lapse c ch)

def execDesignateNearMemoryRegion (s : State) : Out :=
  s.request (· == 0x1A) fun _ w t =>
    let c := reqCtx w
    let ch := arg w 0
    let id := arg w 1
    let x := (t.ctx c).ext id
    let ok := xValid x && xTier x == 2 && leaseChannel (xBase x) == some ch && t.leased c ch && bits (xPerm x) 5 4 != 0
    okIf ok t ((t.modCtx c fun u => { u with regions := mset u.regions ch id }).unpause c id)

/-! ### Tables (R288) -/

/-- Tables of the device that have a sketch. -/
def State.sketches (s : State) : Nat :=
  (s.ctxs.map fun e => (e.2.tables.filter fun d => tbValid d.2 && tbSke d.2).length).sum
/-- The checks of R288. -/
def State.tableOk (s : State) (c : Nat) (d : Tab) : Bool :=
  let t := s.ctx c
  let str := tbStr d
  let perShard := (tbRows d + tbNsh d - 1) / tbNsh d * str
  [0x0A, 0x08, 0x09, 0x00, 0x0D].contains (tbType d) && decide (tbW d ≤ 512) && str % 16 == 0 &&
    decide (16 ≤ str ∧ str ≤ 2048 ∧ 1 ≤ tbNsh d ∧ tbNsh d ≤ 64 ∧ 1 ≤ tbRows d) && bits (wd d 0) 18 0 == 0 &&
    bits (wd d 1) 17 0 == 0 && bits (wd d 2) 31 0 == 0 && wd d 3 == 0 &&
    ((tbExts d).all fun n =>
      let x := t.ext n
      decide (n < 16384) && xValid x && xTier x == 2 && bit (xPerm x) 9 && decide (perShard ≤ 2 ^ xLog x)) &&
    decide (tbBytes d ≤ str) && !(tbHot d && (!tbSke d || s.hrcsz == 0)) && !(tbSke d && decide (16 ≤ s.sketches))
def execWriteTableDescriptor (s : State) : Out :=
  s.request (· == 0x20) fun _ w t =>
    let c := reqCtx w
    let tid := arg w 0
    let d := reqTab w
    let u := (t.clearWays fun x => x.ctx.val == c && x.tid == tid).modCtx c fun v =>
      { v with
        tables := mset v.tables tid d
        sketch := v.sketch.filter fun e => e.1 / 2 ^ 18 != tid
        decayAt := mset v.decayAt tid (t.rtime + tbDecay d * 1000000) }
    okIf (decide (tid < 1024) && t.tableOk c d) t u

/-! ### Exchange (R337, R338) -/

/-- The device numbers of a group registration. -/
def State.rankList (s : State) (a n : Nat) : List Nat := (upto 0 n).map fun i => s.peek (hostBase + (a + 2 * i) % 2 ^ 51) 2
def execRegisterExchangeGroup (s : State) : Out :=
  s.request (· == 0x28) fun _ w t =>
    let c := reqCtx w
    let n := bits (arg w 0) 26 16
    let rank := bits (arg w 0) 41 32
    let bcap := bits (arg w 2) 16 0
    let devs := t.rankList (arg w 1) n
    let ok := decide (1 ≤ n ∧ n ≤ 1024 ∧ rank < n ∧ 1 ≤ bcap ∧ bcap ≤ 65536) && devs.all fun d => decide (d < 1024) && t.reachable d
    okIf ok t (t.modCtx c fun u =>
      { u with groups := mset u.groups (bits (arg w 0) 5 0) ⟨n, rank, devs, bcap, bits (arg w 3) 31 0, 0, 0, 0⟩ })

/-- An inbound buffer is registered, and its extent carries atomic transport class 2 from then on. -/
def Ctx.addBuf (t : Ctx) (n id : Nat) : Ctx :=
  let u := { t with bufs := mset t.bufs n id }
  { u with exts := mset u.exts id (u.peerClass id (u.ext id)) }
def execRegisterInboundBuffer (s : State) : Out :=
  s.request (· == 0x29) fun _ w t =>
    let c := reqCtx w
    let x := (t.ctx c).ext (arg w 1)
    okIf (decide (arg w 0 < 256) && xValid x && bit (xPerm x) 0) t
      (t.modCtx c fun u => u.addBuf (arg w 0) (arg w 1))

/-- Packets to a device whose entry has become invalid fail at once (R338). -/
def State.failDevice (s : State) (dev : Nat) : State :=
  (s.tx.filter fun e => e.2.dev == dev).foldl
    (fun (t : State) e =>
      if (mget t.tx e.1).isNone then t
      else match e.2.own with
        | some o => t.spEnd o.1 o.2 0x57 e.2.rank false false
        | none => { t with tx := mdel t.tx e.1 }) s
def execWritePeerEntry (s : State) : Out :=
  s.request (· == 0x2A) fun _ w t =>
    let dev := arg w 0
    let d := (w.drop 2).take 4
    let v := bit (wd d 0) 63
    let self := v && bit (wd d 0) 62
    let ok := decide (dev < 1024) && bits (wd d 0) 61 32 == 0 && wd d 3 == 0 &&
      !(self && t.peers.any fun e => e.1 != dev && bit (wd e.2 0) 63 && bit (wd e.2 0) 62)
    let u : State := { t with peers := mset t.peers dev d }
    okIf ok t (if v then u else u.failDevice dev)

/-! ### Must-save entries (R382, R383) -/

def msClass (d : List Word) : Nat := bits (wd d 0) 62 62
def msKind (d : List Word) : Nat := bits (wd d 0) 61 60
def msPrio (d : List Word) : Nat := bits (wd d 0) 59 52
def msCard (d : List Word) : Nat := bits (wd d 0) 51 40
def msMax (d : List Word) : Nat := bits (wd d 0) 39 32 + 1
def msAddr (d : List Word) : Nat := wd d 1
/-- Bytes an entry is charged (R383). -/
def msCharge (d : List Word) : Nat := if msKind d = 0 then msLen d else msLen d * msMax d
/-- Charges admitted over all contexts: guaranteed ones, and all. -/
def State.charges (s : State) : Nat × Nat :=
  let all := s.ctxs.flatMap fun e => e.2.must.map fun d => d.2
  (((all.filter fun d => msClass d == 0).map msCharge).sum, (all.map msCharge).sum)
/-- The validity of an entry. -/
def Ctx.mustOk (t : Ctx) (n : Nat) (d : List Word) : Bool :=
  decide (n < 64) && bit (wd d 0) 63 && msKind d != 3 && wd d 3 == 0 && msLen d != 0 &&
    if msKind d = 0 then
      msCard d == 0 && msMax d == 1 && bits (msAddr d) 63 60 == 0 && msAddr d % 4096 == 0 && msLen d % 4096 == 0 &&
        t.exts.any fun x => xValid x.2 && xTier x.2 == 0 && decide (xFirst x.2 ≤ msAddr d ∧ msAddr d + msLen d ≤ xTop x.2)
    else msAddr d % 16 == 0 && msLen d % 16 == 0
/-- GBUD and TBUD of HUBUD, in bytes. -/
def State.gbud (s : State) : Nat := bits s.hubud.toNat 15 0 * 2 ^ 20
def State.tbud (s : State) : Nat := bits s.hubud.toNat 31 16 * 2 ^ 20
def execWriteMustSaveEntry (s : State) : Out :=
  s.request (· == 0x30) fun _ w t =>
    let c := reqCtx w
    let n := arg w 0
    let d := (w.drop 2).take 4
    let sum := t.charges
    if !(t.ctx c).mustOk n d then done 0x02 t
    else if (mget (t.ctx c).must n).isSome then done 0x03 t
    else if (if msClass d = 0 then t.gbud < sum.1 + msCharge d else t.tbud < sum.2 + msCharge d) then done 0x01 t
    else done 0 (t.modCtx c fun u => { u with must := mset u.must n d })
def execWithdrawMustSaveEntry (s : State) : Out :=
  s.request (· == 0x31) fun _ w t =>
    let c := reqCtx w
    okIf (mget (t.ctx c).must (arg w 0)).isSome t (t.modCtx c fun u => { u with must := mdel u.must (arg w 0) })

/-! ### The save store (R388, R389, R422) -/

/-- Bytes of the save store; 0 where the save has written nothing. -/
def NonVol.bytes (nv : NonVol) (off n : Nat) : List Byte := (upto off n).map fun a => mgetD nv.store a 0
def NonVol.word (nv : NonVol) (off : Nat) : Nat := ofBytes (nv.bytes off 8)
/-- Write bytes of the save store. -/
def NonVol.put (nv : NonVol) (off : Nat) (bs : List Byte) : NonVol :=
  { nv with store := (cellsAt off bs).foldl (fun m c => mset m c.1 c.2) nv.store }
/-- Where the black-box image, the directory and the first extent begin. -/
def saveBB : Nat := 0x1000
def saveDir : Nat := 0x41000
def saveExtents : Nat := 0x1000000
/-- The completion marker. -/
def saveSeal : Nat := 0x5345414C
/-- Where a saved extent's trailer of 128 bytes stands, behind its pieces: words 0 and 1 the data bytes
and the poisoned granules, words 2 to 9 the digest, word 15 the marker (notes/assumptions/60.md). -/
def Saved.trailer (x : Saved) : Nat := x.at_ + x.body
/-- Whether an entry came back whole: the trailer's marker is there and the digest is that of the pieces (R389). -/
def NonVol.whole (nv : NonVol) (x : Saved) : Bool :=
  nv.word (x.trailer + 120) == saveSeal && nv.bytes (x.trailer + 16) 64 == digest64 (nv.bytes x.at_ x.body)
/-- The class of an entry: 0 whole, 1 torn, 2 absent (R389). -/
def NonVol.result (nv : NonVol) (x : Saved) : Nat := if nv.whole x then 0 else if x.written = 0 then 2 else 1

/-! ### The recovery report and saved entries (R391) -/

/-- The physical address of a virtual range that lies in one TIER 0 extent. -/
def Ctx.tier0 (t : Ctx) (v n : Nat) : Option Nat :=
  (t.exts.find? fun x => xValid x.2 && xTier x.2 == 0 && decide (xFirst x.2 ≤ v ∧ v + n ≤ xTop x.2)).map fun x => xPhys x.2 v
/-- Whether the command processor may write every byte of a virtual range of a context: extents in force map it, and the
windows among them stand for cores and scratch that the context's own path-3 writes reach (R358, R391). -/
def State.mapped (s : State) (c v n : Nat) : Bool :=
  (upto (v / 2 ^ 21) ((v + n + 2 ^ 21 - 1) / 2 ^ 21 - v / 2 ^ 21)).all fun p =>
    match s.lookup c (p * 2 ^ 21) with
    | .ok e =>
      let lo := max v (p * 2 ^ 21)
      xTier e.2 != 4 || (s.windowFault (Fin.ofNat 8 c) ⟨.window, 3, e.1, xPhys e.2 lo, 0⟩ 0 (min (v + n) ((p + 1) * 2 ^ 21) - lo)).isNone
    | .error _ => false
/-- Bytes at a virtual address as cells of memory. -/
def State.cellsVia (s : State) (c v : Nat) (bs : List Byte) : List Host.Cell :=
  (cellsAt v bs).filterMap fun b => ((s.ctx c).findExt b.1).bind fun e =>
    if xTier e.2 = 4 then none else some (xPhys e.2 b.1, b.2)
/-- Write those that lie in on-chip windows, as path-3 writes of an engine are (R186; notes/assumptions/60.md). -/
def State.winVia (s : State) (c v : Nat) (bs : List Byte) : State :=
  (granPieces v bs.length).foldl
    (fun (u : State) q => match (u.ctx c).findExt q.1 with
      | some e =>
        let r := xPhys e.2 q.1 - onChipBase
        if xTier e.2 = 4 ∧ u.meet (Fin.ofNat 8 c) (r / 2 ^ 23) = .block then
          u.writeWin [] (r / 2 ^ 23) (r % 2 ^ 23) true ((bs.drop (q.1 - v)).take q.2)
        else u
      | none => u) s
/-- A write of the command processor that a host arm after its response follows (R33, R391). -/
def State.cpWrite (s : State) (r : Nat × List Word) (cells : List Host.Cell) : Option (Nat × Nat) × State :=
  if s.rowsPinned (cells.map fun c => c.1) then (none, { s with waitReq := r :: s.waitReq }) else done 0 (s.hostWrite cells)
def execCopyRecoveryReport (s : State) : Out :=
  s.request (· == 0x38) fun a w t =>
    let c := reqCtx w
    let off := arg w 0
    let n := arg w 1
    if !t.repHeld ∨ 8384 < off + n then done 0x02 t
    else match (t.ctx c).tier0 (t.reqRange w).1 n with
      | none => done 0x02 t
      | some p => t.cpWrite (a, w) (cellsAt p ((((t.report.flatMap fun x => toBytes 8 x.toNat)).drop off).take n))

/-- The pieces of a saved entry, each behind its 64-byte header, as the save store holds them (R388). -/
def NonVol.image (nv : NonVol) (x : Saved) : List Byte := nv.bytes x.at_ x.body
def execRestoreSavedEntry (s : State) : Out :=
  s.request (· == 0x39) fun a w t =>
    let c := reqCtx w
    let v := (t.reqRange w).1
    match t.nv.entry w with
    | none => done 0x02 t
    | some x =>
      if t.nv.result x ≠ 0 ∨ !t.mapped c v x.body then done 0x02 t
      else
        let r := t.cpWrite (a, w) (t.cellsVia c v (t.nv.image x))
        if r.1.isSome then (r.1, r.2.winVia c v (t.nv.image x)) else r

/-! ### Boot parameters and unknown operations (R404, R405) -/

def execWriteBootParameters (s : State) : Out :=
  s.request (· == 0x40) fun _ w t =>
    okIf (decide (arg w 0 ≤ 96)) t { t with nv := { t.nv with hrcsz := arg w 0, lplease := arg w 1 } }

def execUnknownRequest (s : State) : Out := s.request (fun op => !knownOps.contains op) fun _ _ t => done 0x02 t

end Sys2Proof.Machine
end

