-- ==== Sys2Proof/Machine/HoldUp.lean ====
section
/-!
DEFINITION. Sys2Proof/Machine/HoldUp.lean: Thrift: what a supply event freezes, the steps H0 to H3 in reference time, handovers,
and power-off (R273, R384 to R388, R397, R399, R422).
-/
namespace Sys2Proof.Machine
open Sys2Proof

/-! ### What an entry captures (R384) -/

/-- Admitted entries in save order (R386), by directory slot 64 × context + entry. -/
def State.saveOrder (s : State) : List (Nat × List Word) :=
  sortBy (fun a b => (msClass a.2 * 256 + msPrio a.2) * 512 + a.1 ≤ (msClass b.2 * 256 + msPrio b.2) * 512 + b.1)
    (s.ctxs.flatMap fun e => e.2.must.map fun d => (64 * e.1 + d.1, d.2))

/-- A granule as a save writes it: a lost one is zero and counted. -/
def savedGran (lost : Bool) (bs : List Byte) : Bool × List Byte := (lost, if lost then List.replicate 16 0 else bs)
/-- The granules of a piece of scratch or elastic scratch; those at or beyond `top` are zero. -/
def State.pieceGrans (s : State) (w : Where) (at_ : Nat → Nat) (off n top : Nat) : List (Bool × List Byte) :=
  (upto (off / 16) (n / 16)).map fun g =>
    if top ≤ 16 * g then (false, List.replicate 16 0)
    else
      let x := s.gran w (at_ (16 * g) / 16)
      savedGran x.pois (toBytes 16 x.data.toNat)
/-- The pieces of an entry: index and granules; blocks of the card's current arm only, and none that is killed (R359, R384). -/
def State.pieces (s : State) (slot : Nat) (d : List Word) : List (Nat × List (Bool × List Byte)) :=
  let c := slot / 64
  let ks := sortBy (fun a b => (s.core a).res.block ≤ (s.core b).res.block)
    (s.coresOf c fun r => r.card == msCard d && r.serial.toNat == (s.ctx c).cserial r.card)
  match msKind d with
  | 0 =>
    match (s.ctx c).tier0 (msAddr d) (msLen d) with
    | none => []
    | some a => [(0, (upto (a / 16) (msLen d / 16)).map fun g =>
        savedGran (mget s.poison g).isSome (s.peekBytes (16 * g) 16))]
  | 1 => (ks.take (msMax d)).map fun k =>
      let x := s.core k
      (x.res.block, s.pieceGrans (.scr k) (dblMap x.res.hdr x.r.par) (msAddr d) (msLen d) (bits (x.res.hw 5) 63 40))
  | _ =>
    let gs := (ks.map fun k => ((s.core k).res.gang, (s.core k).res)).foldl (fun m e => mset m e.1 e.2) []
    (gs.take (msMax d)).map fun e => (e.1, s.pieceGrans e.2.elastic id (msAddr d) (msLen d) e.2.llc)

/-! ### The bytes of an extent (R386, R388) -/

/-- Bytes of an extent with n pieces of `len` bytes, padded to 4 KiB. -/
def rawTotal (n len : Nat) : Nat := (n * (64 + len) + 128 + 4095) / 4096 * 4096
/-- Data bytes among its first raw bytes. -/
def dataOf (n len raw : Nat) : Nat :=
  if n ≤ raw / (64 + len) then n * len else raw / (64 + len) * len + (raw % (64 + len) - 64)
/-- Bytes written of an extent when its first data bytes are. -/
def rawOf (n len data : Nat) : Nat := min (data + 64 * ((data + len - 1) / len)) (rawTotal n len)
/-- Data bytes of an item. -/
def SaveItem.data (x : SaveItem) : Nat := x.pieces.length * msLen x.desc
def SaveItem.raw (x : SaveItem) : Nat := rawTotal x.pieces.length (msLen x.desc)
/-- Granules saved as zero among its first data bytes. -/
def SaveItem.lost (x : SaveItem) (data : Nat) : Nat :=
  (((x.pieces.flatMap fun p => p.2).take (data / 16)).filter fun g => g.1).length
/-- The pieces, each behind its 64-byte header (R388). -/
def SaveItem.body (x : SaveItem) : List Byte :=
  x.pieces.flatMap fun p =>
    (if msKind x.desc = 0 then List.replicate 64 0
     else toBytes 8 (p.1 % 2 ^ 24) ++ toBytes 8 (msLen x.desc) ++ List.replicate 48 0) ++ p.2.flatMap fun g => g.2
/-- The trailer, its marker last. -/
def SaveItem.trailer (x : SaveItem) : List Byte :=
  toBytes 8 x.data ++ toBytes 8 (x.lost x.data) ++ digest64 x.body ++ List.replicate 40 0 ++ toBytes 8 saveSeal
/-- An extent of which the first `data` data bytes are written, and all of it where `whole`, goes into the save store
(R388). -/
def NonVol.store1 (nv : NonVol) (h : Hold) (x : SaveItem) (data : Nat) (whole : Bool) : NonVol :=
  let len := msLen x.desc
  let all := x.body ++ x.trailer ++ List.replicate (x.raw - x.body.length - 128) 0
  { nv.put h.next (if whole then all else x.body.take (rawOf x.pieces.length len data)) with
    saved := nv.saved ++ [⟨x.slot, x.desc, h.next, min x.pieces.length (if whole then x.pieces.length else (data + len - 1) / len),
      data, x.lost data⟩] }

/-- The energy the bank measures, in mJ: the n-th of the event's figures, the last one for good. -/
def Hold.energy (h : Hold) (n : Nat) : Nat := h.meas.getD n (h.meas.getLast?.getD 0)
/-- Whether the bank lets unit u of H2 be written: E_r less 11.5 mJ per MiB × 4 KiB stays at or above 100 mJ (R386). -/
def Hold.allows (h : Hold) (u : Nat) : Bool := decide (51200 + 23 ≤ 512 * h.energy (2 + u))
/-- The first unit of an extent that the bank does not allow; never one of a guaranteed entry, which an armed bank, the only
one to begin a save, brings back whole (R387, R399). -/
def Hold.stopAt (h : Hold) (x : SaveItem) : Option Nat :=
  if msClass x.desc = 0 then none else (upto 0 (x.raw / 4096)).find? fun j => !h.allows (h.units + j)
/-- Nanoseconds of a write at 3.2 GB/s. -/
def saveNs (bytes : Nat) : Nat := (bytes * 5 + 15) / 16

/-! ### The sequence (R385) -/

/-- Log a step of the sequence at its time, with the energy measured (R378 type 0x07). -/
def State.logStep (s : State) (time step code detail energy : Nat) : State :=
  let t := ({ s with rtime := time } : State).logEv { Ev.of 0x07 code 0 with detail := detail, p0 := step, p1 := energy }
  { t with rtime := s.rtime }
/-- H3 begins. -/
def State.beginH3 (s : State) (h : Hold) (time : Nat) : State :=
  { s.logStep time 3 0 0 (h.energy (2 + h.units)) with
    hold := some { h with step := 3, began := time, due := time + 20000, todo := [] } }
/-- The data bytes of an extent that the bank lets be written. -/
def Hold.dataOf (h : Hold) (x : SaveItem) : Nat :=
  (h.stopAt x).elim x.data fun j => Sys2Proof.Machine.dataOf x.pieces.length (msLen x.desc) (4096 * j)
/-- The next extent begins, or H3 where none is left. -/
def State.beginExtent (s : State) (h : Hold) (time : Nat) : State :=
  match h.todo with
  | [] => s.beginH3 h time
  | x :: _ => { s with hold := some { h with step := 2, began := time, due := time + saveNs (h.dataOf x) } }
/-- An extent's place in the save store is used up, to the next 4 KiB boundary. -/
def Hold.used (h : Hold) (x : SaveItem) (units : Nat) : Hold :=
  { h with todo := h.todo.tail, next := h.next + x.raw, units := h.units + units }
/-- Record an extent in the save store. -/
def State.store (s : State) (h : Hold) (x : SaveItem) (data : Nat) (whole : Bool) : State :=
  { s with nv := s.nv.store1 h x data whole }
/-- Entries that are never written (R386). -/
def State.storeAbsent (s : State) (h : Hold) (xs : List SaveItem) : State := xs.foldl (fun t x => t.store h x 0 false) s

/-- The directory: 512 slots of 64 bytes, each an entry's words and its context (R388). -/
def dirBytes (xs : List SaveItem) : List Byte :=
  (upto 0 512).flatMap fun n => match xs.find? fun x => x.slot == n with
    | some x => ((x.desc.take 4).flatMap fun v => toBytes 8 v.toNat) ++ toBytes 8 (n / 64) ++ List.replicate 24 0
    | none => List.replicate 64 0
/-- A save begins: it overwrites the one before it, from whose header and trailers nothing is taken over (R388;
notes/assumptions/60.md); the black-box image and the directory are written. -/
def NonVol.beginSave (nv : NonVol) (s : State) (xs : List SaveItem) : NonVol :=
  let ring := (upto 0 4096).flatMap fun n => (upto 0 8).flatMap fun i => toBytes 8 (wd (mgetD s.bbring n []) i)
  (({ nv with held := true, store := [], saved := []
              bbRegs := [w64 s.bbnext, w64 (b2n s.frozen), w64 s.bblost] } : NonVol).put saveBB ring).put saveDir (dirBytes xs)
/-- The sequence ends: the save header with its marker is written (R388, R422). -/
def State.sealSave (s : State) (h : Hold) : State :=
  let w := [0x54485231 + s.nv.boots % 2 ^ 32 * 2 ^ 32, h.start, s.hucap % 2 ^ 32 + 3 * 2 ^ 32 + min h.hands 255 * 2 ^ 40]
  let dig := digest64 (s.nv.bytes saveDir 0x8000 ++ s.nv.saved.flatMap fun x => s.nv.bytes x.trailer 128)
  { s with nv := (s.nv.put 0 ((w.flatMap fun v => toBytes 8 v) ++ dig ++ List.replicate 4000 0)).put 4088 (toBytes 8 saveSeal) }

/-- Power goes: only what is non-volatile outlives it; host memory is the host's (R382, R399). -/
def State.powerOff (s : State) : State :=
  { State.reset with
    schedule := s.schedule
    free := s.free
    mem := s.mem.filter fun c => decide (hostBase ≤ c.1)
    txlog := s.txlog
    msixSent := s.msixSent
    nv := s.nv }

/-- The sequence is over: the module powers off, and a boot may follow at once where the supply has returned (R385). -/
def State.holdOver (s : State) (h : Hold) : State := { s.powerOff with power := h.supply }
/-- What happens when the write in flight is due.  H3 needs 100 mJ: a bank that holds less, with no supply back, does not
write the header (R386, R422; notes/assumptions/60.md). -/
def State.holdNext (s : State) (h : Hold) : State :=
  let t := h.due
  match h.step with
  | 0 =>
    let u := s.logStep t 1 0 0 (h.energy 1)
    { u with hold := some { h with step := 1, began := t, due := t + 92160 } }
  | 1 =>
    let u : State := { s with nv := s.nv.beginSave s h.todo }
    (u.logStep t 2 0 0 (h.energy 2)).beginExtent { h with step := 2 } t
  | 2 =>
    match h.todo with
    | [] => s.beginH3 h t
    | x :: rest =>
      match h.stopAt x with
      | some j =>
        let g := h.used x j
        ((s.store h x (h.dataOf x) false).storeAbsent g rest).beginH3 g t
      | none => (s.store h x x.data true).beginExtent (h.used x (x.raw / 4096)) t
  | _ =>
    if h.supply || decide (100 ≤ h.energy (2 + h.units)) then (s.sealSave h).holdOver h else s.holdOver h
/-- Let the sequence go on to a time. -/
def State.holdTo : Nat → State → Nat → State
  | 0, s, _ => s
  | n + 1, s, time =>
    match s.hold with
    | none => s
    | some h => if time < h.due then s else (s.holdNext h).holdTo n time
/-- Writes that a sequence can still make. -/
def Hold.fuel (h : Hold) : Nat := h.todo.length + 8
/-- What is due by now. -/
def State.holdNow (s : State) : State := s.hold.elim s fun h => s.holdTo h.fuel s.rtime
/-- The rest of the sequence, however long it takes. -/
def State.holdEnd (s : State) : State := s.hold.elim s fun h => s.holdTo h.fuel (2 ^ 64)

/-- A handover of the save path (R387). -/
def State.handover (s : State) (h : Hold) : State :=
  let now := s.rtime
  let g : Hold := { h with hands := h.hands + 1, supply := !h.supply }
  let dur := h.due - h.began
  if h.step = 0 then s
  else if h.step = 2 then
    match h.todo with
    | [] => s
    | x :: _ =>
      if now < h.began then { s with hold := some { g with began := now + 50000, due := now + 50000 + dur } }
      else
        let data := min x.data ((now - h.began) * 16 / 5)
        (s.store h x data false).beginExtent
          (g.used x ((rawOf x.pieces.length (msLen x.desc) data + 4095) / 4096)) (now + 50000)
  else { s with hold := some { g with began := now + 50000, due := now + 50000 + dur } }

/-- A supply event (R385, R397): the freeze of H0 with what the entries capture (R384); power-off before ARMED (R399); or
the renewed loss of a supply that had returned. -/
def State.supplyEvent (s : State) (detail : Nat) (measured : List Nat) : State :=
  match s.hold with
  | some h => if h.supply then s.handover h else s
  | none =>
    if !s.booted ∨ !s.armed then { s.powerOff with power := false }
    else
      let h : Hold := { start := s.rtime, step := 0, began := s.rtime, due := s.rtime + 2000, hands := 0, supply := false
                        todo := s.saveOrder.map fun x => ⟨x.1, x.2, s.pieces x.1 x.2⟩, next := saveExtents, units := 0
                        meas := measured }
      let t := s.logStep s.rtime 0 0x60 detail (h.energy 0)
      { t with
        cores := t.cores.map fun e => (e.1, { e.2 with pend := [] })
        down := true
        armed := false
        hold := some h }
def execPowerFail (measured : List Nat) (s : State) : Out := .next (s.supplyEvent 0 measured)
def execOvervoltage (measured : List Nat) (s : State) : Out := .next (s.supplyEvent 2 measured)
def execThermalTrip (measured : List Nat) (s : State) : Out :=
  .next (match s.hold with
    | some _ => s
    | none => s.supplyEvent 1 measured)
def execSupplyReturn (s : State) : Out :=
  .next (match s.hold with
    | some h => if h.supply then s else s.handover h
    | none => { s with power := true })

end Sys2Proof.Machine
end

