-- ==== Sys2Proof/Machine/Package.lean ====
section
/-!
DEFINITION. Sys2Proof/Machine/Package.lean: transient and lasting faults, the power controller, and boot (R70, R73, R74, R371 to
R377, R380, R381, R389, R390, R398 to R401, R405).
-/
namespace Sys2Proof.Machine
open Sys2Proof

/-! ### Retirements in force (R376, R377) -/

/-- Units of a kind among the retirement entries, each with its SPARE field. -/
def NonVol.units (nv : NonVol) (kind : Nat) : List (Nat × Nat) :=
  nv.retire.filterMap fun e =>
    if bits e.1.toNat 62 59 = kind then some (bits e.1.toNat 58 40, bits e.1.toNat 39 32) else none
/-- Mark a channel for retirement (R372, R374): the next boot leaves it out. -/
def State.retireChannel (s : State) (why : Cause) (lp : Bool) (ch : Nat) : State :=
  if (s.nv.units (if lp then 2 else 1)).any fun u => u.1 == ch then s
  else s.retirePart why (if lp then 2 else 1) ch 0 s.rtime 0

/-! ### DRAM rows (R371, R372, R374) -/

/-- The number of a DRAM channel among both kinds, for the counters and the spares. -/
def chanUnit (lp : Bool) (ch : Nat) : Nat := (if lp then 256 else 0) + ch
/-- The counter unit of a DRAM row. -/
def rowUnit (lp : Bool) (ch bank row : Nat) : Nat := (chanUnit lp ch * 2 ^ 12 + bank % 2 ^ 12) * 2 ^ 24 + row % 2 ^ 24
/-- Keys of spares in use: of banks, of channels' own rows, of HBM4E channels' TSVs, of bundles, of ports. -/
def spareKey (kind unit : Nat) : Nat := kind * 2 ^ 32 + unit
def State.used (s : State) (key : Nat) : Nat := mgetD s.spares key 0
/-- A spare is used, live; for good where the tables have room for its entry (R376, R377; notes/assumptions/61.md). -/
def State.useSpare (s : State) (key : Nat) : State :=
  let m := mset s.spares key (s.used key + 1)
  { s with spares := m, nv := { s.nv with spares := if s.nv.retire.length < 4096 then mset s.nv.spares key (s.used key + 1) else s.nv.spares } }

/-- A row repair (R374): a spare of the bank, else one of the channel's 1,024; the channel is marked when those are used.
A remapped row's data move, or its granules are written with the poison code. -/
def State.repairRow (s : State) (why : Cause) (lp : Bool) (ch bank row : Nat) (movable : Bool) : State :=
  let u := chanUnit lp ch
  let kb := spareKey 0 (u * 2 ^ 12 + bank % 2 ^ 12)
  let kc := spareKey 1 u
  let t := if movable then s else s.setPoison (Config.rowGranules lp ch bank row)
  let when_ := bank % 2 ^ 32 * 2 ^ 32 + row % 2 ^ 32
  if s.used kb < Config.bankSpares lp ch bank then
    (t.useSpare kb).retirePart why 3 ch (t.used kb % 256) when_ (Config.bankSpares lp ch bank - t.used kb - 1)
  else if s.used kc < 1024 then
    let v := (t.useSpare kc).retirePart why 3 ch (t.used kc % 256) when_ (1023 - t.used kc)
    if v.used kc = 1024 then v.retireChannel why lp ch else v
  else s.retireChannel why lp ch

/-- A corrected ECC error (R372); Table 2 has no row of the last-level cache, so one in elastic scratch counts nowhere. -/
def execCorrectableError (site : ErrSite) (s : State) : Out :=
  .next (
    if s.down || !s.booted then s
    else match site with
      | .dram lp ch bank row _ movable =>
        let n := s.count 0 (rowUnit lp ch bank row)
        n.1.elim n.2 fun w => n.2.repairRow (0, w) lp ch bank row movable
      | .scratch k g =>
        let n := s.count 1 (k * 4096 + g / 32 % 4096)
        n.1.elim n.2 fun w => n.2.fence k (1, w)
      | .elastic .. => s)
/-- An uncorrectable error (R183, R371, R372): its granule reads as uncorrectable from now on. -/
def execUncorrectableError (site : ErrSite) (s : State) : Out :=
  .next (
    if s.down || !s.booted then s
    else match site with
      | .dram lp ch _ _ addr _ =>
        let n := (s.setPoison [addr / 16]).count 6 (chanUnit lp ch)
        n.1.elim n.2 fun w => n.2.retireChannel (6, w) lp ch
      | .scratch k g => s.granSetPois (.scr k) [g % 131072]
      | .elastic c card gang g =>
        if (mget (s.ctx c.val).gangs (gkey card gang)).any fun x => x.placed && decide (g < x.grant.getD 0 * 4096) then
          s.granSetPois (.ela c.val (gkey card gang)) [g]
        else s)

/-! ### Lanes (R372, R373) -/

/-- The width code of a port (R403 PORTSTAT). -/
def State.portWidth (s : State) (p : Nat) : Nat := bits s.portstat.toNat (15 - 2 * p) (14 - 2 * p)
/-- A port drops to its next narrower width, and out of service below 200 Gb/s. -/
def State.narrow (s : State) (why : Cause) (p : Nat) : State :=
  let w := min 3 (s.portWidth p + 1)
  if s.portWidth p = 3 then s
  else
    ({ s with portstat := BitVec.ofNat 16 (putBits s.portstat.toNat (15 - 2 * p) (14 - 2 * p) w) } : State).retirePart why 5 p w
      s.rtime 0
/-- A spare shifts in while one remains; then the part takes its outcome. -/
def State.shiftSpare (s : State) (why : Cause) (kind unit total : Nat) (out : State → State) : State :=
  let key := spareKey kind unit
  if s.used key < total then (s.useSpare key).retirePart why 4 unit (s.used key) s.rtime (total - s.used key - 1) else out s
/-- A lane needs a spare: after a lasting CRC fault, or because it fails training at boot (R373). -/
def State.spareLane (s : State) (start : Nat) : CrcSite → State
  | .hbm ch _ => s.shiftSpare (2, start) 2 ch 8 fun t => t.retireChannel (2, start) false ch
  | .dieToDie b _ => s.shiftSpare (3, start) 3 b 4 fun t => t.retirePart (3, start) 6 b 0 t.rtime 0
  | .ethernet p _ => s.shiftSpare (4, start) 4 (p % 8) 2 fun t => t.narrow (4, start) (p % 8)
/-- Row of R372 Table 2 and unit of a lane. -/
def CrcSite.counter : CrcSite → Nat × Nat
  | .hbm ch lane => (2, ch * 65536 + lane % 65536)
  | .dieToDie b lane => (3, b * 65536 + lane % 65536)
  | .ethernet p lane => (4, p % 8 * 65536 + lane % 65536)
/-- A CRC error (R372, R373). -/
def execCrcError (site : CrcSite) (s : State) : Out :=
  .next (
    if s.down || !s.booted then s
    else
      let n := s.count (CrcSite.counter site).1 (CrcSite.counter site).2
      n.1.elim n.2 fun w => n.2.spareLane w site)
/-- A counter whose window has passed clears (R372). -/
def execCounterWindowExpiry (key : Nat) (s : State) : Out :=
  .next (match mget s.counters key with
    | none => s
    | some c =>
      if s.rtime < c.start + counterWindow (key / 2 ^ 48) then s else { s with counters := mdel s.counters key })

/-! ### The power controller (R398) -/

/-- Set the core clock, in MHz: the part of a ns that has passed keeps its length. -/
def State.setFreq (s : State) (f : Nat) : State := { s with freq := f, nsPart := s.nsPart * f / s.freq }
/-- The peak detector: a trailing mean above 2,100 W. -/
def execPeakDetector (watts : Nat) (s : State) : Out :=
  .next (if s.booted && !s.down && decide (2100 < watts) then { s.setFreq (min s.freq 2000) with peak := true } else s)
/-- The clock after a regular step, in MHz. -/
def stepClock (f watts temp plim : Nat) (peak : Bool) : Nat :=
  if peak then min f 2000
  else if plim < watts ∨ 105 ≤ temp then max 1000 (f - 250)
  else if watts < plim - 50 ∧ temp < 100 then min 4000 (f + 250)
  else f
/-- The regular step, with the mean power over 10 ms in W and what else it saw: PWRSTAT and TEMP show it (R403), and the hotter
die decides. -/
def execRegularStep (watts : Nat) (seen : StepInput) (s : State) : Out :=
  .next (
    if !s.booted || s.down then s
    else
      { s.setFreq (stepClock s.freq watts (max seen.temp0 seen.temp1) s.plim.toNat s.peak) with
        peak := false
        pwrstat := w64 (seen.input % 2 ^ 16 + watts % 2 ^ 16 * 2 ^ 16)
        temp := w64 (seen.temp0 % 256 + seen.temp1 % 256 * 256) })

/-! ### Boot (R399) -/

/-- The bytes of a 64-byte value, and a value cut or padded to n bytes. -/
def bytes64 (x : BitVec 512) : List Byte := toBytes 64 x.toNat
def fit (n : Nat) (bs : List Byte) : List Byte := (bs ++ List.replicate n 0).take n
/-- The SHAKE256 digest of bytes as a 64-byte value. -/
def digestOf (bs : List Byte) : BitVec 512 := BitVec.ofNat 512 (ofBytes (digest64 bs))
/-- MR ← SHAKE256(MR concatenated with d), 64 bytes (R401). -/
def extendMr (m : BitVec 512) (d : BitVec 512) : BitVec 512 := digestOf (bytes64 m ++ bytes64 d)
def State.extend (s : State) (n : Fin 8) (d : BitVec 512) : State := { s with mr := s.mr.set n (extendMr s.mr[n] d) }
/-- An Ed448 signature by the identity key, followed by zeros to 128 bytes (R390, R402). -/
def sign (bs : List Byte) : List Byte := fit 128 (edSign Config.identity bs)

/-- What the signature of an image signs (R400): its digest and its version. -/
def FwImage.signed (x : FwImage) : List Byte := bytes64 x.digest ++ toBytes 4 x.version.toNat
/-- Whether an image is accepted (R400): its digest matches its body, its signature verifies under the fused key, its version
is at least the fused minimum. -/
def FwImage.accepted (x : FwImage) (nv : NonVol) : Bool :=
  x.digest == digestOf x.body && edVerify nv.fwKey (FwImage.signed x) x.sig && decide (nv.fwMin.toNat ≤ x.version.toNat)
/-- The slot of higher version first, then the other (R400). -/
def NonVol.pickImage (nv : NonVol) (part : FwSlot → Option FwImage) : Option FwImage :=
  let xs := (part nv.slotA).toList ++ (part nv.slotB).toList
  (sortBy (fun x y => decide (y.version.toNat ≤ x.version.toNat)) xs).find? fun x => FwImage.accepted x nv
/-- A write of an image into its slot (R399). -/
def NonVol.flash (nv : NonVol) (w : FwWrite) : NonVol :=
  let put (s : FwSlot) : FwSlot := if w.main then { s with main := some w.image } else { s with first := some w.image }
  if w.slotB then { nv with slotB := put nv.slotB } else { nv with slotA := put nv.slotA }
/-- What is non-volatile once the host has written its images: it may while the module is in recovery, where the last boot
left it, and they outlive the supply (R399). -/
def State.flashed (s : State) (b : BootInput) : NonVol :=
  if s.nv.recov then b.written.foldl NonVol.flash s.nv else s.nv

/-- Good cores of a die in ascending physical order (R70). -/
def State.goodCores (s : State) (b : BootInput) (die : Nat) : List Nat :=
  (upto 0 68).filter fun p => !((s.nv.units 0).any fun u => u.1 == die * 68 + p) && !b.badCores.contains (die * 68 + p)
/-- A core in service at boot. -/
def bootCore (phys : Nat) : Core := { Core.init with phys := phys, inServ := true }
/-- The cores of both dies (R70). -/
def State.bootCores (s : State) (b : BootInput) : Map Core :=
  let row (die : Nat) : Map Core :=
    let g := (s.goodCores b die).take 64
    (upto (64 * die) g.length).zip (g.map bootCore)
  row 0 ++ row 1
/-- Retired channels of HBM4E stack n. -/
def State.stackRetired (s : State) (n : Nat) : Nat :=
  (((s.nv.units 1).map fun u => u.1).dedup.filter fun c => decide (c < 192) && c / 32 == n).length
/-- LPDDR-6 channels in service, highest first. -/
def State.lpService (s : State) : List Nat :=
  ((upto 0 64).filter fun c => !(s.nv.units 2).any fun u => u.1 == c).reverse
def maskOfBits (l : List Nat) : Nat := (l.map fun n => 2 ^ n).sum
/-- Width code of port n at boot: that of its last narrowing. -/
def State.portCode (s : State) (n : Nat) : Nat := (((s.nv.units 5).filter fun u => u.1 == n).map fun u => u.2).getLast?.getD 0

/-- The configuration record (R74, R405). -/
def State.configOf (s : State) (b : BootInput) : List Word :=
  let lc (d : Nat) : Nat := min 64 (s.goodCores b d).length
  let spare (d : Nat) : Nat := (s.goodCores b d).length - 64
  let hret (n : Nat) : Nat := s.stackRetired n
  let hbm := 192 - ((upto 0 6).map hret).sum
  let lp := s.lpService
  let lease := min s.nv.lplease lp.length
  let low := decide (lc 0 < 48 ∨ lc 1 < 48 ∨ hbm < 160 ∨ lp.length < 48) || (upto 0 6).any (fun n => decide (8 < hret n)) ||
    !b.bundlesOk || !(s.nv.units 6).isEmpty
  [ w64 (b2n low * 2 ^ 56 + lc 0 * 2 ^ 48 + lc 1 * 2 ^ 40 + spare 0 * 2 ^ 32 + spare 1 * 2 ^ 24 + 48 * 2 ^ 16 + s.nv.boots % 2 ^ 16),
    w64 (hbm * 2 ^ 56 + ((upto 0 6).map fun n => hret n % 16 * 2 ^ (52 - 4 * n)).sum + s.nv.hrcsz * 2 ^ 24),
    w64 (lp.length * 2 ^ 56 + (lp.length - lease) * 2 ^ 48 + lease * 2 ^ 40),
    w64 (s.portstat.toNat * 2 ^ 48 + b.hostLanes % 256 * 2 ^ 40),
    w64 (160 * 2 ^ 56 + 8 * 2 ^ 48 + 48 * 2 ^ 40),
    w64 (maskOfBits lp), w64 (maskOfBits (lp.take lease)), 0 ]

/-- Budgets in MiB that a measured energy gives (R381). -/
def gbudOf (e : Nat) : Nat := min 128 ((20 * e - 13600) / 391)
def tbudOf (e : Nat) : Nat := max (gbudOf e) (min 192 ((2 * e - 800) / 23))

/-- The status word of a directory slot (R390 Table 6) and its second word. -/
def NonVol.status (nv : NonVol) (x : Saved) : Word :=
  w64 (2 ^ 63 + msPrio x.desc * 2 ^ 48 + x.slot / 64 * 2 ^ 45 + x.slot % 64 * 2 ^ 39 + msKind x.desc * 2 ^ 36 +
    min x.pois 0xFFFF * 2 ^ 20 + (if msKind x.desc = 0 then 0 else x.npiece) % 2 ^ 12 * 2 ^ 8 + msClass x.desc * 8 + nv.result x)
def Saved.second (x : Saved) : Word := w64 (bits (wd x.desc 0) 31 0 * 2 ^ 32 + x.written / 1024 % 2 ^ 32)
/-- The recovery report: 8,384 bytes (R390, R422): the save header as the store holds it, HDRMARK where its marker is
found. -/
def NonVol.reportOf (nv : NonVol) : List Word :=
  let hdr := [w64 (nv.word 0), w64 (nv.word 8), w64 (putBits (nv.word 16) 56 56 (b2n (nv.word 4088 % 2 ^ 32 == saveSeal))),
    w64 (nv.boots % 2 ^ 32), 0, 0, 0, 0]
  let body := (upto 0 512).flatMap fun n =>
    match nv.saved.find? fun x => x.slot == n with
    | some x => [nv.status x, x.second]
    | none => [0, 0]
  let ws := hdr ++ body
  ws ++ packWords (sign (unpackWords ws))

/-- The port widths that the tables give (R377), as PORTSTAT shows them. -/
def State.bootPorts (s : State) : BitVec 16 := BitVec.ofNat 16 ((upto 0 8).map fun n => s.portCode n * 2 ^ (14 - 2 * n)).sum
/-- Stage 3 (R373, R377, R399): the spares of the tables are shifted in, then one for every lane that fails training. -/
def State.train (s : State) (b : BootInput) : State :=
  b.badLanes.foldl (fun (t : State) l => t.spareLane 0 l)
    { s with spares := s.nv.spares, portstat := s.bootPorts }
/-- Stages 3 to 7 (R399). -/
def State.bootUp (s0 : State) (b : BootInput) (v : BitVec 32) : State :=
  let s := s0.train b
  let cfg := s.configOf b
  let least := if s.nv.fwMin.toNat < v.toNat then v else s.nv.fwMin
  let t : State := { s with
    cores := s.bootCores b
    config := cfg
    lcores := w64 (bits (wd cfg 0) 55 48 + bits (wd cfg 0) 47 40 * 256)
    hucap := b.energy % 2 ^ 32
    hubud := w64 (gbudOf b.energy + tbudOf b.energy * 2 ^ 16)
    lowbank := decide (b.energy < 3200)
    armed := false
    bootstat := 0x07
    fwver := w64 (v.toNat + least.toNat * 2 ^ 32)
    booted := true
    nv := { s.nv with fwMin := least } }
  let u := t.extend 3 (digestOf (unpackWords cfg))
  if u.nv.held then ({ u with report := u.nv.reportOf, repHeld := true } : State).raiseMod 1 else u
/-- A boot stops in recovery at a stage; FWVER shows the version that runs, 0 where none does, and the fused minimum (R399,
R403). -/
def State.recovery (s : State) (code : Nat) (v : BitVec 32) : State :=
  { s with bootstat := code, fwver := w64 (v.toNat + s.nv.fwMin.toNat * 2 ^ 32), nv := { s.nv with recov := true } }
/-- A boot (R399, R400): with the module off, or in recovery. -/
def execBoot (b : BootInput) (s : State) : Out :=
  .next (
    if s.booted || s.hold.isSome || !s.power then s
    else
      let s0 := s.powerOff
      let nv := s.flashed b
      let s1 : State := { s0 with nv := { nv with boots := nv.boots + 1, recov := false } }
      match nv.pickImage FwSlot.first with
      | none => s1.recovery 0x81 0
      | some x =>
        let s2 := s1.extend 0 x.digest
        match nv.pickImage FwSlot.main with
        | none => s2.recovery 0x82 x.version
        | some y =>
          let v := if x.version.toNat < y.version.toNat then y.version else x.version
          ((s2.extend 1 y.digest).extend 2 y.digest).bootUp b v)
/-- The bank reaches full charge (R380). -/
def execBankRecharged (s : State) : Out := .next (if s.booted && s.hold.isNone then { s with armed := true } else s)

end Sys2Proof.Machine
end

