-- ==== Sys2Proof/Machine/Records.lean ====
section
/-!
DEFINITION. Sys2Proof/Machine/Records.lean: the records of the engine queues as the debug window shows them, the continuation
record, and the order in which they stand (R35, R207, R249, R293, R313, R322, R332, R339, R361).
-/
namespace Sys2Proof.Machine
open Sys2Proof

/-- Code of a place's kind (R207 SKIND). -/
def Kind.code : Kind → Nat
  | .mem => 0 | .local => 1 | .elastic => 2 | .window => 3
/-- An address as SADDR gives it: physical, or the scratch offset through the double-buffer mapping at issue (R207). -/
def Place.recAddr (p : Place) (hdr : List Word) (par : Vector Bool 8) : Nat := if p.kind = .local then dblMap hdr par p.addr else p.addr
/-- EXTID as the records show it: 0 for scratch. -/
def Place.recExt (p : Place) : Nat := if p.kind = .mem ∨ p.kind = .window then p.ext else 0
/-- SEN with SEMS in five bits. -/
def sigField (sig : Option (Fin 16)) : Nat := sig.elim 0 fun n => 16 + n.val
/-- WEN and SEMW, SEN and SEMS, in ten bits. -/
def Sems.field (x : Sems) : Nat := b2n x.wen * 2 ^ 9 + x.semw.val * 2 ^ 5 + b2n x.sen * 2 ^ 4 + x.sems.val
/-- The FLG field (R205 Table 3). -/
def CopyFlags.field (f : CopyFlags) : Nat :=
  f.clip.code * 2 ^ 8 + b2n f.bps * 2 ^ 7 + b2n f.bpd * 2 ^ 6 + f.sfe.code * 2 ^ 4 + b2n f.dwe * 2 ^ 3 + b2n f.evt * 2 ^ 2

def MxOp.code : MxOp → Nat
  | .mmul => 0 | .mzero => 1 | .accld => 2 | .accst => 3 | .flip => 4
/-- The 48-byte record of a matrix command (R249 Table 8). -/
def MxCmd.record (hdr : List Word) (x : MxCmd) : List Word :=
  let mm (n : Nat) : Nat := if x.op = .mmul then n else 0
  let tensor := x.op = .accld ∨ x.op = .accst
  let acc (n : Nat) : Nat := if tensor then n else 0
  [ w64 (x.op.code * 2 ^ 60 + x.set.val * 2 ^ 58 + mm x.ra.val * 2 ^ 55 + mm x.rb.val * 2 ^ 52 + mm (x.m - 1) * 2 ^ 46 +
      mm (x.n - 1) * 2 ^ 40 + mm x.ks * 2 ^ 29 + Sems.field x.sems * 2 ^ 19 + x.phs % 65536 * 2 ^ 3),
    w64 (if tensor then x.place.recAddr hdr x.view.par
      else if x.op = .flip then x.row * 2 ^ 12 + x.col * 2 ^ 6 + x.bit else 0),
    w64 (acc x.shape.toNat), w64 (acc x.i.toNat), w64 (acc x.j.toNat),
    w64 (acc (x.place.kind.code * 2 ^ 62 + x.place.path * 2 ^ 58 + x.place.recExt * 2 ^ 44)) ]

/-- The 64-byte record of a transfer queue's command (R207 Table 4). -/
def CopyCmd.record (hdr : List Word) (x : CopyCmd) : List Word :=
  [ w64 (x.op.code * 2 ^ 61 + x.q.val * 2 ^ 59 + CopyFlags.field x.flags * 2 ^ 49 + Sems.field x.sems * 2 ^ 39 +
      x.ring.val * 2 ^ 36 + x.seq % 2 ^ 32),
    w64 (if x.op = .fill then 0 else x.src.recAddr hdr x.view.par), x.sshape, w64 (x.dst.recAddr hdr x.view.par), x.dshape,
    w64 (x.src.kind.code * 2 ^ 62 + x.dst.kind.code * 2 ^ 60 + x.src.path * 2 ^ 56 + x.dst.path * 2 ^ 52 + x.src.recExt * 2 ^ 38 +
      x.dst.recExt * 2 ^ 24 + b2n x.outb),
    x.i, x.j ]

/-- n words of a list, zeros beyond it. -/
def padTo (n : Nat) (ws : List Word) : List Word := (ws ++ List.replicate n 0).take n
/-- The 64-byte record of a pool-unit command (R293 Table 4). -/
def PoolCmd.record (hdr : List Word) (x : PoolCmd) : List Word :=
  let pool (n : Nat) : Nat := if x.opc = 0 then n else 0
  padTo 4 x.param ++
    [ w64 (pool (x.list.recAddr hdr x.view.par)), w64 (pool (x.res.recAddr hdr x.view.par)),
      w64 (pool (x.list.kind.code * 2 ^ 62 + x.res.kind.code * 2 ^ 60 + x.list.path * 2 ^ 56 + x.res.path * 2 ^ 52) +
        x.opc * 2 ^ 50 + x.sub * 2 ^ 48 + sigField x.sig * 2 ^ 43),
      w64 (x.seq % 2 ^ 32) ]
/-- The 96-byte record of a scatter-update (R313). -/
def ScCmd.record (hdr : List Word) (x : ScCmd) : List Word :=
  padTo 8 x.param ++
    [ w64 (x.idx.recAddr hdr x.view.par), w64 (x.grad.recAddr hdr x.view.par), w64 (x.st.recAddr hdr x.view.par),
      w64 (x.idx.kind.code * 2 ^ 62 + x.grad.kind.code * 2 ^ 60 + x.st.kind.code * 2 ^ 58 + x.idx.path * 2 ^ 54 +
        x.grad.path * 2 ^ 50 + x.st.path * 2 ^ 46 + x.opt * 2 ^ 44 + sigField x.sig * 2 ^ 39 + x.seq % 2 ^ 32) ]
/-- The last word of a q19 record: SEN, SEMS and SEQ (R322); so in those of q20 and q22. -/
def sigWord (sig : Option (Fin 16)) (seq : Nat) : Word := w64 (sigField sig * 2 ^ 59 + seq % 2 ^ 32)
def NmCmd.record (x : NmCmd) : List Word := padTo 16 x.desc ++ [sigWord x.sig x.seq]
/-- A walk's record: the block, the bases of HC, HA and HB, TA and TB (R332; their order: notes/assumptions/44.md). -/
def WalkCmd.record (hdr : List Word) (x : WalkCmd) : List Word :=
  padTo 4 x.param ++ [x.list, x.rowP, x.colP].map (fun p => w64 (p.recAddr hdr x.view.par)) ++ [x.ta, x.tb, sigWord x.sig x.seq]
/-- A Speedwell record: the block, the handle bases, SEN, SEMS and SEQ (R339). -/
def SpCmd.record (hdr : List Word) (x : SpCmd) : List Word :=
  padTo 8 x.param ++ x.bases.map (fun p => w64 (p.recAddr hdr x.view.par)) ++ [sigWord x.sig x.seq]
/-- A request in q24 has no stated format: a free word by its place (notes/assumptions/44.md). -/
def reqWords (n : Nat) : List Word := (upto 0 n).map fun i => w64 (Config.freeNat (2 ^ 65 + i))

/-- The entries of a transfer queue, its running command first: a running command keeps its entry (R187). -/
def Core.cqAll (c : Core) (q : Fin 4) : List CopyCmd := (c.crun[q].map fun x => x.cmd).toList ++ c.cq[q]
/-- The records of q10 to q25 as the debug window shows them (R361): queue after queue, each in pop order, one after another,
a running command that keeps its entry first, a format word of q10 in 4 bytes (notes/assumptions/44.md). -/
def Core.recordBytes (c : Core) : List Byte :=
  let hdr := c.res.hdr
  let ws (l : List Word) : List Byte := l.flatMap fun w => toBytes 8 w.toNat
  (c.q10.flatMap fun x => toBytes 4 x.1.toNat) ++ ws (((c.mx.map fun x => x.cmd).toList ++ c.q11).flatMap (MxCmd.record hdr)) ++
    ws ([(0 : Fin 4), 1, 2, 3].flatMap fun q => (c.cqAll q).flatMap (CopyCmd.record hdr)) ++
    ws (((c.prun.map fun x => x.cmd).toList ++ c.q16).flatMap (PoolCmd.record hdr)) ++
    ws (c.q17.map fun x => x.1) ++ ws (((c.srun.map fun x => x.cmd).toList ++ c.q18).flatMap (ScCmd.record hdr)) ++
    ws (c.q19.flatMap NmCmd.record) ++ ws (((c.wrun.map fun x => x.cmd).toList ++ c.q20).flatMap (WalkCmd.record hdr)) ++ ws (c.q21.map fun x => x.1) ++ ws (c.q22.flatMap (SpCmd.record hdr)) ++
    ws (c.q23.map fun x => x.1) ++ ws (reqWords c.q24.length) ++ c.q25.flatMap fun e => toBytes 16 e.data.toNat

/-- A continuation record (R35 Table 3): FRMP is the slot's address while a checkpoint waits (R354). -/
def Ctx.recWords (t : Ctx) (x : Rec) : List Word :=
  let snap := (mget t.jobs x.card).elim [] fun j => j.snap
  [ w64 (wd snap 1), w64 (x.ckpt.elim (wd snap 6) t.ckAddr),
    w64 (x.block * 2 ^ 40 + x.card * 2 ^ 28 + x.prio * 2 ^ 22 + x.join * 2 ^ 14 + b2n x.ckpt.isSome * 2 ^ 13 +
      b2n x.rerun * 2 ^ 12 + b2n x.dieFix.isSome * 2 ^ 11 + x.dieFix.getD 0 * 2 ^ 10 + x.rank * 2 ^ 6),
    w64 (x.serial.toNat * 2 ^ 32 + x.enqt.toNat) ]

end Sys2Proof.Machine
end

