-- ==== Sys2Proof/Machine/HostRegs.lean ====
section
/-!
DEFINITION. Sys2Proof/Machine/HostRegs.lean: what the host writes through the link: cards, registers, memory; and what its
registers and windows read (R5, R29, R39 to R42, R46, R265, R346, R359 to R362, R379, R381, R401 to R404).
-/
namespace Sys2Proof.Machine
open Sys2Proof

/-- Whether the link takes host accesses: booted and not in hold-up (R385, R399). -/
def State.linkUp (s : State) : Bool := s.booted && !s.down
/-- A write to a register of a resident context. -/
def State.onCtx (s : State) (c : Nat) (f : State → State) : State := if s.linkUp && s.hasCtx c then f s else s
/-- A write to a register of the module. -/
def State.onModule (s : State) (f : State → State) : State := if s.linkUp then f s else s

/-! ### The card window (R29, R39) -/

/-- Bits of card word w that a host write changes: not Campion's (R30). -/
def hostBits (w : Nat) : Nat :=
  if w = 0 then 2 ^ 32 - 1
  else if 12 ≤ w ∧ w ≤ 15 then 2 ^ 32 - 1 - 2 ^ 18
  else if w = 16 ∨ 22 ≤ w then 0
  else if w = 17 then 2 ^ 64 - 2 ^ 38 + 2 ^ 21 - 1
  else 2 ^ 64 - 1
/-- A word with the bits of a mask replaced. -/
def mergeBits (mask old new : Nat) : Nat := Nat.lor (Nat.land new mask) (Nat.land old (2 ^ 64 - 1 - mask))
/-- A host write of card word w. -/
def Ctx.hostCard (t : Ctx) (n w v : Nat) : Ctx :=
  let st := t.cstate n
  let okState := st != 2 && st != 3
  let okZero := w != 0 || bits v 31 28 ≤ 1 || bits v 31 28 == st
  if okState && okZero then t.setCw n w (mergeBits (hostBits w) (t.cw n w) v) else { t with cardwerr := true }
def execCardWindowWrite (off len : Nat) (value : Word) (s : State) : Out :=
  let c := off / 2 ^ 20
  .next (s.onCtx c fun t => t.modCtx c fun x =>
    if len = 8 ∧ off % 8 = 0 then x.hostCard (off / 256 % 4096) (off / 8 % 32) value.toNat else { x with cardwerr := true })

/-! ### The context page (R40 to R42) -/

/-- A host arm: ignored while the context is stopped (R40); it follows the host writes made before it (R33). -/
def State.armReg (s : State) (c v : Nat) : State :=
  s.onCtx c fun t => if (t.ctx c).stopped then t else { t with arms := t.arms ++ [(Fin.ofNat 8 c, v % 4096, t.hostN)] }
/-- CQHEAD: entries held are written while there is room (R42). -/
def State.hostCqhead (s : State) (c v : Nat) : State :=
  s.onCtx c fun t => (t.modCtx c fun x => { x with cqhead := v % 65536 }).cqDrain 64 c
/-- CSTAT, write 1 to clear (R40). -/
def State.hostCstat (s : State) (c v : Nat) : State :=
  s.onCtx c fun t => t.modCtx c fun x =>
    let y := if bit v 0 then { x with cardwerr := false } else x
    if bit v 2 then { y with lostBit := false, cqlost := 0 } else y
/-- CINT, write 1 to clear (R41). -/
def State.hostCint (s : State) (c v : Nat) : State :=
  s.onCtx c fun t => t.modCtx c fun x => { x with cint := x.cint &&& ~~~(BitVec.ofNat 3 v) }
def execArm (c : Fin 8) (v : Word) (s : State) : Out := .next (s.armReg c.val v.toNat)
def execCqhead (c : Fin 8) (v : Word) (s : State) : Out := .next (s.hostCqhead c.val v.toNat)
def execCstat (c : Fin 8) (v : Word) (s : State) : Out := .next (s.hostCstat c.val v.toNat)
def execCint (c : Fin 8) (v : Word) (s : State) : Out := .next (s.hostCint c.val v.toNat)

/-- MINT, write 1 to clear (R403). -/
def State.hostMint (s : State) (v : Nat) : State := s.onModule fun t => { t with mint := t.mint &&& ~~~(BitVec.ofNat 4 v) }
def execMint (v : Word) (s : State) : Out := .next (s.hostMint v.toNat)

/-- Mask or unmask a vector: a pending message goes out (R41). -/
def State.setMask (s : State) (v : Nat) (on : Bool) : State :=
  let b := BitVec.ofNat 17 (2 ^ v)
  if on then { s with msixMask := s.msixMask ||| b }
  else
    let t : State := { s with msixMask := s.msixMask &&& ~~~b }
    if s.msixPend.getLsbD v then { t with msixPend := t.msixPend &&& ~~~b, msixSent := t.msixSent ++ [t.msixMsg v] } else t
/-- A write of word w of the MSI-X table: a vector's message address, or its data and, in bit 32, its mask (R41). -/
def State.msixWrite (s : State) (w n : Nat) : State :=
  if w % 2 = 0 then { s with msixTab := mput 0 s.msixTab w (w64 (n / 4 * 4)) }
  else ({ s with msixTab := mput 0 s.msixTab w (w64 (n % 2 ^ 32)) } : State).setMask (w / 2) (bit n 32)
def execVectorUnmask (v : Fin 17) (s : State) : Out := .next (s.onModule fun t => t.setMask v.val false)

/-! ### The control page and the debugger (R346, R359 to R362) -/

/-- WDKICK (R359). -/
def State.hostWdkick (s : State) (c : Nat) : State := s.onCtx c fun t => t.modCtx c fun x => { x with wdcnt := 0 }
def execWdkick (c : Fin 8) (s : State) : Out := .next (s.hostWdkick c.val)

/-- A halt request of the host (R360); a stopped context has nothing left to halt. -/
def State.hostHalt (s : State) (c : Nat) : State :=
  s.onCtx c fun t => if (t.ctx c).stopped then t else t.haltCtx c ((t.coresOf c fun _ => true).headD 0) 0
/-- The triggers that the debugger's steps met are taken together at resume (R369). -/
def State.takePending (s : State) (k : Nat) : State :=
  let xs := (s.core k).ptrig
  if xs.isEmpty then s else (s.modCore k fun x => { x with ptrig := [] }).takeCounted k xs
/-- A resume (R360, R362): streams go on, the holding buffers drain, triggers are taken, held packets arrive. -/
def State.hostResume (s : State) (c : Nat) : State :=
  s.onCtx c fun t =>
    if !(t.ctx c).halted then t
    else
      let u := (t.modCtx c fun x => { x with halted := false }).logEv (Ev.of 0x09 0 c)
      let ks := u.coresOf c fun _ => true
      let v := ks.foldl (fun (x : State) k => (x.drainHeld k).modCore k Core.retry) u
      (ks.foldl State.takePending v).redeliver fun p => p.ctx.val == c
/-- A step of one core: the debugger's turn comes next. -/
def State.hostStep (s : State) (c k : Nat) (m : Stm) : State :=
  s.onCtx c fun t => { t with schedule := ⟨0, 0, .dbg (Fin.ofNat 8 c) k m⟩ :: t.schedule }
/-- A step of every halted core of a context. -/
def State.hostStepAll (s : State) (c : Nat) (m : Stm) : State :=
  s.onCtx c fun t =>
    if !(t.ctx c).halted then t.modCtx c fun x => { x with dbgres := 3 }
    else { t with schedule := (((t.coresOf c fun _ => true).filter t.haltedCore).map fun k => ⟨0, 0, .dbg (Fin.ofNat 8 c) k m⟩) ++ t.schedule }
def execHalt (c : Fin 8) (s : State) : Out := .next (s.hostHalt c.val)
def execResume (c : Fin 8) (s : State) : Out := .next (s.hostResume c.val)
def execStep (c : Fin 8) (m : Stm) (s : State) : Out := .next (s.hostStep c.val (s.ctx c.val).dbgsel.toNat m)
def execStepall (c : Fin 8) (m : Stm) (s : State) : Out := .next (s.hostStepAll c.val m)

/-- The stream that SSTR names. -/
def sstrOf (n : Nat) : Stm := if n = 0 then .c else if n = 1 then .a else .v
/-- DBGCTL: the fields, then halt, resume and steps (R362). -/
def State.hostDbgctl (s : State) (c v : Nat) : State :=
  let s1 := s.onCtx c fun t => t.modCtx c fun x =>
    { x with brken := bit v 2, sstr := if bits v 7 6 = 3 then x.sstr else Fin.ofNat 4 (bits v 7 6) }
  let s2 := if bit v 0 then s1.hostHalt c else s1
  let s3 := if bit v 1 then s2.hostResume c else s2
  let m := sstrOf (s3.ctx c).sstr.val
  let s4 := if bit v 4 then s3.hostStepAll c m else s3
  if bit v 3 then s4.hostStep c (s4.ctx c).dbgsel.toNat m else s4

/-! ### The module's registers (R379, R381, R401 to R403) -/

/-- BBCTL bit 1 unfreezes the record (R379). -/
def State.hostBbctl (s : State) (v : Nat) : State :=
  s.onModule fun t => if bit v 1 then { t with frozen := false, bblost := 0 } else t
/-- HUREL bit 0 releases the save store (R381). -/
def State.hostHurel (s : State) (v : Nat) : State :=
  s.onModule fun t =>
    if bit v 0 then { t with report := [], repHeld := false, nv := { t.nv with held := false, saved := [], store := [] } } else t
/-- MEXT extends MR4 to MR7 by MEXTD (R401). -/
def State.hostMext (s : State) (v : Nat) : State :=
  s.onModule fun t => if 4 ≤ v % 8 then t.extend (Fin.ofNat 8 (v % 8)) t.mextd else t
/-- The 704 bytes that an attestation report signs (R402). -/
def State.attestation (s : State) : List Byte :=
  fit 64 (toBytes 4 0x41545331 ++ toBytes 4 Config.serial.toNat ++ toBytes 8 s.nv.boots ++ toBytes 8 s.bootstat.toNat) ++
    (s.mr.toList.flatMap bytes64) ++ fit 64 (unpackWords s.config) ++ fit 64 (toBytes 32 s.atnonce.toNat)
/-- ATREQ (R402, R403). -/
def State.hostAtreq (s : State) (v : Nat) : State :=
  s.onModule fun t =>
    let u : State := if bit v 2 then { t with atbusy := false } else t
    if !bit v 0 then u
    else if u.atbuild.isSome then { u with atbusy := true }
    else { u with atbuild := some (packWords u.attestation), atdone := false }
def execBbctl (v : Word) (s : State) : Out := .next (s.hostBbctl v.toNat)
def execHurel (v : Word) (s : State) : Out := .next (s.hostHurel v.toNat)
def execMext (v : Word) (s : State) : Out := .next (s.hostMext v.toNat)
def execAtreq (v : Word) (s : State) : Out := .next (s.hostAtreq v.toNat)
/-- Firmware finishes the report and signs it (R402). -/
def execAttestationReportDone (s : State) : Out :=
  .next (match s.atbuild with
    | none => s
    | some ws =>
      if s.linkUp then
        ({ s with atbuild := none, atdone := true, atrep := ws ++ packWords (sign (unpackWords ws)) } : State).raiseMod 2
      else s)

/-! ### Every register by its offset in BAR0 -/

/-- Word n of a wide register replaced. -/
def putWord {w : Nat} (x : BitVec w) (n v : Nat) : BitVec w := BitVec.ofNat w (putBits x.toNat (64 * n + 63) (64 * n) v)
/-- A write in context c's page (R40 Table 5). -/
def State.pageWrite (s : State) (c r : Nat) (v : Word) : State :=
  let n := v.toNat
  match r with
  | 0x000 => s.armReg c n
  | 0x008 => s.onCtx c fun t => t.modCtx c fun x => { x with cqbase := w64 (n / 4096 * 4096) }
  | 0x010 => s.onCtx c fun t => t.modCtx c fun x => if 6 ≤ n % 32 ∧ n % 32 ≤ 16 then { x with cqsize := n % 32 } else x
  | 0x018 => s.hostCqhead c n
  | 0x028 => s.onCtx c fun t => t.modCtx c fun x => { x with ithresh := BitVec.ofNat 16 n }
  | 0x030 => s.hostCstat c n
  | 0x038 => s.hostCint c n
  | _ => s
/-- A write in context c's control page (R346 Table 1). -/
def State.controlWrite (s : State) (c r : Nat) (v : Word) : State :=
  let n := v.toNat
  match r with
  | 0x000 => s.onCtx c fun t => t.modCtx c fun x => { x with pdrain := BitVec.ofNat 32 n }
  | 0x008 => s.onCtx c fun t => t.modCtx c fun x => { x with pkill := BitVec.ofNat 32 n }
  | 0x020 => s.onCtx c fun t => t.modCtx c fun x => { x with wdlim := BitVec.ofNat 16 (max 1 (n % 65536)) }
  | 0x030 => s.hostWdkick c
  | 0x060 => s.hostDbgctl c n
  | 0x068 => s.onCtx c fun t => t.modCtx c fun x => { x with dbgsel := BitVec.ofNat 16 (bits n 31 16) }
  | _ => s
/-- A write of a module register (R379, R381, R403, R404). -/
def State.moduleWrite (s : State) (off : Nat) (v : Word) : State :=
  let n := v.toNat
  match off with
  | 0x0028 => s.onModule fun t => if 900 ≤ n % 65536 ∧ n % 65536 ≤ 1800 then { t with plim := BitVec.ofNat 16 n } else t
  | 0x0038 => s.hostMint n
  | 0x60008 => s.hostBbctl n
  | 0x78020 => s.hostHurel n
  | 0x80000 => s.hostMext n
  | 0x80008 => s.hostAtreq n
  | 0x90000 => s.onModule fun t => { t with rqbase := w64 (n / 4096 * 4096) }
  | 0x90008 => s.onModule fun t => if 4 ≤ n % 16 ∧ n % 16 ≤ 10 then { t with rqsize := n % 16 } else t
  | 0x90010 => s.onModule fun t => { t with rqtail := n % 1024 }
  | _ =>
    if 0x80040 ≤ off ∧ off < 0x80080 then s.onModule fun t => { t with mextd := putWord t.mextd ((off - 0x80040) / 8) n }
    else if 0x80080 ≤ off ∧ off < 0x800A0 then s.onModule fun t => { t with atnonce := putWord t.atnonce ((off - 0x80080) / 8) n }
    else if 0xA0000 ≤ off ∧ off < 0xA0110 then s.onModule fun t => t.msixWrite ((off - 0xA0000) / 8) n
    else s
/-- A host write of eight bytes at an offset of BAR0: registers that are read-only and offsets that name none ignore it
(R5). -/
def execRegisterWrite (off : Nat) (v : Word) (s : State) : Out :=
  .next (
    if off % 8 ≠ 0 then s
    else if 0x10000 ≤ off ∧ off < 0x18000 then s.pageWrite ((off - 0x10000) / 4096) (off % 4096) v
    else if 0x18000 ≤ off ∧ off < 0x20000 then s.controlWrite ((off - 0x18000) / 4096) (off % 4096) v
    else s.moduleWrite off v)

/-! ### What the registers read -/

/-- CTXSTAT (R346). -/
def State.ctxstat (s : State) (c : Nat) : Nat :=
  let t := s.ctx c
  b2n t.stopped + 2 * b2n t.halted + 4 * b2n (s.hold.isSome) + 8 * b2n t.svc
/-- HUUSED and HUSTAT (R381). -/
def State.huused (s : State) : Nat := s.charges.1 / 1024 + s.charges.2 / 1024 * 2 ^ 32
def State.hustat (s : State) : Nat := b2n s.armed + 2 * b2n s.repHeld + 4 * b2n s.lowbank
/-- A context page register (R40). -/
def State.pageRead (s : State) (c r : Nat) : Nat :=
  let t := s.ctx c
  match r with
  | 0x008 => t.cqbase.toNat
  | 0x010 => t.cqsize
  | 0x018 => t.cqhead
  | 0x020 => t.cqtail
  | 0x028 => t.ithresh.toNat
  | 0x030 => b2n t.cardwerr + 2 * b2n (!t.cqheld.isEmpty) + 4 * b2n t.lostBit
  | 0x038 => t.cint.toNat
  | 0x040 => t.cqlost
  | _ => 0
/-- A control page register (R346, R362). -/
def State.controlRead (s : State) (c r : Nat) : Nat :=
  let t := s.ctx c
  match r with
  | 0x000 => t.pdrain.toNat
  | 0x008 => t.pkill.toNat
  | 0x010 => t.ckslots
  | 0x018 => t.ckslots - t.cks.length
  | 0x020 => t.wdlim.toNat
  | 0x028 => t.wdcnt / 1000 % 2 ^ 32
  | 0x038 => s.ctxstat c
  | 0x040 => wd t.err 0
  | 0x048 => wd t.err 1
  | 0x050 => wd t.err 2
  | 0x058 => wd t.err 3
  | 0x060 => t.sstr.val * 64 + 4 * b2n t.brken
  | 0x068 => t.dbgsel.toNat * 65536 + t.dbgres.toNat
  | _ => 0
/-- A module register or table (R41, R74, R376, R378, R379, R381, R390, R403, R404). -/
def State.moduleRead (s : State) (off : Nat) : Nat :=
  match off with
  | 0x0000 => 0x7140 + Config.serial.toNat * 2 ^ 32
  | 0x0008 => s.bootstat.toNat
  | 0x0010 => s.fwver.toNat
  | 0x0018 => putBits s.pwrstat.toNat 47 32 (if s.booted then s.freq else 0)
  | 0x0020 => s.temp.toNat
  | 0x0028 => s.plim.toNat
  | 0x0030 => s.portstat.toNat
  | 0x0038 => s.mint.toNat
  | 0x60000 => s.bbnext
  | 0x60008 => b2n s.frozen
  | 0x60010 => s.bblost
  | 0x78000 => s.hucap
  | 0x78008 => s.hubud.toNat
  | 0x78010 => s.huused
  | 0x78018 => s.hustat
  | 0x80008 => b2n s.atbuild.isSome + 2 * b2n s.atdone + 4 * b2n s.atbusy
  | 0x90000 => s.rqbase.toNat
  | 0x90008 => s.rqsize
  | 0x90010 => s.rqtail
  | 0x90018 => s.rqhead
  | _ =>
    if 0x8000 ≤ off ∧ off < 0x8040 then wd s.config ((off - 0x8000) / 8)
    else if 0x20000 ≤ off ∧ off < 0x60000 then wd (mgetD s.bbring ((off - 0x20000) / 64) []) (off % 64 / 8)
    else if 0x68000 ≤ off ∧ off < 0x78000 then
      ((s.nv.retire[(off - 0x68000) / 16]?).elim 0 fun e => if off % 16 = 0 then e.1.toNat else e.2.toNat)
    else if 0x7A000 ≤ off ∧ off < 0x7C0C0 then wd s.report ((off - 0x7A000) / 8)
    else if 0x80100 ≤ off ∧ off < 0x80300 then
      let n := (off - 0x80100) / 8
      bits ((s.mr.toList.getD (n / 8) 0).toNat) (64 * (n % 8) + 63) (64 * (n % 8))
    else if 0x81000 ≤ off ∧ off < 0x81340 then wd s.atrep ((off - 0x81000) / 8)
    else if 0x82000 ≤ off ∧ off < 0x82400 then ofBytes ((fit 1024 Config.idCert).drop (off - 0x82000) |>.take 8)
    else if 0xA0000 ≤ off ∧ off < 0xA0110 then
      let w := (off - 0xA0000) / 8
      (mgetD s.msixTab w 0).toNat + if w % 2 = 1 then b2n (s.msixMask.getLsbD (w / 2)) * 2 ^ 32 else 0
    else if off = 0xA1000 then s.msixPend.toNat
    else 0
/-- What a host read of eight bytes at an offset of BAR0 returns: a register that names no bit reads zero (R40, R346). -/
def State.registerRead (s : State) (off : Nat) : Word :=
  w64 (if off % 8 ≠ 0 then 0
    else if 0x10000 ≤ off ∧ off < 0x18000 then s.pageRead ((off - 0x10000) / 4096) (off % 4096)
    else if 0x18000 ≤ off ∧ off < 0x20000 then s.controlRead ((off - 0x18000) / 4096) (off % 4096)
    else s.moduleRead off)
/-- What a host read of a card word returns (R39). -/
def State.cardRead (s : State) (c n w : Nat) : Word := w64 ((s.ctx c).cw n w)

/-! ### The tag window and the debug window (R46, R361) -/

/-- What a host read of word w of tag entry e returns: WHEAD is the index of the entry's first link (R45). -/
def State.tagRead (s : State) (e w : Nat) : Word :=
  match mget s.tags e with
  | none => 0
  | some x =>
    let n := (s.links.filter fun l => l.tag == some e).length
    if w = 0 then
      w64 (x.gen.toNat * 2 ^ 32 + x.card * 2 ^ 20 + x.ctx.val * 2 ^ 17 + x.slot * 2 ^ 15 + TagState.code x.state * 2 ^ 13 + 2 ^ 12)
    else
      w64 (x.tile * 2 ^ 47 + n * 2 ^ 23 +
        (s.links.find? fun l => l.tag == some e).elim 0 fun l => l.ix)
/-- A stream's part of the debug window (notes/assumptions/44.md). -/
def streamBytes (m : Stm) (x : Stream) : List Byte :=
  let w (n : Nat) : List Byte := toBytes 8 n
  (x.s.toList.flatMap fun v => w v.toNat) ++ (x.p.toList.flatMap fun v => w (if m = .v then v.toNat else v.toNat % 2)) ++
    (x.lc.toList.flatMap fun v => toBytes 4 v.toNat) ++ (x.llim.toList.flatMap fun v => toBytes 4 v.toNat) ++
    fit 0x80 (x.rstk.reverse.flatMap w) ++ w x.rstk.length ++ w x.tflags.toNat ++ w x.pos.line ++ w x.pos.lane ++ w x.pos.lseq
/-- Handles, shape records, semaphores and counts in the debug window. -/
def Core.sharedBytes (c : Core) : List Byte :=
  fit 0x200 (c.r.h.toList.flatMap fun v => toBytes 32 (v.head?.elim 0 fun e => e.2.2.toNat)) ++
    fit 0x100 (c.r.t.toList.flatMap fun v => toBytes 8 (v.head?.elim 0 fun e => e.2.2.toNat)) ++
    (c.sem.toList.flatMap fun n => toBytes 8 n) ++ toBytes 8 (tkcnt c.r.tok) ++ toBytes 8 c.phasecnt
/-- Queues q0 to q8 in the debug window. -/
def Core.queueBytes (c : Core) : List Byte :=
  let counts := (c.r.qs.toList.map fun q => q.length) ++ c.r.qv.toList.map fun q => q.length
  fit 0x100 (counts.flatMap fun n => toBytes 8 n) ++
    (c.r.qs.toList.flatMap fun q => q.flatMap fun w => fit 72 (toBytes 8 w.toNat)) ++
    c.r.qv.toList.flatMap fun q => q.flatMap fun e => toBytes 64 e.data.toNat ++ toBytes 8 e.mask.toNat
/-- The continuation records of a context in ascending order of card and block (R35). -/
def Ctx.recordList (t : Ctx) : List Byte := t.recs.flatMap fun e => fit 32 (unpackWords (Ctx.recWords t e.2))
/-- What a host read of eight bytes at an offset of core k's debug window returns (R361): zero while its block is not halted,
a checkpoint or kill under way among that (R360).  The context's continuation records
stand from 0x44_0000 up, as many as fit, which Table 5 leaves open: a DESIGN CHOICE (R35; notes/assumptions/44.md). -/
def State.debugRead (s : State) (k off : Nat) : Word :=
  let c := s.core k
  let part (lo : Nat) (bs : List Byte) : Word := w64 (ofBytes ((bs.drop (off - lo)).take 8))
  if off % 8 ≠ 0 ∨ !s.haltedCore k then 0
  else if off < 0x400000 ∨ 0x800000 ≤ off then 0
  else if off < 0x410000 then part 0x400000 (streamBytes .c c.r.c)
  else if off < 0x420000 then part 0x410000 (streamBytes .a c.r.a)
  else if off < 0x420400 then part 0x420000 (streamBytes .v c.r.v)
  else if off < 0x430000 then part 0x420400 (c.r.vr.toList.flatMap fun v => toBytes 64 v.toNat)
  else if off < 0x431000 then part 0x430000 c.sharedBytes
  else if off < 0x434000 then part 0x431000 c.queueBytes
  else if off < 0x440000 then part 0x434000 c.recordBytes
  else part 0x440000 (s.ctx c.res.ctx.val).recordList

/-! ### Host memory writes (R39, R265, R303) -/

/-- Addresses that a host-link write reaches: the host's own memory, and while the link is up the DRAM regions outside
every reserved range (R166, R423). -/
def State.hostReaches (s : State) (a : Nat) : Bool :=
  decide (hostBase ≤ a ∧ a < hostBase + 2 ^ 51) ||
    (s.linkUp && ((s.inRegion 0 a 1 && !(s.ctxs.any fun e => e.2.reserves a 1)) || s.inRegion 1 a 1 || s.inRegion 2 a 1))
def execHostLinkWrite (addr : Nat) (data : List Byte) (s : State) : Out :=
  .next (s.hostWrite ((cellsAt addr data).filter fun c => s.hostReaches c.1))

end Sys2Proof.Machine
end

