-- ==== Sys2Proof/Machine/Vector.lean ====
section
/-!
DEFINITION. Sys2Proof/Machine/Vector.lean: the forms of V's space (R217 to R235).
-/
namespace Sys2Proof.Machine
open Sys2Proof

/-! ### Lanes, sources and destinations (R218 to R220) -/

/-- Element e of a vector of elements of width w. -/
def elem (w : Nat) (v : Vec) (e : Nat) : Nat := bits v.toNat (w * e + w - 1) (w * e)
/-- A vector with elements (index, value) of width w replaced. -/
def putElems (w : Nat) (v : Vec) (els : List (Nat × Nat)) : Vec :=
  BitVec.ofNat 512 (els.foldl (fun n x => putBits n (w * x.1 + w - 1) (w * x.1) x.2) v.toNat)
/-- The byte mask of written elements (R219). -/
def elemMask (w : Nat) (els : List (Nat × Nat)) : Word :=
  els.foldl (fun (m : Word) x => (upto (w * x.1 / 8) ((w * x.1 + w - 1) / 8 + 1 - w * x.1 / 8)).foldl
    (fun m b => m ||| BitVec.ofNat 64 (2 ^ b)) m) 0
/-- The active lanes among the first n of a guard mask. -/
def lanesOf (g : Word) (n : Nat) : List Nat := (upto 0 n).filter fun e => g.getLsbD e

/-- Pop the sources still to pop, in order; false while a queue among them is empty. -/
def State.popMore (s : State) : List VSrc → Bool × State
  | [] => (true, s)
  | x :: r =>
    match s.popSrc x with
    | none => (false, s)
    | some e => State.popMore (e.2.modSt fun y => { y with opbuf := y.opbuf ++ [e.1] }) r

/-- Write result elements to a destination; none while q8 is full (R219). -/
def State.putDst (s : State) (d : VDst) (w : Nat) (els : List (Nat × Nat)) : Option State :=
  match d with
  | .v n => some (s.modRegs fun r => { r with vr := r.vr.set n (putElems w r.vr[n] els) })
  | .q8 =>
    if 16 ≤ s.me.r.qv[4].length then none
    else some (s.modRegs fun r => { r with qv := r.qv.set 4 (r.qv[4] ++ [⟨putElems w 0 els, elemMask w els⟩]) })
  | .z => some s

/-- A vector form whose active lanes are chosen from its guard mask: with none of them active only its tokens move;
otherwise its sources are popped and `f` completes it (R220). -/
def State.vecForm (s : State) (h : Head) (act : Word → List Nat) (srcs : List VSrc)
    (f : State → List Nat → List Vec → Res) : State :=
  s.issueG h fun _ t =>
    let ls := act (t.guardM h.g)
    if ls.isEmpty then .done t
    else
      let r := t.popMore (srcs.drop t.st.opbuf.length)
      if r.1 then f r.2 ls (r.2.st.opbuf.map fun e => e.data) else .wait .loose r.2
/-- Write the elements of a form and set its flags (R220). -/
def State.vecEnd (s : State) (d : VDst) (w : Nat) (els : List (Nat × Nat)) (fl : Nat) : Res :=
  match s.putDst d w els with
  | some t => .done (t.orFlags (BitVec.ofNat 8 fl))
  | none => .wait .loose s

/-- A form whose lane e computes `op e` from lane e of its sources (R220). -/
def State.laneForm (s : State) (h : Head) (d : VDst) (srcs : List VSrc) (t : Ty) (op : Nat → List Nat → Nat × Nat) : State :=
  s.vecForm h (fun g => lanesOf g t.lanes) srcs fun u ls vs =>
    let r := ls.map fun e => (e, op e (vs.map fun v => elem t.width v e))
    u.vecEnd d t.width (r.map fun x => (x.1, x.2.1)) (r.foldl (fun f x => f ||| x.2.2) 0)
/-- One source, two, three. -/
def lane1 (f : Nat → Nat × Nat) (_ : Nat) (l : List Nat) : Nat × Nat := f (l.getD 0 0)
def lane2 (f : Nat → Nat → Nat × Nat) (_ : Nat) (l : List Nat) : Nat × Nat := f (l.getD 0 0) (l.getD 1 0)
def lane3 (f : Nat → Nat → Nat → Nat × Nat) (_ : Nat) (l : List Nat) : Nat × Nat := f (l.getD 0 0) (l.getD 1 0) (l.getD 2 0)
/-- A lane operation without flags. -/
def noFl2 (f : Nat → Nat → Nat) (a b : Nat) : Nat × Nat := (f a b, 0)

/-! ### Lane-wise forms (R222 to R224) -/

def execVadd (h : Head) (d : VDst) (a b : VSrc) (ty : Ty) (rm : RM) (sat : Bool) (s : State) : Out :=
  .next (s.laneForm h d [a, b] ty (lane2 (lAdd ty rm sat)))
def execVsub (h : Head) (d : VDst) (a b : VSrc) (ty : Ty) (rm : RM) (sat : Bool) (s : State) : Out :=
  .next (s.laneForm h d [a, b] ty (lane2 (lSub ty rm sat)))
def execVmul (h : Head) (d : VDst) (a b : VSrc) (ty : Ty) (rm : RM) (sat : Bool) (s : State) : Out :=
  .next (s.laneForm h d [a, b] ty (lane2 (lMul ty rm sat)))
def execVfma (h : Head) (d : VDst) (a b c : VSrc) (ty : Ty) (rm : RM) (sat : Bool) (s : State) : Out :=
  .next (s.laneForm h d [a, b, c] ty (lane3 (lFma ty rm sat)))
def execVfms (h : Head) (d : VDst) (a b c : VSrc) (ty : Ty) (rm : RM) (sat : Bool) (s : State) : Out :=
  .next (s.laneForm h d [a, b, c] ty (lane3 (lFms ty rm sat)))
def execVfnma (h : Head) (d : VDst) (a b c : VSrc) (ty : Ty) (rm : RM) (sat : Bool) (s : State) : Out :=
  .next (s.laneForm h d [a, b, c] ty (lane3 (lFnma ty rm sat)))
def execVdiv (h : Head) (d : VDst) (a b : VSrc) (ty : Ty) (rm : RM) (sat : Bool) (s : State) : Out :=
  .next (s.laneForm h d [a, b] ty (lane2 (lDiv ty rm sat)))
def execVmin (h : Head) (d : VDst) (a b : VSrc) (ty : Ty) (s : State) : Out :=
  .next (s.laneForm h d [a, b] ty (lane2 (minMax ty false)))
def execVmax (h : Head) (d : VDst) (a b : VSrc) (ty : Ty) (s : State) : Out :=
  .next (s.laneForm h d [a, b] ty (lane2 (minMax ty true)))
def execVabs (h : Head) (d : VDst) (a : VSrc) (ty : Ty) (sat : Bool) (s : State) : Out :=
  .next (s.laneForm h d [a] ty (lane1 (lAbs ty sat)))
def execVneg (h : Head) (d : VDst) (a : VSrc) (ty : Ty) (sat : Bool) (s : State) : Out :=
  .next (s.laneForm h d [a] ty (lane1 (lNeg ty sat)))
def execVmulh (h : Head) (d : VDst) (a b : VSrc) (ty : Ty) (s : State) : Out :=
  .next (s.laneForm h d [a, b] ty (lane2 (lMulh ty)))
def execVand (h : Head) (d : VDst) (a b : VSrc) (ty : Ty) (s : State) : Out :=
  .next (s.laneForm h d [a, b] ty (lane2 (noFl2 fun x y => Nat.land x y)))
def execVor (h : Head) (d : VDst) (a b : VSrc) (ty : Ty) (s : State) : Out :=
  .next (s.laneForm h d [a, b] ty (lane2 (noFl2 fun x y => Nat.lor x y)))
def execVxor (h : Head) (d : VDst) (a b : VSrc) (ty : Ty) (s : State) : Out :=
  .next (s.laneForm h d [a, b] ty (lane2 (noFl2 fun x y => Nat.xor x y)))
def execVandn (h : Head) (d : VDst) (a b : VSrc) (ty : Ty) (s : State) : Out :=
  .next (s.laneForm h d [a, b] ty (lane2 (noFl2 fun x y => Nat.land x (2 ^ ty.width - 1 - y))))
def execVshl (h : Head) (d : VDst) (a b : VSrc) (ty : Ty) (s : State) : Out :=
  .next (s.laneForm h d [a, b] ty (lane2 (noFl2 (aluShl ty.width))))
def execVshr (h : Head) (d : VDst) (a b : VSrc) (ty : Ty) (s : State) : Out :=
  .next (s.laneForm h d [a, b] ty (lane2 (noFl2 (aluShr ty.width))))
def execVsar (h : Head) (d : VDst) (a b : VSrc) (ty : Ty) (s : State) : Out :=
  .next (s.laneForm h d [a, b] ty (lane2 (noFl2 (aluSar ty.width))))
/-- The functions of R130 are of F32 only. -/
def execVrcp (h : Head) (d : VDst) (a : VSrc) (rm : RM) (sat : Bool) (s : State) : Out :=
  .next (s.laneForm h d [a] .f32 (lane1 fun x => fltRes .f32 rm sat (fvalue .f32 x).rcp))
def execVrsq (h : Head) (d : VDst) (a : VSrc) (rm : RM) (sat : Bool) (s : State) : Out :=
  .next (s.laneForm h d [a] .f32 (lane1 fun x => fltRes .f32 rm sat (fvalue .f32 x).rsqrt))
def execVsqrt (h : Head) (d : VDst) (a : VSrc) (rm : RM) (sat : Bool) (s : State) : Out :=
  .next (s.laneForm h d [a] .f32 (lane1 fun x => fltRes .f32 rm sat (fvalue .f32 x).sqrt))
def execVexp2 (h : Head) (d : VDst) (a : VSrc) (rm : RM) (sat : Bool) (s : State) : Out :=
  .next (s.laneForm h d [a] .f32 (lane1 fun x => exp2F (fvalue .f32 x) rm sat))
def execVlog2 (h : Head) (d : VDst) (a : VSrc) (rm : RM) (sat : Bool) (s : State) : Out :=
  .next (s.laneForm h d [a] .f32 (lane1 fun x => log2F (fvalue .f32 x) rm sat))
def execVclass (h : Head) (d : VDst) (a : VSrc) (ty : Ty) (s : State) : Out :=
  .next (s.laneForm h d [a] ty (lane1 (lClass ty)))
def execVscale (h : Head) (d : VDst) (a b : VSrc) (ty : Ty) (rm : RM) (sat : Bool) (s : State) : Out :=
  .next (s.laneForm h d [a, b] ty (lane2 (lScale ty rm sat)))
def execVrint (h : Head) (d : VDst) (a : VSrc) (ty : Ty) (rm : RM) (s : State) : Out :=
  .next (s.laneForm h d [a] ty (lane1 (lRint ty rm)))
def execVsgn (h : Head) (d : VDst) (a b : VSrc) (ty : Ty) (s : State) : Out :=
  .next (s.laneForm h d [a, b] ty (lane2 (lSgn ty)))
def execVclz (h : Head) (d : VDst) (a : VSrc) (ty : Ty) (s : State) : Out :=
  .next (s.laneForm h d [a] ty (lane1 fun x => (ty.width - bitLen x, 0)))
def execVpopc (h : Head) (d : VDst) (a : VSrc) (ty : Ty) (s : State) : Out :=
  .next (s.laneForm h d [a] ty (lane1 fun x => (popc ty.width x, 0)))
def execVclamp (h : Head) (d : VDst) (a b c : VSrc) (ty : Ty) (s : State) : Out :=
  .next (s.laneForm h d [a, b, c] ty (lane3 (lClamp ty)))
def execViota (h : Head) (d : VDst) (ty : Ty) (s : State) : Out :=
  .next (s.laneForm h d [] ty fun e _ => (e % 2 ^ ty.width, 0))
def execVabd (h : Head) (d : VDst) (a b : VSrc) (ty : Ty) (rm : RM) (sat : Bool) (s : State) : Out :=
  .next (s.laneForm h d [a, b] ty (lane2 (lAbd ty rm sat)))

/-! ### Conversions (R225, R226) -/

/-- Source and destination index of lane e of VCVT: n lanes of the wider type. -/
def cvtIndex (ws wd part n e : Nat) : Nat × Nat :=
  if wd < ws then (e, part * n + e) else if ws < wd then (part * n + e, e) else (e, e)
def execVcvt (h : Head) (d : VDst) (a : VSrc) (ty tz : Ty) (rm : RM) (sat : Bool) (part : BitVec 13) (s : State) : Out :=
  let n := 512 / max ty.width tz.width
  .next (s.vecForm h (fun g => lanesOf g n) [a] fun t ls vs =>
    let r := ls.map fun e =>
      let i := cvtIndex ty.width tz.width part.toNat n e
      (i.2, convert ty tz rm sat (elem ty.width (vs.getD 0 0) i.1))
    t.vecEnd d tz.width (r.map fun x => (x.1, x.2.1)) (r.foldl (fun f x => f ||| x.2.2) 0))
def execVpack (h : Head) (d : VDst) (a b : VSrc) (ty tz : Ty) (sat : Bool) (s : State) : Out :=
  let n := 512 / ty.width
  .next (s.vecForm h (fun g => lanesOf g 1) [a, b] fun t _ vs =>
    let r := (upto 0 (2 * n)).map fun e => (e, convert ty tz .rne sat (elem ty.width (vs.getD (e / n) 0) (e % n)))
    t.vecEnd d tz.width (r.map fun x => (x.1, x.2.1)) (r.foldl (fun f x => f ||| x.2.2) 0))
def execVunpk (h : Head) (d : VDst) (a : VSrc) (ty tz : Ty) (half : BitVec 13) (s : State) : Out :=
  let n := 512 / tz.width
  .next (s.vecForm h (fun g => lanesOf g 1) [a] fun t _ vs =>
    t.vecEnd d tz.width ((upto 0 n).map fun e =>
      (e, wrap tz.width (intOf ty (elem ty.width (vs.getD 0 0) (half.toNat * n + e))))) 0)

/-! ### Compares, selection and moves (R227 to R230) -/

/-- The low n bits set. -/
def lowMask (n : Nat) : Word := w64 (2 ^ n - 1)
/-- Write both destinations of VCMP in their low n bits (R227). -/
def State.setVcmp (s : State) (n : Nat) (ct : CT) (g r : Word) (pd pe : PIx) : State :=
  s.modSt fun x =>
    let w := combine ct g r (x.pm pd) (x.pm pe)
    let m := lowMask n
    let d := (w.1 &&& m) ||| (x.pm pd &&& ~~~m)
    let e := (w.2 &&& m) ||| (x.pm pe &&& ~~~m)
    (x.setP pd d).setP pe e
def execVcmp (h : Head) (pd pe : PIx) (ct : CT) (cc : CC) (a b : VSrc) (ty : Ty) (s : State) : Out :=
  .next (s.issueG h fun _ t =>
    let g := t.guardM h.g
    let ls := lanesOf g ty.lanes
    if ls.isEmpty then .done (t.setVcmp ty.lanes ct g 0 pd pe)
    else
      let p := t.popMore ([a, b].drop t.st.opbuf.length)
      if !p.1 then .wait .loose p.2
      else
        let vs := p.2.st.opbuf.map fun e => e.data
        let x (e : Nat) := elem ty.width (vs.getD 0 0) e
        let y (e : Nat) := elem ty.width (vs.getD 1 0) e
        let r := ls.foldl (fun (m : Word) e =>
          if (if tyFl ty then ccFloat cc (fvalue ty (x e)) (fvalue ty (y e)) else ccInt cc ty.width (x e) (y e)) then
            m ||| BitVec.ofNat 64 (2 ^ e) else m) 0
        let fl := flagIf (tyFl ty && ls.any fun e => (fvalue ty (x e)).sig || (fvalue ty (y e)).sig) fIV
        .done ((p.2.setVcmp ty.lanes ct g r pd pe).orFlags (BitVec.ofNat 8 fl)))

def execVsel (h : Head) (d : VDst) (p : PIx) (a b : VSrc) (ty : Ty) (s : State) : Out :=
  .next (s.laneForm h d [a, b] ty fun e l => (if (s.st.pm p).getLsbD e then l.getD 0 0 else l.getD 1 0, 0))
def execVmov (h : Head) (d : VDst) (a : VSrc) (ty : Ty) (s : State) : Out :=
  .next (s.laneForm h d [a] ty (lane1 fun x => (x, 0)))
def execVsplat (h : Head) (d : VDst) (a : SIx) (ty : Ty) (s : State) : Out :=
  .next (s.laneForm h d [] ty fun _ _ => ((s.sr a).toNat % 2 ^ ty.width, 0))
def execVsplati (h : Head) (d : VDst) (imm : BitVec 13) (ty : Ty) (s : State) : Out :=
  .next (s.laneForm h d [] ty fun _ _ => ((imm.signExtend 64).toNat % 2 ^ ty.width, 0))
def execVext (h : Head) (d : SIx) (a : VSrc) (ty : Ty) (idx : BitVec 13) (s : State) : Out :=
  .next (s.vecForm h (fun g => if g.getLsbD idx.toNat then [idx.toNat] else []) [a] fun t _ vs =>
    let x := elem ty.width (vs.getD 0 0) idx.toNat
    .done (t.setS d (if ty.isInt then w64 (wrap 64 (intOf ty x)) else w64 x)))
def execVins (h : Head) (d : Fin 16) (a : SIx) (ty : Ty) (idx : BitVec 13) (s : State) : Out :=
  .next (s.vecForm h (fun g => if g.getLsbD idx.toNat then [idx.toNat] else []) [] fun t _ _ =>
    t.vecEnd (.v d) ty.width [(idx.toNat, (t.sr a).toNat % 2 ^ ty.width)] 0)

/-- A form whose lane e takes one element of its sources, read whole (R230). -/
def State.moveForm (s : State) (h : Head) (d : VDst) (srcs : List VSrc) (t : Ty) (pick : List Vec → Nat → Nat) : State :=
  s.vecForm h (fun g => lanesOf g t.lanes) srcs fun u ls vs => u.vecEnd d t.width (ls.map fun e => (e, pick vs e)) 0
def execVshuf (h : Head) (d : VDst) (a b : VSrc) (ty : Ty) (s : State) : Out :=
  .next (s.moveForm h d [a, b] ty fun vs e =>
    elem ty.width (vs.getD 0 0) (elem ty.width (vs.getD 1 0) e % ty.lanes))
def execVperm (h : Head) (d : VDst) (a b c : VSrc) (ty : Ty) (s : State) : Out :=
  .next (s.moveForm h d [a, b, c] ty fun vs e =>
    let i := elem ty.width (vs.getD 2 0) e % (2 * ty.lanes)
    if i < ty.lanes then elem ty.width (vs.getD 0 0) i else elem ty.width (vs.getD 1 0) (i - ty.lanes))
def execVrot (h : Head) (d : VDst) (a : VSrc) (ty : Ty) (k : BitVec 13) (s : State) : Out :=
  .next (s.moveForm h d [a] ty fun vs e => elem ty.width (vs.getD 0 0) ((e + k.toNat) % ty.lanes))

/-! ### Reductions (R231) -/

/-- A reduction into element 0; every other element of the destination becomes 0. -/
def State.redForm (s : State) (r : Red) (h : Head) (d : VDst) (a : VSrc) (t : Ty) (rm : RM) (sat : Bool) : State :=
  s.vecForm h (fun g => lanesOf g t.lanes) [a] fun u ls vs =>
    let x := r.run t rm sat ((upto 0 t.lanes).map (elem t.width (vs.getD 0 0))) ls
    u.vecEnd d t.width ((upto 0 t.lanes).map fun e => (e, if e = 0 then x.1 else 0)) x.2
def execVrsum (h : Head) (d : VDst) (a : VSrc) (ty : Ty) (rm : RM) (sat : Bool) (s : State) : Out :=
  .next (s.redForm .sum h d a ty rm sat)
def execVrmax (h : Head) (d : VDst) (a : VSrc) (ty : Ty) (s : State) : Out := .next (s.redForm .max h d a ty .rne false)
def execVrmin (h : Head) (d : VDst) (a : VSrc) (ty : Ty) (s : State) : Out := .next (s.redForm .min h d a ty .rne false)
def execVramax (h : Head) (d : VDst) (a : VSrc) (ty : Ty) (s : State) : Out := .next (s.redForm .amax h d a ty .rne false)
def execVrsumsq (h : Head) (d : VDst) (a : VSrc) (ty : Ty) (rm : RM) (sat : Bool) (s : State) : Out :=
  .next (s.redForm .sumsq h d a ty rm sat)

/-! ### Predicates (R232, R233) -/

def execVmaski (h : Head) (pd : PIx) (ew : Ew) (n : BitVec 7) (s : State) : Out :=
  .next (s.issueG h fun _ t =>
    let g := t.guardM h.g &&& lowMask (512 / ew.bits)
    .done (t.modSt fun x => x.setP pd ((x.pm pd &&& ~~~g) ||| (lowMask n.toNat &&& g))))
def execVcntp (h : Head) (d : SIx) (pa : PIx) (s : State) : Out :=
  .next (s.issueG h fun _ t =>
    let g := t.guardM h.g
    .done (if g = 0 then t else t.setS d (w64 (popc 64 (t.st.pm pa &&& g).toNat))))

/-! ### Accumulator access (R234, R235) -/

/-- The position of the newest matrix command in q11 or in execution that names a set (R235); 0 for none. -/
def Core.newestOn (c : Core) (n : Fin 4) : Nat :=
  ((c.mx.toList.map fun m => m.cmd) ++ c.q11).foldl
    (fun p x => if x.names n.val then max p (8 * x.pos.lseq + x.pos.lane) else p) 0
/-- Whether a command that names the set and was sampled has not retired. -/
def Core.sampledBusy (c : Core) (n : Fin 4) (p : Nat) : Bool :=
  ((c.mx.toList.map fun m => m.cmd) ++ c.q11).any fun x => x.names n.val && decide (8 * x.pos.lseq + x.pos.lane ≤ p)

/-- An accumulator form: it samples the commands on its set when it issues, and waits for those alone; the sample holds
later commands off the set until it finishes (R235). -/
def State.accSegForm (s : State) (h : Head) (n : Fin 4) (t : Ty) (srcs : List VSrc)
    (f : State → List Nat → List Vec → Res) : State :=
  s.issueG h fun _ u =>
    let ls := lanesOf (u.guardM h.g) t.lanes
    if ls.isEmpty then .done u
    else
      let sm := u.st.sample.getD (4 * u.me.newestOn n + n.val)
      let v := u.modSt fun x => { x with sample := some sm }
      let r := v.popMore (srcs.drop v.st.opbuf.length)
      if !r.1 || r.2.me.sampledBusy n (sm / 4) then .wait .loose r.2
      else f r.2 ls (r.2.st.opbuf.map fun e => e.data)

/-- Key of column e of a row segment. -/
def segKey (acc : Fin 4) (row : Fin 64) (seg : Fin 4) (n e : Nat) : Nat := 4096 * acc.val + 64 * row.val + seg.val * n + e
def execVaccrd (h : Head) (d : VDst) (acc : Fin 4) (row : Fin 64) (seg : Fin 4) (ty tz : Ty) (rm : RM) (sat : Bool) (s : State) : Out :=
  .next (s.accSegForm h acc tz [] fun t ls _ =>
    let r := ls.map fun e =>
      (e, convert ty tz rm sat (t.me.accGet (segKey acc row seg tz.lanes e)).toNat)
    t.vecEnd d tz.width (r.map fun x => (x.1, x.2.1)) (r.foldl (fun f x => f ||| x.2.2) 0))
def execVaccwr (h : Head) (a : VSrc) (acc : Fin 4) (row : Fin 64) (seg : Fin 4) (ty tz : Ty) (rm : RM) (sat : Bool) (s : State) : Out :=
  .next (s.accSegForm h acc ty [a] fun t ls vs =>
    let r := ls.map fun e => (e, toAcc ty tz rm sat (elem ty.width (vs.getD 0 0) e))
    .done ((t.modMe fun c =>
      r.foldl (fun (c : Core) x => c.accSet (segKey acc row seg ty.lanes x.1) (BitVec.ofNat 56 x.2.1))
        (c.snapSet acc c.ph)).orFlags (BitVec.ofNat 8 (r.foldl (fun f x => f ||| x.2.2) 0))))

end Sys2Proof.Machine
end

