-- ==== Sys2Proof/Machine/Dispatch.lean ====
section
/-!
DEFINITION. Sys2Proof/Machine/Dispatch.lean: one arm per constructor of `Instr`, each a direct call of its meaning.
-/
namespace Sys2Proof.Machine
open Sys2Proof

/-- What an instruction does. -/
def exec (i : Instr) (s : State) : Host.Outcome State Fault Refusal :=
  match i with
  | .add x1 x2 x3 x4 x5 => Sys2Proof.Machine.execAdd x1 x2 x3 x4 x5 s
  | .sub x1 x2 x3 x4 x5 => Sys2Proof.Machine.execSub x1 x2 x3 x4 x5 s
  | .mul x1 x2 x3 x4 x5 => Sys2Proof.Machine.execMul x1 x2 x3 x4 x5 s
  | .mulh x1 x2 x3 x4 x5 => Sys2Proof.Machine.execMulh x1 x2 x3 x4 x5 s
  | .mulhn x1 x2 x3 x4 x5 => Sys2Proof.Machine.execMulhn x1 x2 x3 x4 x5 s
  | .div x1 x2 x3 x4 x5 => Sys2Proof.Machine.execDiv x1 x2 x3 x4 x5 s
  | .divn x1 x2 x3 x4 x5 => Sys2Proof.Machine.execDivn x1 x2 x3 x4 x5 s
  | .rem x1 x2 x3 x4 x5 => Sys2Proof.Machine.execRem x1 x2 x3 x4 x5 s
  | .remn x1 x2 x3 x4 x5 => Sys2Proof.Machine.execRemn x1 x2 x3 x4 x5 s
  | .and x1 x2 x3 x4 x5 => Sys2Proof.Machine.execAnd x1 x2 x3 x4 x5 s
  | .or x1 x2 x3 x4 x5 => Sys2Proof.Machine.execOr x1 x2 x3 x4 x5 s
  | .xor x1 x2 x3 x4 x5 => Sys2Proof.Machine.execXor x1 x2 x3 x4 x5 s
  | .shl x1 x2 x3 x4 x5 => Sys2Proof.Machine.execShl x1 x2 x3 x4 x5 s
  | .shr x1 x2 x3 x4 x5 => Sys2Proof.Machine.execShr x1 x2 x3 x4 x5 s
  | .sar x1 x2 x3 x4 x5 => Sys2Proof.Machine.execSar x1 x2 x3 x4 x5 s
  | .rotl x1 x2 x3 x4 x5 => Sys2Proof.Machine.execRotl x1 x2 x3 x4 x5 s
  | .addi x1 x2 x3 x4 => Sys2Proof.Machine.execAddi x1 x2 x3 x4 s
  | .muli x1 x2 x3 x4 => Sys2Proof.Machine.execMuli x1 x2 x3 x4 s
  | .andi x1 x2 x3 x4 => Sys2Proof.Machine.execAndi x1 x2 x3 x4 s
  | .ori x1 x2 x3 x4 => Sys2Proof.Machine.execOri x1 x2 x3 x4 s
  | .xori x1 x2 x3 x4 => Sys2Proof.Machine.execXori x1 x2 x3 x4 s
  | .shli x1 x2 x3 x4 => Sys2Proof.Machine.execShli x1 x2 x3 x4 s
  | .shri x1 x2 x3 x4 => Sys2Proof.Machine.execShri x1 x2 x3 x4 s
  | .sari x1 x2 x3 x4 => Sys2Proof.Machine.execSari x1 x2 x3 x4 s
  | .rotli x1 x2 x3 x4 => Sys2Proof.Machine.execRotli x1 x2 x3 x4 s
  | .clz x1 x2 x3 => Sys2Proof.Machine.execClz x1 x2 x3 s
  | .ctz x1 x2 x3 => Sys2Proof.Machine.execCtz x1 x2 x3 s
  | .popc x1 x2 x3 => Sys2Proof.Machine.execPopc x1 x2 x3 s
  | .mov x1 x2 x3 => Sys2Proof.Machine.execMov x1 x2 x3 s
  | .flgclr x1 x2 => Sys2Proof.Machine.execFlgclr x1 x2 s
  | .movi x1 x2 x3 => Sys2Proof.Machine.execMovi x1 x2 x3 s
  | .movil x1 x2 x3 => Sys2Proof.Machine.execMovil x1 x2 x3 s
  | .moviq x1 x2 x3 => Sys2Proof.Machine.execMoviq x1 x2 x3 s
  | .addil x1 x2 x3 x4 => Sys2Proof.Machine.execAddil x1 x2 x3 x4 s
  | .min x1 x2 x3 x4 => Sys2Proof.Machine.execMin x1 x2 x3 x4 s
  | .max x1 x2 x3 x4 => Sys2Proof.Machine.execMax x1 x2 x3 x4 s
  | .minn x1 x2 x3 x4 => Sys2Proof.Machine.execMinn x1 x2 x3 x4 s
  | .maxn x1 x2 x3 x4 => Sys2Proof.Machine.execMaxn x1 x2 x3 x4 s
  | .path x1 x2 x3 x4 => Sys2Proof.Machine.execPath x1 x2 x3 x4 s
  | .extr x1 x2 x3 x4 x5 x6 => Sys2Proof.Machine.execExtr x1 x2 x3 x4 x5 x6 s
  | .insr x1 x2 x3 x4 x5 => Sys2Proof.Machine.execInsr x1 x2 x3 x4 x5 s
  | .cmp x1 x2 x3 x4 x5 x6 x7 => Sys2Proof.Machine.execCmp x1 x2 x3 x4 x5 x6 x7 s
  | .tbit x1 x2 x3 x4 x5 x6 x7 => Sys2Proof.Machine.execTbit x1 x2 x3 x4 x5 x6 x7 s
  | .pand x1 x2 x3 x4 x5 x6 => Sys2Proof.Machine.execPand x1 x2 x3 x4 x5 x6 s
  | .por x1 x2 x3 x4 x5 x6 => Sys2Proof.Machine.execPor x1 x2 x3 x4 x5 x6 s
  | .pxor x1 x2 x3 x4 x5 x6 => Sys2Proof.Machine.execPxor x1 x2 x3 x4 x5 x6 s
  | .pget x1 x2 => Sys2Proof.Machine.execPget x1 x2 s
  | .pput x1 x2 => Sys2Proof.Machine.execPput x1 x2 s
  | .qsend x1 x2 x3 => Sys2Proof.Machine.execQsend x1 x2 x3 s
  | .qrecv x1 x2 x3 => Sys2Proof.Machine.execQrecv x1 x2 x3 s
  | .qtest x1 x2 x3 => Sys2Proof.Machine.execQtest x1 x2 x3 s
  | .mfsr x1 x2 x3 => Sys2Proof.Machine.execMfsr x1 x2 x3 s
  | .mtsr x1 x2 x3 => Sys2Proof.Machine.execMtsr x1 x2 x3 s
  | .nop x1 => Sys2Proof.Machine.execNop x1 s
  | .brk x1 x2 => Sys2Proof.Machine.execBrk x1 x2 s
  | .fadd x1 x2 x3 x4 x5 x6 => Sys2Proof.Machine.execFadd x1 x2 x3 x4 x5 x6 s
  | .fsub x1 x2 x3 x4 x5 x6 => Sys2Proof.Machine.execFsub x1 x2 x3 x4 x5 x6 s
  | .fmul x1 x2 x3 x4 x5 x6 => Sys2Proof.Machine.execFmul x1 x2 x3 x4 x5 x6 s
  | .fdiv x1 x2 x3 x4 x5 x6 => Sys2Proof.Machine.execFdiv x1 x2 x3 x4 x5 x6 s
  | .fma x1 x2 x3 x4 x5 x6 x7 => Sys2Proof.Machine.execFma x1 x2 x3 x4 x5 x6 x7 s
  | .fmin x1 x2 x3 x4 => Sys2Proof.Machine.execFmin x1 x2 x3 x4 s
  | .fmax x1 x2 x3 x4 => Sys2Proof.Machine.execFmax x1 x2 x3 x4 s
  | .fsqrt x1 x2 x3 x4 x5 => Sys2Proof.Machine.execFsqrt x1 x2 x3 x4 x5 s
  | .fcvt x1 x2 x3 x4 x5 x6 x7 => Sys2Proof.Machine.execFcvt x1 x2 x3 x4 x5 x6 x7 s
  | .fcmp x1 x2 x3 x4 x5 x6 x7 => Sys2Proof.Machine.execFcmp x1 x2 x3 x4 x5 x6 x7 s
  | .fneg x1 x2 x3 => Sys2Proof.Machine.execFneg x1 x2 x3 s
  | .fabs x1 x2 x3 => Sys2Proof.Machine.execFabs x1 x2 x3 s
  | .trap x1 x2 => Sys2Proof.Machine.execTrap x1 x2 s
  | .inj x1 x2 x3 x4 => Sys2Proof.Machine.execInj x1 x2 x3 x4 s
  | .xlate x1 x2 x3 x4 => Sys2Proof.Machine.execXlate x1 x2 x3 x4 s
  | .probe x1 x2 x3 => Sys2Proof.Machine.execProbe x1 x2 x3 s
  | .hloc x1 x2 x3 x4 => Sys2Proof.Machine.execHloc x1 x2 x3 x4 s
  | .hmov x1 x2 x3 => Sys2Proof.Machine.execHmov x1 x2 x3 s
  | .hsub x1 x2 x3 x4 x5 x6 => Sys2Proof.Machine.execHsub x1 x2 x3 x4 x5 x6 s
  | .hget x1 x2 x3 x4 => Sys2Proof.Machine.execHget x1 x2 x3 x4 s
  | .tset x1 x2 x3 => Sys2Proof.Machine.execTset x1 x2 x3 s
  | .tget x1 x2 x3 x4 => Sys2Proof.Machine.execTget x1 x2 x3 x4 s
  | .ld x1 x2 x3 x4 x5 x6 x7 => Sys2Proof.Machine.execLd x1 x2 x3 x4 x5 x6 x7 s
  | .st x1 x2 x3 x4 x5 x6 x7 => Sys2Proof.Machine.execSt x1 x2 x3 x4 x5 x6 x7 s
  | .ldl x1 x2 x3 x4 x5 x6 => Sys2Proof.Machine.execLdl x1 x2 x3 x4 x5 x6 s
  | .gtest x1 x2 x3 x4 x5 => Sys2Proof.Machine.execGtest x1 x2 x3 x4 x5 s
  | .gset x1 x2 x3 x4 x5 => Sys2Proof.Machine.execGset x1 x2 x3 x4 x5 s
  | .amo x1 x2 x3 x4 x5 x6 x7 x8 x9 x10 => Sys2Proof.Machine.execAmo x1 x2 x3 x4 x5 x6 x7 x8 x9 x10 s
  | .acas x1 x2 x3 x4 x5 x6 x7 x8 x9 x10 => Sys2Proof.Machine.execAcas x1 x2 x3 x4 x5 x6 x7 x8 x9 x10 s
  | .copy x1 x2 x3 x4 x5 x6 x7 x8 x9 x10 => Sys2Proof.Machine.execCopy x1 x2 x3 x4 x5 x6 x7 x8 x9 x10 s
  | .fill x1 x2 x3 x4 x5 x6 x7 x8 x9 => Sys2Proof.Machine.execFill x1 x2 x3 x4 x5 x6 x7 x8 x9 s
  | .gather x1 x2 x3 x4 x5 x6 x7 x8 x9 x10 => Sys2Proof.Machine.execGather x1 x2 x3 x4 x5 x6 x7 x8 x9 x10 s
  | .scatter x1 x2 x3 x4 x5 x6 x7 x8 x9 x10 => Sys2Proof.Machine.execScatter x1 x2 x3 x4 x5 x6 x7 x8 x9 x10 s
  | .tring x1 x2 x3 x4 x5 x6 x7 x8 x9 => Sys2Proof.Machine.execTring x1 x2 x3 x4 x5 x6 x7 x8 x9 s
  | .ccancel x1 x2 => Sys2Proof.Machine.execCcancel x1 x2 s
  | .evpop x1 x2 x3 => Sys2Proof.Machine.execEvpop x1 x2 x3 s
  | .mfmt x1 x2 => Sys2Proof.Machine.execMfmt x1 x2 s
  | .mfmti x1 x2 => Sys2Proof.Machine.execMfmti x1 x2 s
  | .mmul x1 x2 x3 x4 x5 x6 x7 x8 => Sys2Proof.Machine.execMmul x1 x2 x3 x4 x5 x6 x7 x8 s
  | .mzero x1 x2 => Sys2Proof.Machine.execMzero x1 x2 s
  | .accld x1 x2 x3 x4 x5 x6 => Sys2Proof.Machine.execAccld x1 x2 x3 x4 x5 x6 s
  | .accst x1 x2 x3 x4 x5 x6 => Sys2Proof.Machine.execAccst x1 x2 x3 x4 x5 x6 s
  | .ringcfg x1 x2 x3 x4 => Sys2Proof.Machine.execRingcfg x1 x2 x3 x4 s
  | .ringrel x1 x2 => Sys2Proof.Machine.execRingrel x1 x2 s
  | .ringq x1 x2 x3 => Sys2Proof.Machine.execRingq x1 x2 x3 s
  | .bar x1 x2 => Sys2Proof.Machine.execBar x1 x2 s
  | .semsig x1 x2 x3 => Sys2Proof.Machine.execSemsig x1 x2 x3 s
  | .semwait x1 x2 x3 => Sys2Proof.Machine.execSemwait x1 x2 x3 s
  | .semrd x1 x2 x3 => Sys2Proof.Machine.execSemrd x1 x2 x3 s
  | .tagpub x1 x2 x3 => Sys2Proof.Machine.execTagpub x1 x2 x3 s
  | .tagpubP x1 x2 x3 => Sys2Proof.Machine.execTagpubP x1 x2 x3 s
  | .tagtest x1 x2 x3 x4 => Sys2Proof.Machine.execTagtest x1 x2 x3 x4 s
  | .jpatch x1 x2 x3 x4 x5 => Sys2Proof.Machine.execJpatch x1 x2 x3 x4 x5 s
  | .jarm x1 x2 x3 => Sys2Proof.Machine.execJarm x1 x2 x3 s
  | .jstat x1 x2 x3 => Sys2Proof.Machine.execJstat x1 x2 x3 s
  | .pool x1 x2 x3 => Sys2Proof.Machine.execPool x1 x2 x3 s
  | .poolPop x1 x2 => Sys2Proof.Machine.execPoolPop x1 x2 s
  | .hotqLook x1 x2 x3 => Sys2Proof.Machine.execHotqLook x1 x2 x3 s
  | .hotqFill x1 x2 x3 => Sys2Proof.Machine.execHotqFill x1 x2 x3 s
  | .hotqInv x1 x2 x3 => Sys2Proof.Machine.execHotqInv x1 x2 x3 s
  | .hotqDrops x1 x2 x3 => Sys2Proof.Machine.execHotqDrops x1 x2 x3 s
  | .skqEst x1 x2 x3 => Sys2Proof.Machine.execSkqEst x1 x2 x3 s
  | .skqClr x1 x2 x3 => Sys2Proof.Machine.execSkqClr x1 x2 x3 s
  | .scupdSgd x1 x2 x3 => Sys2Proof.Machine.execScupdSgd x1 x2 x3 s
  | .scupdAdagrad x1 x2 x3 => Sys2Proof.Machine.execScupdAdagrad x1 x2 x3 s
  | .scupdAdam x1 x2 x3 => Sys2Proof.Machine.execScupdAdam x1 x2 x3 s
  | .nmrun x1 x2 x3 => Sys2Proof.Machine.execNmrun x1 x2 x3 s
  | .nmstat x1 x2 x3 => Sys2Proof.Machine.execNmstat x1 x2 x3 s
  | .ixwalk x1 x2 x3 => Sys2Proof.Machine.execIxwalk x1 x2 x3 s
  | .ixwalkPop x1 x2 => Sys2Proof.Machine.execIxwalkPop x1 x2 s
  | .a2aIdx x1 x2 x3 => Sys2Proof.Machine.execA2aIdx x1 x2 x3 s
  | .a2aVec x1 x2 x3 => Sys2Proof.Machine.execA2aVec x1 x2 x3 s
  | .a2aPop x1 x2 => Sys2Proof.Machine.execA2aPop x1 x2 s
  | .xredSum x1 x2 x3 => Sys2Proof.Machine.execXredSum x1 x2 x3 s
  | .xredMin x1 x2 x3 => Sys2Proof.Machine.execXredMin x1 x2 x3 s
  | .xredMax x1 x2 x3 => Sys2Proof.Machine.execXredMax x1 x2 x3 s
  | .xput x1 x2 x3 => Sys2Proof.Machine.execXput x1 x2 x3 s
  | .xabort x1 x2 => Sys2Proof.Machine.execXabort x1 x2 s
  | .ldq x1 x2 x3 x4 x5 x6 x7 x8 x9 => Sys2Proof.Machine.execLdq x1 x2 x3 x4 x5 x6 x7 x8 x9 s
  | .stq x1 x2 x3 x4 x5 x6 x7 x8 => Sys2Proof.Machine.execStq x1 x2 x3 x4 x5 x6 x7 x8 s
  | .qsplat x1 x2 x3 x4 => Sys2Proof.Machine.execQsplat x1 x2 x3 x4 s
  | .vadd x1 x2 x3 x4 x5 x6 x7 => Sys2Proof.Machine.execVadd x1 x2 x3 x4 x5 x6 x7 s
  | .vsub x1 x2 x3 x4 x5 x6 x7 => Sys2Proof.Machine.execVsub x1 x2 x3 x4 x5 x6 x7 s
  | .vmul x1 x2 x3 x4 x5 x6 x7 => Sys2Proof.Machine.execVmul x1 x2 x3 x4 x5 x6 x7 s
  | .vfma x1 x2 x3 x4 x5 x6 x7 x8 => Sys2Proof.Machine.execVfma x1 x2 x3 x4 x5 x6 x7 x8 s
  | .vfms x1 x2 x3 x4 x5 x6 x7 x8 => Sys2Proof.Machine.execVfms x1 x2 x3 x4 x5 x6 x7 x8 s
  | .vfnma x1 x2 x3 x4 x5 x6 x7 x8 => Sys2Proof.Machine.execVfnma x1 x2 x3 x4 x5 x6 x7 x8 s
  | .vdiv x1 x2 x3 x4 x5 x6 x7 => Sys2Proof.Machine.execVdiv x1 x2 x3 x4 x5 x6 x7 s
  | .vmin x1 x2 x3 x4 x5 => Sys2Proof.Machine.execVmin x1 x2 x3 x4 x5 s
  | .vmax x1 x2 x3 x4 x5 => Sys2Proof.Machine.execVmax x1 x2 x3 x4 x5 s
  | .vabs x1 x2 x3 x4 x5 => Sys2Proof.Machine.execVabs x1 x2 x3 x4 x5 s
  | .vneg x1 x2 x3 x4 x5 => Sys2Proof.Machine.execVneg x1 x2 x3 x4 x5 s
  | .vmulh x1 x2 x3 x4 x5 => Sys2Proof.Machine.execVmulh x1 x2 x3 x4 x5 s
  | .vand x1 x2 x3 x4 x5 => Sys2Proof.Machine.execVand x1 x2 x3 x4 x5 s
  | .vor x1 x2 x3 x4 x5 => Sys2Proof.Machine.execVor x1 x2 x3 x4 x5 s
  | .vxor x1 x2 x3 x4 x5 => Sys2Proof.Machine.execVxor x1 x2 x3 x4 x5 s
  | .vandn x1 x2 x3 x4 x5 => Sys2Proof.Machine.execVandn x1 x2 x3 x4 x5 s
  | .vshl x1 x2 x3 x4 x5 => Sys2Proof.Machine.execVshl x1 x2 x3 x4 x5 s
  | .vshr x1 x2 x3 x4 x5 => Sys2Proof.Machine.execVshr x1 x2 x3 x4 x5 s
  | .vsar x1 x2 x3 x4 x5 => Sys2Proof.Machine.execVsar x1 x2 x3 x4 x5 s
  | .vrcp x1 x2 x3 x4 x5 => Sys2Proof.Machine.execVrcp x1 x2 x3 x4 x5 s
  | .vrsq x1 x2 x3 x4 x5 => Sys2Proof.Machine.execVrsq x1 x2 x3 x4 x5 s
  | .vsqrt x1 x2 x3 x4 x5 => Sys2Proof.Machine.execVsqrt x1 x2 x3 x4 x5 s
  | .vexp2 x1 x2 x3 x4 x5 => Sys2Proof.Machine.execVexp2 x1 x2 x3 x4 x5 s
  | .vlog2 x1 x2 x3 x4 x5 => Sys2Proof.Machine.execVlog2 x1 x2 x3 x4 x5 s
  | .vcvt x1 x2 x3 x4 x5 x6 x7 x8 => Sys2Proof.Machine.execVcvt x1 x2 x3 x4 x5 x6 x7 x8 s
  | .vcmp x1 x2 x3 x4 x5 x6 x7 x8 => Sys2Proof.Machine.execVcmp x1 x2 x3 x4 x5 x6 x7 x8 s
  | .vsel x1 x2 x3 x4 x5 x6 => Sys2Proof.Machine.execVsel x1 x2 x3 x4 x5 x6 s
  | .vmov x1 x2 x3 x4 => Sys2Proof.Machine.execVmov x1 x2 x3 x4 s
  | .vsplat x1 x2 x3 x4 => Sys2Proof.Machine.execVsplat x1 x2 x3 x4 s
  | .vsplati x1 x2 x3 x4 => Sys2Proof.Machine.execVsplati x1 x2 x3 x4 s
  | .vext x1 x2 x3 x4 x5 => Sys2Proof.Machine.execVext x1 x2 x3 x4 x5 s
  | .vins x1 x2 x3 x4 x5 => Sys2Proof.Machine.execVins x1 x2 x3 x4 x5 s
  | .vrsum x1 x2 x3 x4 x5 x6 => Sys2Proof.Machine.execVrsum x1 x2 x3 x4 x5 x6 s
  | .vrmax x1 x2 x3 x4 => Sys2Proof.Machine.execVrmax x1 x2 x3 x4 s
  | .vrmin x1 x2 x3 x4 => Sys2Proof.Machine.execVrmin x1 x2 x3 x4 s
  | .vramax x1 x2 x3 x4 => Sys2Proof.Machine.execVramax x1 x2 x3 x4 s
  | .vshuf x1 x2 x3 x4 x5 => Sys2Proof.Machine.execVshuf x1 x2 x3 x4 x5 s
  | .vperm x1 x2 x3 x4 x5 x6 => Sys2Proof.Machine.execVperm x1 x2 x3 x4 x5 x6 s
  | .vrot x1 x2 x3 x4 x5 => Sys2Proof.Machine.execVrot x1 x2 x3 x4 x5 s
  | .vpack x1 x2 x3 x4 x5 x6 x7 => Sys2Proof.Machine.execVpack x1 x2 x3 x4 x5 x6 x7 s
  | .vunpk x1 x2 x3 x4 x5 x6 => Sys2Proof.Machine.execVunpk x1 x2 x3 x4 x5 x6 s
  | .vclass x1 x2 x3 x4 => Sys2Proof.Machine.execVclass x1 x2 x3 x4 s
  | .vscale x1 x2 x3 x4 x5 x6 x7 => Sys2Proof.Machine.execVscale x1 x2 x3 x4 x5 x6 x7 s
  | .vrint x1 x2 x3 x4 x5 => Sys2Proof.Machine.execVrint x1 x2 x3 x4 x5 s
  | .vsgn x1 x2 x3 x4 x5 => Sys2Proof.Machine.execVsgn x1 x2 x3 x4 x5 s
  | .vclz x1 x2 x3 x4 => Sys2Proof.Machine.execVclz x1 x2 x3 x4 s
  | .vpopc x1 x2 x3 x4 => Sys2Proof.Machine.execVpopc x1 x2 x3 x4 s
  | .vrsumsq x1 x2 x3 x4 x5 x6 => Sys2Proof.Machine.execVrsumsq x1 x2 x3 x4 x5 x6 s
  | .vaccrd x1 x2 x3 x4 x5 x6 x7 x8 x9 => Sys2Proof.Machine.execVaccrd x1 x2 x3 x4 x5 x6 x7 x8 x9 s
  | .vaccwr x1 x2 x3 x4 x5 x6 x7 x8 x9 => Sys2Proof.Machine.execVaccwr x1 x2 x3 x4 x5 x6 x7 x8 x9 s
  | .vmaski x1 x2 x3 x4 => Sys2Proof.Machine.execVmaski x1 x2 x3 x4 s
  | .vcntp x1 x2 x3 => Sys2Proof.Machine.execVcntp x1 x2 x3 s
  | .vclamp x1 x2 x3 x4 x5 x6 => Sys2Proof.Machine.execVclamp x1 x2 x3 x4 x5 x6 s
  | .viota x1 x2 x3 => Sys2Proof.Machine.execViota x1 x2 x3 s
  | .vabd x1 x2 x3 x4 x5 x6 x7 => Sys2Proof.Machine.execVabd x1 x2 x3 x4 x5 x6 x7 s
  | .br x1 x2 => Sys2Proof.Machine.execBr x1 x2 s
  | .call x1 x2 => Sys2Proof.Machine.execCall x1 x2 s
  | .bri x1 x2 => Sys2Proof.Machine.execBri x1 x2 s
  | .ret x1 => Sys2Proof.Machine.execRet x1 s
  | .loopReg x1 x2 x3 => Sys2Proof.Machine.execLoopReg x1 x2 x3 s
  | .loopImm x1 x2 x3 => Sys2Proof.Machine.execLoopImm x1 x2 x3 s
  | .endl x1 x2 x3 => Sys2Proof.Machine.execEndl x1 x2 x3 s
  | .lexit x1 x2 x3 => Sys2Proof.Machine.execLexit x1 x2 x3 s
  | .phase x1 => Sys2Proof.Machine.execPhase x1 s
  | .quiet x1 => Sys2Proof.Machine.execQuiet x1 s
  | .trapf x1 => Sys2Proof.Machine.execTrapf x1 s
  | .kend x1 => Sys2Proof.Machine.execKend x1 s
  | .fence x1 x2 x3 => Sys2Proof.Machine.execFence x1 x2 x3 s
  | .cardWindowWrite x1 x2 x3 => Sys2Proof.Machine.execCardWindowWrite x1 x2 x3 s
  | .arm x1 x2 => Sys2Proof.Machine.execArm x1 x2 s
  | .cqhead x1 x2 => Sys2Proof.Machine.execCqhead x1 x2 s
  | .cstat x1 x2 => Sys2Proof.Machine.execCstat x1 x2 s
  | .cint x1 x2 => Sys2Proof.Machine.execCint x1 x2 s
  | .mint x1 => Sys2Proof.Machine.execMint x1 s
  | .vectorUnmask x1 => Sys2Proof.Machine.execVectorUnmask x1 s
  | .wdkick x1 => Sys2Proof.Machine.execWdkick x1 s
  | .halt x1 => Sys2Proof.Machine.execHalt x1 s
  | .resume x1 => Sys2Proof.Machine.execResume x1 s
  | .step x1 x2 => Sys2Proof.Machine.execStep x1 x2 s
  | .stepall x1 x2 => Sys2Proof.Machine.execStepall x1 x2 s
  | .bbctl x1 => Sys2Proof.Machine.execBbctl x1 s
  | .hurel x1 => Sys2Proof.Machine.execHurel x1 s
  | .mext x1 => Sys2Proof.Machine.execMext x1 s
  | .atreq x1 => Sys2Proof.Machine.execAtreq x1 s
  | .attestationReportDone => Sys2Proof.Machine.execAttestationReportDone s
  | .registerWrite x1 x2 => Sys2Proof.Machine.execRegisterWrite x1 x2 s
  | .createContext => Sys2Proof.Machine.execCreateContext s
  | .destroyContext => Sys2Proof.Machine.execDestroyContext s
  | .writeExtent => Sys2Proof.Machine.execWriteExtent s
  | .revokeExtent => Sys2Proof.Machine.execRevokeExtent s
  | .revocationComplete x1 x2 => Sys2Proof.Machine.execRevocationComplete x1 x2 s
  | .revocationPhaseLimit x1 => Sys2Proof.Machine.execRevocationPhaseLimit x1 s
  | .translationFaultAnswer x1 x2 => Sys2Proof.Machine.execTranslationFaultAnswer x1 x2 s
  | .leaseChannel => Sys2Proof.Machine.execLeaseChannel s
  | .endLease => Sys2Proof.Machine.execEndLease s
  | .leaseLapse x1 => Sys2Proof.Machine.execLeaseLapse x1 s
  | .designateNearMemoryRegion => Sys2Proof.Machine.execDesignateNearMemoryRegion s
  | .writeTableDescriptor => Sys2Proof.Machine.execWriteTableDescriptor s
  | .registerExchangeGroup => Sys2Proof.Machine.execRegisterExchangeGroup s
  | .registerInboundBuffer => Sys2Proof.Machine.execRegisterInboundBuffer s
  | .writePeerEntry => Sys2Proof.Machine.execWritePeerEntry s
  | .writeMustSaveEntry => Sys2Proof.Machine.execWriteMustSaveEntry s
  | .withdrawMustSaveEntry => Sys2Proof.Machine.execWithdrawMustSaveEntry s
  | .copyRecoveryReport => Sys2Proof.Machine.execCopyRecoveryReport s
  | .restoreSavedEntry => Sys2Proof.Machine.execRestoreSavedEntry s
  | .writeBootParameters => Sys2Proof.Machine.execWriteBootParameters s
  | .unknownRequest => Sys2Proof.Machine.execUnknownRequest s
  | .hostLinkWrite x1 x2 => Sys2Proof.Machine.execHostLinkWrite x1 x2 s
  | .armRequest x1 x2 => Sys2Proof.Machine.execArmRequest x1 x2 s
  | .patchRequest x1 => Sys2Proof.Machine.execPatchRequest x1 s
  | .campionAnswer x1 => Sys2Proof.Machine.execCampionAnswer x1 s
  | .tagPublication x1 => Sys2Proof.Machine.execTagPublication x1 s
  | .launch => Sys2Proof.Machine.execLaunch s
  | .gangPlacement => Sys2Proof.Machine.execGangPlacement s
  | .aging => Sys2Proof.Machine.execAging s
  | .preemption => Sys2Proof.Machine.execPreemption s
  | .blockRetirement x1 => Sys2Proof.Machine.execBlockRetirement x1 s
  | .watchdogExpiry x1 => Sys2Proof.Machine.execWatchdogExpiry x1 s
  | .queueStarvation x1 => Sys2Proof.Machine.execQueueStarvation x1 s
  | .variantRunStart x1 x2 => Sys2Proof.Machine.execVariantRunStart x1 x2 s
  | .matrixCommand x1 => Sys2Proof.Machine.execMatrixCommand x1 s
  | .kStep x1 => Sys2Proof.Machine.execKStep x1 s
  | .matrixRetirement x1 => Sys2Proof.Machine.execMatrixRetirement x1 s
  | .accumulatorWindowWrite x1 => Sys2Proof.Machine.execAccumulatorWindowWrite x1 s
  | .copyCommand x1 x2 => Sys2Proof.Machine.execCopyCommand x1 x2 s
  | .copyCompletion x1 x2 => Sys2Proof.Machine.execCopyCompletion x1 x2 s
  | .poolUnitCommand x1 => Sys2Proof.Machine.execPoolUnitCommand x1 s
  | .poolUnitCompletion x1 => Sys2Proof.Machine.execPoolUnitCompletion x1 s
  | .sketchDecay x1 x2 => Sys2Proof.Machine.execSketchDecay x1 x2 s
  | .scatterUpdateCommand x1 => Sys2Proof.Machine.execScatterUpdateCommand x1 s
  | .rowCommit x1 => Sys2Proof.Machine.execRowCommit x1 s
  | .scatterUpdateCompletion x1 => Sys2Proof.Machine.execScatterUpdateCompletion x1 s
  | .nearMemoryRun x1 => Sys2Proof.Machine.execNearMemoryRun x1 s
  | .unitPause x1 => Sys2Proof.Machine.execUnitPause x1 s
  | .nearMemoryCompletion x1 => Sys2Proof.Machine.execNearMemoryCompletion x1 s
  | .teaselSegment x1 => Sys2Proof.Machine.execTeaselSegment x1 s
  | .speedwellCommand x1 => Sys2Proof.Machine.execSpeedwellCommand x1 s
  | .inboundPacket x1 => Sys2Proof.Machine.execInboundPacket x1 s
  | .abortToken x1 x2 x3 => Sys2Proof.Machine.execAbortToken x1 x2 x3 s
  | .retransmissionTimeout x1 => Sys2Proof.Machine.execRetransmissionTimeout x1 s
  | .collectiveTimeout x1 x2 => Sys2Proof.Machine.execCollectiveTimeout x1 x2 s
  | .speedwellCompletion x1 x2 => Sys2Proof.Machine.execSpeedwellCompletion x1 x2 s
  | .correctableError x1 => Sys2Proof.Machine.execCorrectableError x1 s
  | .uncorrectableError x1 => Sys2Proof.Machine.execUncorrectableError x1 s
  | .crcError x1 => Sys2Proof.Machine.execCrcError x1 s
  | .counterWindowExpiry x1 => Sys2Proof.Machine.execCounterWindowExpiry x1 s
  | .powerFail x1 => Sys2Proof.Machine.execPowerFail x1 s
  | .supplyReturn => Sys2Proof.Machine.execSupplyReturn s
  | .overvoltage x1 => Sys2Proof.Machine.execOvervoltage x1 s
  | .thermalTrip x1 => Sys2Proof.Machine.execThermalTrip x1 s
  | .peakDetector x1 => Sys2Proof.Machine.execPeakDetector x1 s
  | .regularStep x1 x2 => Sys2Proof.Machine.execRegularStep x1 x2 s
  | .boot x1 => Sys2Proof.Machine.execBoot x1 s
  | .bankRecharged => Sys2Proof.Machine.execBankRecharged s
  | .illegalEncoding x1 x2 x3 => Sys2Proof.Machine.execIllegalEncoding x1 x2 x3 s

end Sys2Proof.Machine
end

