-- ==== Sys2Proof/Machine/Run.lean ====
section
/-!
DEFINITION. Sys2Proof/Machine/Run.lean: one turn of the device: who moves (the schedule, else the current stream), fetching,
the debugger's step, decode
faults of one clock, and passing time (R80, R81, R88, R109, R350, R362).
-/
namespace Sys2Proof.Machine
open Sys2Proof

/-- The current stream of the current core takes a turn: it issues its next form, or passes to its next line, or
waits. -/
def State.streamTurn (s : State) : Out :=
  match s.fetchForm false with
  | .idle t => .next t
  | .form t i => exec i t
  | .bad t code detail lane => Sys2Proof.Machine.execIllegalEncoding code detail lane t

/-- Follow a stream over empty lines to its next form, at most n lines. -/
def State.seekForm : Nat → State → Next
  | 0, s => .idle s
  | n + 1, s =>
    match s.fetchForm true with
    | .form t i => .form t i
    | .bad t code detail lane => .bad t code detail lane
    | .idle t => if t.st.blk = .run ∧ t.st.pos ≠ s.st.pos then t.seekForm n else .idle t

/-! ### Starvation and time (R88, R350) -/

/-- Whether a stream is blocked in a way that R350 counts: a turn of it now would change nothing of its core, or all that is
left of its KEND is the wait for the block's commands. -/
def State.stuck (s : State) (k : Nat) (m : Stm) : Bool :=
  let t : State := { s with cur := k, strm := m }
  if t.me.ended then t.enginesBusy k
  else t.mayIssue false && (match t.streamTurn with
    | .next u => u.st.blk.counts && (u.modSt fun x => { x with blk := t.st.blk }).me == t.me
    | _ => false)
/-- Whether all three streams of a core are blocked with nothing outstanding (R350). -/
def State.starving (s : State) (k : Nat) : Bool :=
  (s.core k).blk.isSome && !s.outstanding k && s.stuck k .c && s.stuck k .a && s.stuck k .v
/-- Let time pass. -/
def State.pass (s : State) (ns cc : Nat) : State := s.passTime s.starving ns cc

/-- What goes on beside the turns: publications that a core has committed are performed, as many of them as the manual
leaves open (R267, R268), what peers sent and could not be taken is taken (R343), and Campion re-evaluates the loop nodes that
are due (R38). -/
def State.settleSome (s : State) (k : Nat) : State :=
  let d := s.draw
  d.2.flushComm (d.1 % ((s.core k).comm.length + 1)) k
def State.meanwhile (s : State) : State :=
  if s.down then s
  else ((s.cores.filter fun e => !e.2.comm.isEmpty).foldl (fun (t : State) e => t.settleSome e.1) s).retryPuts.campionEnd

/-! ### The debugger's step (R362) -/

/-- Record the result of a debugger step (R362 DBGSTAT bits 3:0). -/
def State.dbgResult (s : State) (c n : Nat) : State := s.modCtx c fun t => { t with dbgres := BitVec.ofNat 4 n }
/-- A stream's next form, over as many empty lines as the image has. -/
def State.seek (s : State) : Next := s.seekForm (8 * (s.res.codelines + 1))
/-- A stream that has only empty lines before an aligning form stands at that form. -/
def State.toAlign (s : State) (m : Stm) : State :=
  match ({ s with strm := m } : State).seek with
  | .idle t => if t.st.blk = .align then t else s
  | _ => s
/-- Whether a form that the current stream began at `s` has issued, or has stopped the block. -/
def State.issued (s u : State) (c : Nat) : Bool :=
  (u.ctx c).stopped || u.me.blk.isNone || u.me.ended || u.me.mark == .dying || u.st.pos != s.st.pos
/-- The result of a step of a form: done; stopped by a trigger, which waits for the resume (R369); or nothing has issued,
because the form would wait. -/
def State.dbgForm (s : State) (c : Nat) (t : State) (i : Instr) : Out :=
  match exec i t with
  | .next u =>
    .next (if t.issued u c then u.dbgResult c 0
      else if u.me.ptrig != s.me.ptrig then u.dbgResult c 1
      else s.dbgResult c (if u.st.blk = .align ∧ !t.me.aligned then 2 else 1))
  | o => o
/-- A debugger step: the form issues if it can without waiting; otherwise nothing issues (R362).  An aligning form issues
whichever of the three streams the host steps. -/
def State.dbgTurn (s : State) (c k : Nat) (m : Stm) : Out :=
  let s0 : State := { s with cur := k }
  let s1 : State := { (s0.toAlign .a).toAlign .v with strm := m }
  if !(s.haltedCore k && (s.core k).res.ctx.val == c) then .next (s.dbgResult c 3)
  else match s1.seek with
    | .idle t =>
      if t.st.blk = .align ∧ m ≠ .c then
        match ({ s1 with strm := .c } : State).seek with
        | .form u i => if u.me.aligned then s1.dbgForm c u i else .next (s1.dbgResult c 2)
        | _ => .next (s1.dbgResult c 2)
      else .next (s1.dbgResult c 1)
    | .form t i => s1.dbgForm c t i
    | .bad t code detail lane => match Sys2Proof.Machine.execIllegalEncoding code detail lane t with
      | .next u => .next (u.dbgResult c 0)
      | o => o

/-! ### Turns (R80, R109) -/

/-- Whether a position lies before another, or at it in a stream that R109 names first. -/
def earlier (m n : Stm) (p q : Pos) : Bool :=
  decide (p.lseq < q.lseq) || (p.lseq == q.lseq && (decide (p.lane < q.lane) || (p.lane == q.lane && decide (Stm.code m < Stm.code n))))
/-- What the schedule moves in the same core clock: turns that no time separates, DEDUCED (notes/assumptions/67.md). -/
def clockActs : List Turn → List Act
  | [] => []
  | t :: r => if t.ns = 0 ∧ t.cc = 0 then t.act :: clockActs r else []
/-- Streams of a core among them. -/
def streamsOf (k : Nat) (as : List Act) : List Stm :=
  as.filterMap fun a => match a with
    | .stream j m => if j = k then some m else none
    | _ => none
/-- Where a turn of the current stream would raise a decode fault: a line or form that is refused, or an ALL form of C whose
branch check fails (R79, R108). -/
def State.formFault (s : State) : Option Pos :=
  match s.fetchForm false with
  | .bad t _ _ _ => some t.st.pos
  | .form t i =>
    if s.strm = .c ∧ i.spaces.contains .all then
      match exec i (t.modCtx t.cx fun x => { x with err := [] }) with
      | .next u => if [0x25, 0x26].contains (wd (u.ctx t.cx).err 0 / 2 ^ 56) then some t.st.pos else none
      | _ => none
    else none
  | .idle _ => none
/-- Of the streams given and the current one, that of the decode fault that R109 reports, if the current one has a fault and
another's comes before it. -/
def State.rival (s : State) (ms : List Stm) : Option Stm :=
  s.formFault.bind fun p =>
    let best := ms.foldl (fun (a : Stm × Pos) m => match ({ s with strm := m } : State).formFault with
      | some q => if earlier m a.1 q a.2 then (m, q) else a
      | none => a) (s.strm, p)
    if best.1 = s.strm then none else some best.1
/-- A stream's turn, in one core clock with turns of the streams given: of decode faults in that clock the one of the lowest
position counts (R109). -/
def State.clockTurn (s : State) (ms : List Stm) : Out :=
  match s.rival ms with
  | none => s.streamTurn
  | some m => ({ s with strm := m } : State).streamTurn

/-- The stream after another in the order C, A, V. -/
def Stm.succ : Stm → Stm
  | .c => .a | .a => .v | .v => .c

/-- With no turn scheduled the current stream goes on, or the next stream of its core while it waits. -/
def State.defaultTurn (s : State) : State := if s.st.blk = .run then s else { s with strm := Stm.succ s.strm }

/-- Whether an instruction is an event that a schedule may name. -/
def Instr.isEvent (i : Instr) : Bool := i.spaces.isEmpty && (match i with
  | .illegalEncoding .. => false
  | _ => true)

/-- The triggers that a turn of a stream, or a K-step, of core k would meet now (R363): what a halt would leave waiting. -/
def State.trigsOf (s : State) (k : Nat) (a : Act) : List Trig :=
  let t : State := s.modCtx (s.core k).res.ctx.val fun x => { x with halted := true }
  let met (u : Out) : List Trig := match u with
    | .next v => (v.core k).ptrig.drop (s.core k).ptrig.length
    | _ => []
  match a with
  | .stream j m =>
    if j = k && ({ s with cur := k, strm := m } : State).mayIssue false then
      match ({ t with cur := k, strm := m } : State).fetchForm true with
      | .form u i => met (exec i u)
      | _ => []
    else []
  | .event (.kStep j) => if j = k then met (Sys2Proof.Machine.execKStep k t) else []
  | _ => []
/-- The triggers of one core clock, where the act of core k meets one and another of the clock meets one too (R369). -/
def State.clash (s : State) (k : Nat) (a : Act) (as : List Act) : List Trig :=
  let mine := s.trigsOf k a
  if (s.ctx (s.core k).res.ctx.val).halted || mine.isEmpty then []
  else
    let all := mine ++ ((as.filter fun b => b != a).dedup).flatMap (s.trigsOf k)
    if all.length ≤ 1 then [] else all
/-- Whether nothing has been logged from one state to another. -/
def State.quietTo (s t : State) : Bool := t.bbnext == s.bbnext && t.bblost == s.bblost && decide (s.bblost < 2 ^ 32 - 1)
/-- The outcome of an act of core k that has been performed alone, unless another of its clock has met a trigger as it has:
triggers of one clock make one cancel (R369).  An act that has logged nothing has met none. -/
def State.together (s : State) (k : Nat) (a : Act) (as : List Act) (o : Out) : Out :=
  match o with
  | .next t => if s.quietTo t then .next t
    else if (s.clash k a as).isEmpty then .next t else .next (s.takeCounted k (s.clash k a as))
  | o => o
/-- One act, in one core clock with others. -/
def State.doAct (s : State) (a : Act) (as : List Act) : Out :=
  match a with
  | .stream k m =>
    let u : State := { s with cur := k, strm := m }
    u.together k a as (u.clockTurn (streamsOf k as))
  | .event i =>
    if Instr.isEvent i then match i with
      | .kStep k => s.together k a as (Sys2Proof.Machine.execKStep k s)
      | _ => exec i s
    else .next s
  | .dbg c k m => s.dbgTurn c.val k m
/-- The act of a clock that comes before `a`: one that adds to the semaphore that `a` waits on, for an increment comes before a
wait (R283). -/
def State.sooner (s : State) (a : Act) (as : List Act) : Option Act :=
  match s.waitsOn a with
  | none => none
  | some x =>
    let z := s.modCore x.1 fun c => { c with sem := c.sem.set x.2.1 0 }
    as.find? fun b => match z.doAct b [] with
      | .next u => (u.core x.1).sem[x.2.1] != 0
      | _ => false
/-- An act of the clock that the schedule has reached. -/
def State.clockAct (s : State) (a : Act) (as : List Act) : Out :=
  match s.sooner a as with
  | some b => ({ s with schedule := ⟨0, 0, a⟩ :: s.schedule.erase ⟨0, 0, b⟩ } : State).doAct b (as.erase b)
  | none => s.doAct a as

/-- One turn of the device; a hold-up sequence goes on meanwhile (R385), to its end where no turn is scheduled. -/
def State.turn (s : State) : Out :=
  match s.schedule with
  | [] =>
    if s.hold.isSome then .next s.holdEnd
    else s.defaultTurn.clockAct (.stream s.defaultTurn.cur s.defaultTurn.strm) ([Stm.c, .a, .v].map (.stream s.cur))
  | t :: r => ({ s.pass t.ns t.cc with schedule := r }.holdNow).meanwhile.clockAct t.act (clockActs r)

/-! ### The state in which a given form is the next to issue -/

/-- The lane tag of a space (R77). -/
def Space.tag : Space → Nat
  | .c => 1 | .a => 2 | .v => 3 | .all => 4

/-- A header that declares every register, 2 MiB of scratch, eight barriers, four grids and four maps (R10), with one
code line. -/
def probeHeader : List Word :=
  [0x57524C3101000000#64, w64 (2 ^ 40), 0,
   w64 (15 * 2 ^ 52 + 8 * 2 ^ 40 + 8 * 2 ^ 36 + 16 * 2 ^ 31 + 16 * 2 ^ 26 + 16 * 2 ^ 21),
   w64 (32 * 2 ^ 58 + 8 * 2 ^ 54 + 32 * 2 ^ 48 + 8 * 2 ^ 44 + 32 * 2 ^ 38 + 8 * 2 ^ 34 + 8 * 2 ^ 30),
   w64 (0x200000 * 2 ^ 40), 0, w64 (4 * 2 ^ 40 + 4 * 2 ^ 36)] ++
  List.replicate 40 0 ++ List.replicate 4 (w64 (2 ^ 62 + 32768 * 2 ^ 46)) ++ List.replicate 12 0

/-- The block that runs the probed form: its image stands at physical address 2^20. -/
def probeBlock : Resident :=
  { Resident.none with hdr := probeHeader, img := 2 ^ 20, trip := List.replicate 8 0 }

/-- A core that runs the probed block, its three streams at lane 1 of line 0. -/
def probeCore (c : Core) : Core :=
  let st : Stream := { Stream.init with pos := ⟨0, 1, 0⟩ }
  { c with
    inServ := true
    blk := some probeBlock
    r := { c.r with c := { c.r.c with pos := st.pos, begun := false, steer := [] }
                    a := { c.r.a with pos := st.pos, begun := false, steer := [] }
                    v := { c.r.v with pos := st.pos, begun := false, steer := [] } } }

/-- Store one line with a form of `lanes` lanes in lane 1. -/
def probeLine (sp : Space) (lanes w : Nat) : List Host.Cell :=
  let hdr := 8 + Space.tag sp * 16 + (if 2 ≤ lanes then 5 * 2 ^ 8 else 0) + (if 3 ≤ lanes then 5 * 2 ^ 12 else 0)
  cellsAt (2 ^ 20 + 512) (toBytes 4 hdr ++ toBytes 4 (w % 2 ^ 32) ++ toBytes 4 (w / 2 ^ 32 % 2 ^ 32) ++
    toBytes 4 (w / 2 ^ 64 % 2 ^ 32) ++ List.replicate 16 0)

/-- The state with a table word's form stored where the next step fetches: a block of context 0 runs on core 0, with
the form in lane 1 of its line 0, and the form's stream is the current one (notes/assumptions/1.md). -/
def State.placeForm (s : State) (w : Nat) : State :=
  let sp := match tableSpace w with
    | some x => x.1
    | none => .c
  let lanes := (laneCount sp (bits w 23 16)).getD 1
  { s with
    schedule := []
    cur := 0
    strm := sp.stm
    mem := Memory.setAll s.mem (probeLine sp lanes w)
    cores := mset s.cores 0 (probeCore (s.core 0))
    ctxs := mset s.ctxs 0 (s.ctx 0) }

end Sys2Proof.Machine
end

