-- ==== Sys2Proof/Machine/Step.lean ====
section
/-!
DEFINITION. Sys2Proof/Machine/Step.lean: one step of the device, and the state in which a given instruction is next.
-/
namespace Sys2Proof.Machine
open Sys2Proof

/-- One step: the next turn of the schedule, or the default turn. -/
def step (s : State) : Host.Outcome State Fault Refusal := s.turn

/-- `s` with an instruction word stored where the next step fetches and runs it. -/
def State.withFetchWord (s : State) (nbits w : Nat) : State := s.placeForm (w % 2 ^ nbits)

end Sys2Proof.Machine
end

