-- ==== Sys2Proof/WellFormed.lean ====
section
/-!
DEFINITION. Sys2Proof/WellFormed.lean: which terms of `Instr` are instructions of the device: a form stands in an opcode space
and its field values pass the checks of R99, R108 and the form's own rules; an event names cores, units and packets that
exist.
-/
namespace Sys2Proof

/-- A form is well formed in a space: the space's tables hold it and no check on its values refuses it. -/
def Instr.wfIn (i : Instr) (sp : Space) : Bool := i.spaces.contains sp && (i.fieldError sp.stm).isNone

/-- The checks on what an event names: a core below 128 (R69), the length of a window write (R39), a register write's
alignment (R5), a host write's data, a packet's source rank below 1,024, its
place in its message and its payload of at most 4,096 bytes (R336, R337). -/
def Instr.eventOk : Instr → Bool
  | .cardWindowWrite _ len _ => decide (0 < len)
  | .registerWrite off _ => decide (off % 8 = 0)
  | .hostLinkWrite _ data => !data.isEmpty
  | .revocationPhaseLimit k | .translationFaultAnswer k _ | .patchRequest k | .campionAnswer k | .tagPublication k
  | .blockRetirement k | .queueStarvation k | .matrixCommand k | .kStep k | .matrixRetirement k
  | .accumulatorWindowWrite k | .copyCommand k _ | .copyCompletion k _ | .poolUnitCommand k | .poolUnitCompletion k
  | .scatterUpdateCommand k | .rowCommit k | .scatterUpdateCompletion k | .teaselSegment k | .speedwellCommand k
  | .collectiveTimeout k _ | .speedwellCompletion k _ => decide (k < 128)
  | .armRequest _ (some k) => decide (k < 128)
  | .inboundPacket p => decide (p.src < 1024 ∧ p.frag < p.frags ∧ p.body.payload ≤ 4096)
  | _ => true

/-- A well-formed instruction: a form in one of its spaces, or an event. -/
def Instr.wf (i : Instr) : Bool := if i.spaces.isEmpty then i.eventOk else i.spaces.any i.wfIn

end Sys2Proof
end

