-- ==== Sys2Proof/Safety.lean ====
section
/-!
DEFINITION. Sys2Proof/Safety.lean: what counts as a sound state and a safe run, and the notions the statements share: a form
that is ready to issue, the state it leaves when it completes, and what a step leaves alone.
-/
namespace Sys2Proof.Machine
open Sys2Proof

/-! ### Sound states and safe runs -/

/-- Memory stands in its canonical form. -/
abbrev State.sound (s : State) : Prop := Memory.wf s.mem = true
/-- A run that never stops the model: every number of steps answers a next state. -/
def State.runsOn (s : State) : Prop := ∀ n, ∃ t, Host.Core.run Sys2Proof.core n s = .next t

/-! ### A form that is ready to issue, and its completion (R81, R86) -/

/-- The current stream's form may issue with its effects: it has not begun to issue, the tokens that WP and WN name are
there, the counters that PN and PP name have room, its guard holds, and it waits for no answer of Campion before it
pushes (R86, R286). -/
abbrev State.canIssue (s : State) (h : Head) : Prop :=
  s.st.acted = false ∧ s.st.popped = false ∧ canPop s.toks s.strm h = true ∧
    canPush (popTokens s.toks s.strm h) s.strm h = true ∧ s.guardB h.g = true ∧ s.unanswered h = false
/-- The same with a false guard. -/
abbrev State.canPass (s : State) (h : Head) : Prop :=
  s.st.acted = false ∧ s.st.popped = false ∧ canPop s.toks s.strm h = true ∧
    canPush (popTokens s.toks s.strm h) s.strm h = true ∧ s.guardB h.g = false ∧ s.unanswered h = false
/-- The tokens of WP and WN popped. -/
def State.takes (s : State) (h : Head) : State := s.popFor h
/-- The tokens of PN and PP pushed, the stream at its next lane. -/
def State.leaves (s : State) (h : Head) : State :=
  let t := s.setToks (pushTokens s.toks s.strm h)
  (if h.pn || h.pp then t.orderReads else t).advance
/-- A form that writes a scalar and ORs sticky flags completes. -/
def State.gives (s : State) (h : Head) (d : SIx) (v : Word) (f : Nat) : State :=
  (((s.takes h).setS d v).orFlags (BitVec.ofNat 8 f)).leaves h

/-! ### Compares (R147 Table 3): one lane of each destination, from guard, result and old value -/

def combinedD (ct : CT) (g r old : Bool) : Bool := match ct with
  | .normal => if g then r else old
  | .unc => g && r
  | .and | .andor => if g then old && r else old
  | .or | .orand => if g then old || r else old
def combinedE (ct : CT) (g r old : Bool) : Bool := match ct with
  | .normal => if g then !r else old
  | .unc => g && !r
  | .and | .orand => if g then old && !r else old
  | .or | .andor => if g then old || !r else old

/-! ### Vector forms (R97, R219, R220) -/

/-- A vector form may issue: the same as `canIssue` without its guard, no source popped yet. -/
abbrev State.canIssueV (s : State) (h : Head) : Prop :=
  s.st.acted = false ∧ s.st.popped = false ∧ canPop s.toks s.strm h = true ∧
    canPush (popTokens s.toks s.strm h) s.strm h = true ∧ s.st.opbuf = [] ∧ s.unanswered h = false
/-- The data of the sources of a vector form, queue elements popped in order. -/
def State.sources (s : State) : List VSrc → Option (List Vec × State)
  | [] => some ([], s)
  | x :: r => (s.popSrc x).bind fun e => (e.2.sources r).map fun q => (e.1.data :: q.1, q.2)
/-- What a vector destination holds once elements of width w are written in the active lanes: a register keeps its other
elements, an entry of q8 has zeros there and a mask of the bytes written, `z` takes nothing.  `u`: the state once the
sources are popped. -/
def State.wroteLanes (s u t : State) (d : VDst) (w n : Nat) (act : Nat → Bool) (f : Nat → Nat) : Prop :=
  match d with
  | .v k => (∀ e, e < n → elem w t.me.r.vr[k] e = if act e then f e % 2 ^ w else elem w s.me.r.vr[k] e) ∧
      (∀ j : Fin 16, j ≠ k → t.me.r.vr[j] = s.me.r.vr[j]) ∧ t.me.r.qv[4] = u.me.r.qv[4]
  | .q8 => (∃ q : QEntry, t.me.r.qv[4] = u.me.r.qv[4] ++ [q] ∧
      (∀ e, e < n → elem w q.data e = if act e then f e % 2 ^ w else 0) ∧
      (∀ b, b < 64 → q.mask.getLsbD b = (decide (8 * b / w < n) && act (8 * b / w)))) ∧ t.me.r.vr = s.me.r.vr
  | .z => t.me.r.vr = s.me.r.vr ∧ t.me.r.qv[4] = u.me.r.qv[4]
/-- The stream has left a form: its next lane, no wait, no source kept. -/
def State.wentOn (s t : State) : Prop :=
  t.st.pos = { s.st.pos with lane := s.st.pos.lane + 1 } ∧ t.st.blk = .run ∧ t.st.opbuf = []

/-! ### Frames -/

/-- Nothing but the current core differs. -/
def State.onlyCore (s t : State) : Prop :=
  t = { s with cores := t.cores } ∧ ∀ k, k ≠ s.cur → t.core k = s.core k
/-- Nothing of the current core but the registers of its streams differs. -/
def State.onlyRegs (s t : State) : Prop := s.onlyCore t ∧ t.me = { s.me with r := t.me.r }
/-- Nothing of those but the tokens and the issuing stream differs. -/
def State.onlyStream (s t : State) : Prop :=
  s.onlyRegs t ∧ t.me.r = ({ s.me.r with tok := t.me.r.tok } : Regs).setStr s.strm (t.me.r.str s.strm)
/-- The state with the core's waiting streams trying again, as every form that issues leaves them (R350). -/
def State.woken (s : State) : State := s.modMe Core.wake
/-- What the core's stores and its publications still to be performed make of a byte of memory. -/
def State.published (s : State) (a : Nat) : Byte := (s.me.ownStore a).getD (Memory.get s.mem a)
/-- Nothing holds back the core's stores and publications: no row of theirs is pinned (R303); they, memory and the ways
stand in canonical form. -/
abbrev State.mayPublish (s : State) : Prop :=
  (∀ c ∈ s.me.pend, s.rowsPinned [c.1] = false) ∧ (∀ e ∈ s.me.comm, ∀ c ∈ e.1, s.rowsPinned [c.1] = false) ∧
    Memory.wf s.mem = true ∧ risingFrom 0 s.ways = true ∧ risingFrom 0 s.me.pend = true ∧
    ∀ e ∈ s.me.comm, risingFrom 0 e.1 = true
/-- No fatal error of the context stands in its error record yet: the next one fills it (R349). -/
abbrev State.noError (s : State) (c : Nat) : Prop := wd (s.ctx c).err 0 = 0
/-- The byte of core k's scratchpad that a command reaches at an offset, under the parities it was pushed with (R207, R276). -/
def State.localByte (s : State) (k : Nat) (e : EView) (o : Nat) : Byte :=
  s.granByte (.scr k) (dblMap (s.core k).res.hdr e.par o)
/-- The keys of a core's sparse maps rise: its scratch granules, its accumulators and their snapshots, each inside its set, its
pending stores and its publications. -/
def Core.keysRise (c : Core) : Prop :=
  risingFrom 0 c.scr = true ∧ risingFrom 0 c.acc = true ∧ risingFrom 0 c.pend = true ∧ (∀ e ∈ c.comm, risingFrom 0 e.1 = true) ∧
    ∀ e ∈ c.snaps, risingFrom 0 e.2 = true ∧ ∀ x ∈ e.2, x.1 / 4096 = e.1.val
/-- The keys of the hot-row ways, of every core's maps and of the scratch and accumulators of every checkpoint rise. -/
def State.keysRise (s : State) : Prop :=
  risingFrom 0 s.ways = true ∧ (∀ e ∈ s.cores, e.2.keysRise) ∧
    ∀ e ∈ s.ctxs, ∀ k ∈ e.2.cks, risingFrom 0 k.2.scr = true ∧ risingFrom 0 k.2.acc = true
/-- Every byte of memory reads as before. -/
def State.sameMemory (s t : State) : Prop := ∀ a, Memory.get t.mem a = Memory.get s.mem a
/-- Every byte of memory outside a set of addresses reads as before. -/
def State.sameMemoryBut (s t : State) (as : List Nat) : Prop :=
  ∀ a, a ∉ as → Memory.get t.mem a = Memory.get s.mem a
/-- A stream's predicates, loop counters, limits and return stack are the same. -/
def Stream.sameControl (x y : Stream) : Prop :=
  y.p = x.p ∧ y.lc = x.lc ∧ y.llim = x.llim ∧ y.rstk = x.rstk ∧ y.skip = x.skip

/-! ### Integer results in the manual's terms (R141) -/

/-- An operation of the form's width on 64-bit operands: at width 32 on the low halves, the result sign-extended. -/
def atWidth (w : Bool) (f : (n : Nat) → BitVec n → BitVec n → BitVec n) (x y : Word) : Word :=
  if w then (f 32 (x.setWidth 32) (y.setWidth 32)).signExtend 64 else f 64 x y
/-- Flags of an operation of the form's width. -/
def flagsAt (w : Bool) (f : (n : Nat) → BitVec n → BitVec n → Nat) (x y : Word) : Nat :=
  if w then f 32 (x.setWidth 32) (y.setWidth 32) else f 64 x y
/-- High half of the signed and of the unsigned product. -/
def highS (n : Nat) (x y : BitVec n) : BitVec n := BitVec.ofInt n (x.toInt * y.toInt / 2 ^ n)
def highU (n : Nat) (x y : BitVec n) : BitVec n := BitVec.ofNat n (x.toNat * y.toNat / 2 ^ n)
/-- The quotient, all ones for a zero divisor. -/
def quotS (n : Nat) (x y : BitVec n) : BitVec n := if y = 0 then BitVec.allOnes n else x.sdiv y
def quotU (n : Nat) (x y : BitVec n) : BitVec n := if y = 0 then BitVec.allOnes n else x / y
/-- The remainder, the dividend for a zero divisor. -/
def remS (n : Nat) (x y : BitVec n) : BitVec n := if y = 0 then x else x.srem y
def remU (n : Nat) (x y : BitVec n) : BitVec n := if y = 0 then x else x % y
/-- ID for a zero divisor, IO for the one signed quotient that does not fit (R125, R141). -/
def divFlagsS (n : Nat) (x y : BitVec n) : Nat :=
  if y = 0 then fID else if x = BitVec.intMin n ∧ y = BitVec.allOnes n then fIO else 0
def divFlagsU (n : Nat) (_ y : BitVec n) : Nat := if y = 0 then fID else 0

/-! ### A request of the command processor (R404) -/

/-- The record at the head of the request ring holds w, whose reserved bits are clear, and nothing makes it wait. -/
abbrev State.asked (s : State) (w : List Word) : Prop :=
  s.down = false ∧ s.booted = true ∧ s.waitReq = [] ∧ s.rqhead % 2 ^ s.rqsize ≠ s.rqtail % 2 ^ s.rqsize ∧
    w = s.readReq (s.ringAddr s.rqhead) ∧ bits (wd w 0) 51 32 = 0 ∧ s.reqWaits [] w = false ∧ Memory.wf s.mem = true
/-- It is answered with a status and a value in words 6 and 7 of its record, and the ring goes on. -/
abbrev State.answered (s t : State) (w : List Word) (status value : Nat) : Prop :=
  t.rqhead = (s.rqhead + 1) % 2 ^ s.rqsize ∧
    t.peek (s.ringAddr s.rqhead + 48) 8 = status * 2 ^ 56 + value % 2 ^ 56 ∧
    t.peek (s.ringAddr s.rqhead + 56) 8 = 2 ^ 63 + wd w 0 % 2 ^ 32

end Sys2Proof.Machine

namespace Sys2Proof
open Sys2Proof.Machine

/-! ### Forms that stop at their guard (R86, R140, R220) -/

/-- The head of a form whose false guard suppresses every effect but its tokens' (R86, R140): the forms of the common space, of C's
and of A's that have a head, the compares apart, which R147 describes. -/
def Instr.plainHead : Instr → Option Head
  | .add h .. | .sub h .. | .mul h .. | .mulh h .. | .mulhn h .. | .div h .. | .divn h .. | .rem h .. | .remn h ..
  | .and h .. | .or h .. | .xor h .. | .shl h .. | .shr h .. | .sar h .. | .rotl h .. | .addi h .. | .muli h ..
  | .andi h .. | .ori h .. | .xori h .. | .shli h .. | .shri h .. | .sari h .. | .rotli h .. | .clz h .. | .ctz h ..
  | .popc h .. | .mov h .. | .flgclr h .. | .movi h .. | .movil h .. | .moviq h .. | .addil h .. | .min h ..
  | .max h .. | .minn h .. | .maxn h .. | .path h .. | .extr h .. | .insr h .. | .pand h .. | .por h .. | .pxor h ..
  | .pget h .. | .pput h .. | .qsend h .. | .qrecv h .. | .qtest h .. | .mfsr h .. | .mtsr h .. | .nop h ..
  | .brk h .. | .fadd h .. | .fsub h .. | .fmul h .. | .fdiv h .. | .fma h .. | .fmin h .. | .fmax h .. | .fsqrt h ..
  | .fcvt h .. | .fneg h .. | .fabs h .. | .trap h .. | .inj h .. | .xlate h .. | .probe h .. | .hloc h ..
  | .hmov h .. | .hsub h .. | .hget h .. | .tset h .. | .tget h .. | .ld h .. | .st h .. | .ldl h .. | .gtest h ..
  | .gset h .. | .amo h .. | .acas h .. | .copy h .. | .fill h .. | .gather h .. | .scatter h .. | .tring h ..
  | .ccancel h .. | .evpop h .. | .mfmt h .. | .mfmti h .. | .mmul h .. | .mzero h .. | .accld h .. | .accst h ..
  | .ringcfg h .. | .ringrel h .. | .ringq h .. | .bar h .. | .semsig h .. | .semwait h .. | .semrd h ..
  | .tagpub h .. | .tagpubP h .. | .tagtest h .. | .jpatch h .. | .jarm h .. | .jstat h .. | .pool h ..
  | .poolPop h .. | .hotqLook h .. | .hotqFill h .. | .hotqInv h .. | .hotqDrops h .. | .skqEst h .. | .skqClr h ..
  | .scupdSgd h .. | .scupdAdagrad h .. | .scupdAdam h .. | .nmrun h .. | .nmstat h .. | .ixwalk h ..
  | .ixwalkPop h .. | .a2aIdx h .. | .a2aVec h .. | .a2aPop h .. | .xredSum h .. | .xredMin h .. | .xredMax h ..
  | .xput h .. | .xabort h .. | .ldq h .. | .stq h .. | .qsplat h .. => some h
  | _ => none
/-- The head of a form of V's space that does nothing but move its tokens while no lane of its guard is active, and how many
lanes its guard has (R220): VPACK and VUNPK take their guard whole (R226), VCVT has the lanes of the wider type (R225). -/
def Instr.laneHead : Instr → Option (Head × Nat)
  | .vadd h _ _ _ ty .. | .vsub h _ _ _ ty .. | .vmul h _ _ _ ty .. | .vfma h _ _ _ _ ty .. | .vfms h _ _ _ _ ty ..
  | .vfnma h _ _ _ _ ty .. | .vdiv h _ _ _ ty .. | .vmin h _ _ _ ty | .vmax h _ _ _ ty | .vabs h _ _ ty ..
  | .vneg h _ _ ty .. | .vmulh h _ _ _ ty | .vand h _ _ _ ty | .vor h _ _ _ ty | .vxor h _ _ _ ty | .vandn h _ _ _ ty
  | .vshl h _ _ _ ty | .vshr h _ _ _ ty | .vsar h _ _ _ ty | .vsel h _ _ _ _ ty | .vmov h _ _ ty | .vsplat h _ _ ty
  | .vsplati h _ _ ty | .vrsum h _ _ ty .. | .vrmax h _ _ ty | .vrmin h _ _ ty | .vramax h _ _ ty | .vshuf h _ _ _ ty
  | .vperm h _ _ _ _ ty | .vrot h _ _ ty .. | .vclass h _ _ ty | .vscale h _ _ _ ty .. | .vrint h _ _ ty ..
  | .vsgn h _ _ _ ty | .vclz h _ _ ty | .vpopc h _ _ ty | .vrsumsq h _ _ ty .. | .vaccwr h _ _ _ _ ty ..
  | .vclamp h _ _ _ _ ty | .viota h _ ty | .vabd h _ _ _ ty .. => some (h, ty.lanes)
  | .vrcp h .. | .vrsq h .. | .vsqrt h .. | .vexp2 h .. | .vlog2 h .. => some (h, Ty.lanes .f32)
  | .vcvt h _ _ ty tz .. => some (h, 512 / Nat.max ty.width tz.width)
  | .vpack h .. | .vunpk h .. => some (h, 1)
  | .vaccrd h _ _ _ _ _ tz .. => some (h, tz.lanes)
  | _ => none

end Sys2Proof
end

