-- ==== Sys2Proof/Certificates/Slice0/Obligations.lean ====
section
/-!
DEFINITION. Sys2Proof/Certificates/Slice0/Obligations.lean: the statements for the provers.  Each docstring names the rules a
statement rests on; OBLIGATIONS.json lists them.
-/
open Sys2Proof Sys2Proof.Machine

/-! ### Integer and bit-field forms (R141 to R145) -/

/-- R141: the sixteen register forms, at width 64 and 32, write their result and OR their flags, and nothing else but
the form's tokens and position changes. -/
def Obligations.IntegerRegisterFormsComplete : Prop :=
  ∀ (s : State) (h : Head) (d a b : SIx) (w : Bool), s.canIssue h →
    let r (f : (n : Nat) → BitVec n → BitVec n → BitVec n) (g : (n : Nat) → BitVec n → BitVec n → Nat) : Out :=
      .next (s.gives h d (atWidth w f (s.sr a) (s.sr b)) (flagsAt w g (s.sr a) (s.sr b)))
    let n0 : (n : Nat) → BitVec n → BitVec n → Nat := fun _ _ _ => 0
    exec (.add h d a b w) s = r (fun _ x y => x + y) n0 ∧
    exec (.sub h d a b w) s = r (fun _ x y => x - y) n0 ∧
    exec (.mul h d a b w) s = r (fun _ x y => x * y) n0 ∧
    exec (.mulh h d a b w) s = r highS n0 ∧
    exec (.mulhn h d a b w) s = r highU n0 ∧
    exec (.div h d a b w) s = r quotS divFlagsS ∧
    exec (.divn h d a b w) s = r quotU divFlagsU ∧
    exec (.rem h d a b w) s = r remS divFlagsS ∧
    exec (.remn h d a b w) s = r remU divFlagsU ∧
    exec (.and h d a b w) s = r (fun _ x y => x &&& y) n0 ∧
    exec (.or h d a b w) s = r (fun _ x y => x ||| y) n0 ∧
    exec (.xor h d a b w) s = r (fun _ x y => x ^^^ y) n0 ∧
    exec (.shl h d a b w) s = r (fun n x y => x <<< (y.toNat % n)) n0 ∧
    exec (.shr h d a b w) s = r (fun n x y => x >>> (y.toNat % n)) n0 ∧
    exec (.sar h d a b w) s = r (fun n x y => x.sshiftRight (y.toNat % n)) n0 ∧
    exec (.rotl h d a b w) s = r (fun n x y => x.rotateLeft (y.toNat % n)) n0

/-- R142: the immediate forms compute their register counterparts at width 64 on the extended immediate. -/
def Obligations.IntegerImmediateFormsComplete : Prop :=
  ∀ (s : State) (h : Head) (d a : SIx) (i : BitVec 6), s.canIssue h →
    let r (v : Word) : Out := .next (s.gives h d v 0)
    let x := s.sr a
    exec (.addi h d a i) s = r (x + i.signExtend 64) ∧
    exec (.muli h d a i) s = r (x * i.signExtend 64) ∧
    exec (.andi h d a i) s = r (x &&& i.signExtend 64) ∧
    exec (.ori h d a i) s = r (x ||| i.signExtend 64) ∧
    exec (.xori h d a i) s = r (x ^^^ i.signExtend 64) ∧
    exec (.shli h d a i) s = r (x <<< i.toNat) ∧
    exec (.shri h d a i) s = r (x >>> i.toNat) ∧
    exec (.sari h d a i) s = r (x.sshiftRight i.toNat) ∧
    exec (.rotli h d a i) s = r (x.rotateLeft i.toNat)

/-- R143: the move forms, and ADDIL. R141: the smaller or larger of two operands. R144, R99: the bit-field forms, where the field
lies inside the register and the path code is one of 0 to 5; bit by bit. R145: FLGCLR clears exactly the flags its code names. -/
def Obligations.MoveAndBitFieldFormsComplete : Prop :=
  (∀ (s : State) (h : Head) (d a b : SIx) (i : BitVec 11) (l : BitVec 32) (q : BitVec 64), s.canIssue h →
    let r (v : Word) : Out := .next (s.gives h d v 0)
    let x := s.sr a
    let y := s.sr b
    exec (.mov h d a) s = r x ∧
    exec (.movi h d i) s = r (i.signExtend 64) ∧
    exec (.movil h d l) s = r (l.signExtend 64) ∧
    exec (.moviq h d q) s = r q ∧
    exec (.addil h d a l) s = r (x + l.signExtend 64) ∧
    exec (.min h d a b) s = r (if x.toInt ≤ y.toInt then x else y) ∧
    exec (.max h d a b) s = r (if x.toInt ≤ y.toInt then y else x) ∧
    exec (.minn h d a b) s = r (if x.toNat ≤ y.toNat then x else y) ∧
    exec (.maxn h d a b) s = r (if x.toNat ≤ y.toNat then y else x)) ∧
  (∀ (s : State) (h : Head) (d a : SIx) (n p l : BitVec 6) (sg : Bool) (c : BitVec 8), s.canIssue h → n.toNat ≤ 5 →
    let len := if l = 0 then 64 else l.toNat
    p.toNat + len ≤ 64 →
    let x := s.sr a
    (∃ v, exec (.clz h d a) s = .next (s.gives h d v 0) ∧ v.toNat ≤ 64 ∧ (∀ k : Nat, 64 - v.toNat ≤ k → x.getLsbD k = false) ∧
      (v.toNat < 64 → x.getLsbD (63 - v.toNat) = true)) ∧
    (∃ v, exec (.ctz h d a) s = .next (s.gives h d v 0) ∧ v.toNat ≤ 64 ∧ (∀ k : Nat, k < v.toNat → x.getLsbD k = false) ∧
      (v.toNat < 64 → x.getLsbD v.toNat = true)) ∧
    (∃ v, exec (.popc h d a) s = .next (s.gives h d v 0) ∧
      v.toNat = ((List.range 64).filter fun k => x.getLsbD k).length) ∧
    (∃ v, exec (.path h d a n) s = .next (s.gives h d v 0) ∧ v.toNat / 2 ^ 60 = n.toNat ∧
      ∀ k : Nat, k < 60 → v.getLsbD k = x.getLsbD k) ∧
    (∃ v, exec (.extr h d a p l sg) s = .next (s.gives h d v 0) ∧
      ∀ k : Nat, k < 64 → v.getLsbD k =
        if k < len then x.getLsbD (p.toNat + k) else sg && x.getLsbD (p.toNat + len - 1)) ∧
    (∃ v, exec (.insr h d a p l) s = .next (s.gives h d v 0) ∧
      ∀ k : Nat, k < 64 → v.getLsbD k =
        if p.toNat ≤ k ∧ k < p.toNat + len then x.getLsbD (k - p.toNat) else (s.sr d).getLsbD k) ∧
    exec (.flgclr h c) s = .next (((s.takes h).modSt fun y => { y with tflags := y.tflags &&& ~~~c }).leaves h))

/-- R146, R147, R151: a compare writes r and its complement under CT, p0 unwritten; an FCMP of a signalling NaN ORs
IV. The result r is the relation the condition code names. -/
def Obligations.ComparesComplete : Prop :=
  ∀ (s : State) (h : Head) (pd pe : PIx) (ct : CT) (cc : CC) (a b : SIx) (i : BitVec 27) (n : BitVec 6), s.canIssue h →
    let rel (x y : Word) : Bool := match cc with
      | .eq => x == y | .ne => x != y
      | .lt => decide (x.toInt < y.toInt) | .ge => decide (y.toInt ≤ x.toInt)
      | .le => decide (x.toInt ≤ y.toInt) | .gt => decide (y.toInt < x.toInt)
      | .ltn => decide (x.toNat < y.toNat) | .gen => decide (y.toNat ≤ x.toNat)
      | .len => decide (x.toNat ≤ y.toNat) | .gtn => decide (y.toNat < x.toNat)
    let out (r : Bool) (f : Nat) : Out :=
      .next ((((s.takes h).setCmp ct (maskOf true) (maskOf r) pd pe).orFlags (BitVec.ofNat 8 f)).leaves h)
    let x := s.f32 a
    let y := s.f32 b
    exec (.cmp h pd pe ct cc a (.reg b)) s = out (rel (s.sr a) (s.sr b)) 0 ∧
    exec (.cmp h pd pe ct cc a (.imm i)) s = out (rel (s.sr a) (i.signExtend 64)) 0 ∧
    exec (.tbit h pd pe ct .eq a n) s = out ((s.sr a).getLsbD n.toNat) 0 ∧
    exec (.tbit h pd pe ct .ne a n) s = out (!(s.sr a).getLsbD n.toNat) 0 ∧
    exec (.fcmp h pd pe ct cc a b) s = out (ccFloat cc x y) (if x.sig || y.sig then fIV else 0)

/-- R147 Table 3 and R135: what a compare's destinations hold afterwards, for every combining type, guard and result,
in each lane of the mask; p0 stays true. -/
def Obligations.CombiningTypesAsTabled : Prop :=
  ∀ (s : State) (ct : CT) (g r : Word) (pd pe : PIx) (k : Fin 64), (pd = pe → pd = 0) →
    let t := s.setCmp ct g r pd pe
    let od := (s.st.pm pd).getLsbD k
    let oe := (s.st.pm pe).getLsbD k
    let gk := g.getLsbD k
    let rk := r.getLsbD k
    (pd ≠ 0 → (t.st.pm pd).getLsbD k = combinedD ct gk rk od) ∧
    (pe ≠ 0 → (t.st.pm pe).getLsbD k = combinedE ct gk rk oe) ∧
    (∀ q : PIx, q ≠ pd → q ≠ pe → t.st.pm q = s.st.pm q) ∧ t.st.pm 0 = BitVec.allOnes 64

/-- R148: predicate logic bit by bit, PGET and PPUT between predicates and a scalar; p0 stays true. -/
def Obligations.PredicateFormsComplete : Prop :=
  ∀ (s : State) (h : Head) (pd pa pb : PIx) (na nb : Bool) (d a : SIx), s.canIssue h →
    let x := s.st.pm pa ^^^ maskOf na
    let y := s.st.pm pb ^^^ maskOf nb
    let out (v : Word) : Out := .next (((s.takes h).modSt fun z => z.setP pd v).leaves h)
    exec (.pand h pd pa pb na nb) s = out (x &&& y) ∧
    exec (.por h pd pa pb na nb) s = out (x ||| y) ∧
    exec (.pxor h pd pa pb na nb) s = out (x ^^^ y) ∧
    (∃ v, exec (.pget h d) s = .next (s.gives h d v 0) ∧
      ∀ k : Nat, k < 64 → v.getLsbD k = if k < 8 then s.st.pb (Fin.ofNat 8 k) else false) ∧
    (∃ t, exec (.pput h a) s = .next t ∧ t.st.s = s.st.s ∧ t.st.pm 0 = BitVec.allOnes 64 ∧
      ∀ k : PIx, k ≠ 0 → t.st.pm k = maskOf ((s.sr a).getLsbD k.val))

/-- R152, R89: QSEND appends to its queue while fewer than 16 elements stand there, QRECV takes the oldest, QTEST
reports without waiting, zero above bit 7. R89, R152: a QSEND to a full queue and a QRECV from an empty one wait, with
no effect but their popped tokens.
Rests also on the model's own readings in notes/assumptions, entry 6. -/
def Obligations.QueueFormsComplete : Prop :=
  (∀ (s : State) (h : Head) (a d : SIx) (q : Fin 32), s.canIssue h →
    ((Instr.qsend h a q).fieldError s.strm = none → (s.sq q).length < 16 →
      exec (.qsend h a q) s = .next (((s.takes h).setSq q (s.sq q ++ [s.sr a])).orderReads.leaves h)) ∧
    ((Instr.qrecv h d q).fieldError s.strm = none → ∀ x r, s.sq q = x :: r →
      exec (.qrecv h d q) s = .next ((((s.takes h).setSq q r).setS d x).orderReads.leaves h)) ∧
    exec (.qtest h d q) s =
      .next (s.gives h d (w64 (if qReads s.strm q then s.me.qlen q else qDepth q - s.me.qlen q)) 0)) ∧
  (∀ (s : State) (h : Head) (a d : SIx) (q : Fin 32) (i : Instr), s.canIssue h →
    (i = .qsend h a q ∧ (s.sq q).length = 16) ∨ (i = .qrecv h d q ∧ s.sq q = []) →
    ∃ t, exec i s = .next t ∧ t.st.blk = .loose ∧ t.st.pos = s.st.pos ∧ t.st.s = s.st.s ∧ t.st.popped = true ∧
      t.toks = popTokens s.toks s.strm h ∧ (∀ k, t.sq k = s.sq k) ∧ s.sameMemory t)

/-- R138, R137, R82: MFSR reads the special register it names; MTSR writes WIN, held between 1 and 1,024; R161: NOP
does nothing; BRK halts the context where the debugger's enable is set and does nothing else. R36, R72, R82, R87, R137: what MFSR
of LC, LLIM, TRIP, FRAME, JARG, JCARD, JBLOCK, TFLAGS, WIN, TKCNT (once the form's own tokens are popped), LSEQ, PRIO, TRAPINFO,
SVCMODE, RSDEPTH and COREID gives, field by field. -/
def Obligations.SpecialRegisterFormsComplete : Prop :=
  (∀ (s : State) (h : Head) (d : SIx), s.canIssue h →
    let reads (r : Spr) (v : Word) : Prop := exec (.mfsr h d r) s = .next (s.gives h d v 0)
    let holds (r : Spr) (p : Nat → Prop) : Prop := ∃ v : Word, reads r v ∧ p v.toNat
    let k := popTokens s.toks s.strm h
    (∀ n : Fin 8, reads (.lc n) ((s.st.lc[n]).setWidth 64) ∧ reads (.llim n) ((s.st.llim[n]).setWidth 64) ∧
      ∀ x, s.res.trip[n.val]? = some x → reads (.trip n) (x.setWidth 64)) ∧
    (∀ (n : Fin 4) x, s.res.jarg[n.val]? = some x → reads (.jarg n) x) ∧ reads .frame s.res.frame ∧
    reads .tflags (s.st.tflags.setWidth 64) ∧ reads .trapinfo (s.me.trapinfo.setWidth 64) ∧
    holds .prio (fun v => v = s.res.prio % 64) ∧ holds .svcmode (fun v => v = if (s.ctx s.cx).svc then 1 else 0) ∧
    (s.res.card < 4096 → holds .jcard fun v => v = s.res.card) ∧ (s.res.block < 2 ^ 24 → holds .jblock fun v => v = s.res.block) ∧
    (s.me.r.win ≤ 1024 → holds .win fun v => v = s.me.r.win) ∧ (s.st.pos.lseq < 2 ^ 64 → holds .lseq fun v => v = s.st.pos.lseq) ∧
    (s.st.rstk.length ≤ 16 → holds .rsdepth fun v => v = s.st.rstk.length) ∧
    (k.ca < 16 → k.av < 16 → k.vc < 16 → k.ac < 16 → k.va < 16 → k.cv < 16 → holds .tkcnt fun v =>
      bits v 3 0 = k.ca ∧ bits v 7 4 = k.av ∧ bits v 11 8 = k.vc ∧ bits v 15 12 = k.ac ∧ bits v 19 16 = k.va ∧
        bits v 23 20 = k.cv ∧ v < 2 ^ 24) ∧
    (s.cur < 128 → s.me.phys < 256 → holds .coreid fun v =>
      bits v 5 0 = s.cur % 64 ∧ bits v 6 6 = 0 ∧ bits v 7 7 = s.cur / 64 ∧ bits v 15 8 = s.me.phys ∧ v < 2 ^ 16)) ∧
  ∀ (s : State) (h : Head) (d a : SIx) (r : Spr) (c : BitVec 8), s.canIssue h →
    exec (.mfsr h d r) s = .next (s.gives h d ((s.takes h).spr r) 0) ∧
    exec (.mtsr h a .win) s =
      .next (((s.takes h).modRegs fun x => { x with win := Nat.max 1 (Nat.min 1024 (s.sr a).toNat) }).leaves h) ∧
    exec (.nop h) s = .next ((s.takes h).leaves h) ∧
    ((s.ctx s.cx).brken = false → exec (.brk h c) s = .next ((s.takes h).leaves h)) ∧
    ((s.ctx s.cx).brken = true → (s.ctx s.cx).halted = false →
      ∃ t, exec (.brk h c) s = .next t ∧ (t.ctx s.cx).halted = true ∧ t.st.pos = { s.st.pos with lane := s.st.pos.lane + 1 } ∧
        s.sameMemory t)

/-! ### Scalar FP32, traps, injection (R149 to R151, R159, R162) -/

/-- R149, R150, R123, R124: each scalar floating form writes the once-rounded value of its operation on the F32 values
of its operands and ORs the flags of rounding and of the operation. -/
def Obligations.ScalarFloatFormsComplete : Prop :=
  ∀ (s : State) (h : Head) (d a b c : SIx) (ty tz : Ty) (rm : RM) (sat : Bool), s.canIssue h →
    let x := s.f32 a
    let y := s.f32 b
    let rounded (v : Val × Nat) : Out :=
      .next (s.gives h d (w64 (roundTo .f32 v.1 rm sat).1) ((roundTo .f32 v.1 rm sat).2 ||| v.2))
    exec (.fadd h d a b rm sat) s = rounded (x.add y rm) ∧
    exec (.fsub h d a b rm sat) s = rounded (x.add y.negate rm) ∧
    exec (.fmul h d a b rm sat) s = rounded (x.mul y) ∧
    exec (.fdiv h d a b rm sat) s = rounded (x.div y) ∧
    exec (.fma h d a b c rm sat) s = rounded (x.fma y (s.f32 c) rm) ∧
    exec (.fsqrt h d a rm sat) s = rounded x.sqrt ∧
    exec (.fmin h d a b) s = .next (s.gives h d (w64 (minMaxF .f32 false ((s.sr a).toNat % 2 ^ 32) ((s.sr b).toNat % 2 ^ 32)).1)
      (minMaxF .f32 false ((s.sr a).toNat % 2 ^ 32) ((s.sr b).toNat % 2 ^ 32)).2) ∧
    exec (.fmax h d a b) s = .next (s.gives h d (w64 (minMaxF .f32 true ((s.sr a).toNat % 2 ^ 32) ((s.sr b).toNat % 2 ^ 32)).1)
      (minMaxF .f32 true ((s.sr a).toNat % 2 ^ 32) ((s.sr b).toNat % 2 ^ 32)).2) ∧
    exec (.fcvt h d a ty tz rm sat) s =
      .next (s.gives h d (fcvt ty tz (s.sr a) rm sat).1 (fcvt ty tz (s.sr a) rm sat).2) ∧
    (∃ v, exec (.fneg h d a) s = .next (s.gives h d v 0) ∧ ∀ k : Nat, k < 64 → v.getLsbD k =
      if k < 31 then (s.sr a).getLsbD k else if k = 31 then !(s.sr a).getLsbD 31 else false) ∧
    (∃ v, exec (.fabs h d a) s = .next (s.gives h d v 0) ∧ ∀ k : Nat, k < 64 → v.getLsbD k =
      if k < 31 then (s.sr a).getLsbD k else false)

/-- R159: TRAP records its code while none is pending, and leaves a pending one alone. R162: outside service mode INJ
writes 1 and does nothing else; in service mode it writes 0 and queues the flip, poisons the granule, or arms the
shadow mismatch.
Rests also on the model's own readings in notes/assumptions, entry 41. -/
def Obligations.TrapAndInjectionComplete : Prop :=
  (∀ (s : State) (h : Head) (c : BitVec 8), s.canIssue h →
    ∃ t, exec (.trap h c) s = .next t ∧
      t.me.trapinfo = (if s.me.trapinfo.getLsbD 8 then s.me.trapinfo else 1#1 ++ c) ∧
      t.st.pos = { s.st.pos with lane := s.st.pos.lane + 1 } ∧ t.st.s = s.st.s ∧ t.st.tflags = s.st.tflags ∧ s.sameMemory t) ∧
  (∀ (s : State) (h : Head) (d a : SIx) (k : InjKind), s.canIssue h →
    ((s.ctx s.cx).svc = false → exec (.inj h d a k) s = .next (s.gives h d 1 0)) ∧
    ((s.ctx s.cx).svc = true →
      (k = .shadowMismatch → ∃ t, exec (.inj h d a k) s = .next t ∧ t.sr d = 0 ∧ t.me.injArm = true) ∧
      (k = .scratchPoison → (s.sr a).toNat < scrbytes s.res.hdr → ∃ t, exec (.inj h d a k) s = .next t ∧ t.sr d = 0 ∧
        (t.gran (.scr s.cur) (s.scrOff s.cur false (s.sr a).toNat / 16)).pois = true) ∧
      (∀ acc row col bit, k = .accBit acc row col bit → s.me.q11.length + b2n s.me.mx.isSome < 16 → s.me.injArm = false →
        ∃ t x, exec (.inj h d a k) s = .next t ∧ t.sr d = 0 ∧ t.me.q11 = s.me.q11 ++ [x] ∧ x.op = .flip ∧ x.set = acc ∧
          x.row = row.val ∧ x.col = col.val ∧ x.bit = bit.val)))

/-! ### Handles and shape records (R174, R175, R189 to R192) -/

/-- R174: XLATE of an address that a valid extent maps, not under revocation and not lapsed, on a path its tier allows, whose bytes
lie inside the extent, writes a handle with that extent's fields, BASE the address and LEN the length, or the rest of the extent
for length 0. R174, R176: XLATE of an unmapped address outside a quiet point stops the context with code 0x10; inside one it
waits, unperformed, and holds the fault for the driver. R175: PROBE of a mapped address writes the probe word and translates
nothing. R189 to R192: HLOC, HMOV, HSUB and TSET write a new version of their destination stamped with C's position; HGET and
TGET write the field they name. R191: HLOC of bytes inside SCRBYTES, or inside the elastic grant with path 1, makes a valid
handle of them. R90 keeps four versions of a register; that the content at block start counts as none of them, so that a fourth
fits, is the model's choice: notes/assumptions, entry 46.
Rests also on the model's own readings in notes/assumptions, entries 6 and 14. -/
def Obligations.TranslationAndHandleFormsComplete : Prop :=
  (∀ (s : State) (h : Head) (hd : HIx) (a b : SIx) (e : Nat × Extent), s.canIssue h →
    let v := (s.sr a).toNat % 2 ^ 60
    let path := (s.sr a).toNat / 2 ^ 60
    let len := if (s.sr b).toNat = 0 then xTop e.2 - v else (s.sr b).toNat
    (s.ctx s.cx).findExt v = some e → xRvk e.2 = false → s.lapsed s.cx e.2 = false →
    pathAllowed path (xTier e.2) = true → v + len ≤ xTop e.2 → e.1 < 16384 →
    (pruneVersions s.me.r.a.pos s.me.r.v.pos s.me.r.h[hd]).length < 4 →
    ∃ t x, exec (.xlate h hd a b) s = .next t ∧
      t.me.r.h[hd] = (s.me.r.c.pos.lseq, s.me.r.c.pos.lane, x) :: pruneVersions s.me.r.a.pos s.me.r.v.pos s.me.r.h[hd] ∧
      hValid x = true ∧ hKind x = 0 ∧ hPath x = path ∧ hTier x = xTier e.2 ∧ hLog x = xLog e.2 ∧ hAtc x = xAtc e.2 ∧
      hRo x = xRo e.2 ∧ hExt x = e.1 ∧ hPerm x = xPerm e.2 ∧ hFrame x = xFrame e.2 ∧ hBase x = (s.sr a).toNat ∧ hLen x = len) ∧
  (∀ (s : State) (h : Head) (hd : HIx) (a b : SIx), s.canIssue h →
    (s.ctx s.cx).findExt ((s.sr a).toNat % 2 ^ 60) = none → s.res.card < 4096 → s.res.block < 2 ^ 24 → s.noError s.cx →
    (s.me.quietPt = false → (s.ctx s.cx).stopped = false → ∃ t, exec (.xlate h hd a b) s = .next t ∧
      (t.ctx s.cx).stopped = true ∧ ((t.ctx s.cx).err.getD 0 0).toNat / 2 ^ 56 = 0x10) ∧
    (s.me.quietPt = true → ∃ t, exec (.xlate h hd a b) s = .next t ∧ t.me.tfault = some (0x10, 0, (s.sr a).toNat) ∧
      t.st.pos = s.st.pos ∧ t.me.r.h = s.me.r.h)) ∧
  (∀ (s : State) (h : Head) (d a : SIx) (e : Nat × Extent), s.canIssue h →
    (s.ctx s.cx).findExt ((s.sr a).toNat % 2 ^ 60) = some e → xRvk e.2 = false → s.lapsed s.cx e.2 = false →
    exec (.probe h d a) s = .next (s.gives h d (probeWord e.1 e.2 (s.sr a).toNat) 0)) ∧
  (∀ (s : State) (h : Head) (hd hs : HIx) (td : TIx) (d a b : SIx) (f : HField) (g : TField) (imm : BitVec 64),
    s.canIssue h → s.strm = .c →
    let room := (pruneVersions s.me.r.a.pos s.me.r.v.pos s.me.r.h[hd]).length < 4
    let wrote (i : Instr) (x : Handle) : Prop := ∃ t, exec i s = .next t ∧
      t.me.r.h[hd] = (s.me.r.c.pos.lseq, s.me.r.c.pos.lane, x) :: pruneVersions s.me.r.a.pos s.me.r.v.pos s.me.r.h[hd] ∧
      (∀ k, k ≠ hd → t.me.r.h[k] = s.me.r.h[k]) ∧ t.st.s = s.st.s ∧ s.sameMemory t
    (room → ∀ x, hloc (scrbytes s.res.hdr) s.res.llc (s.sr a).toNat (s.sr b).toNat = .ok x → wrote (.hloc h hd a b) x) ∧
    (room → wrote (.hmov h hd hs) (s.newH hs)) ∧
    (room → ∀ x, hsub (s.newH hs) (s.newT td) (s.sr a).toNat (s.sr b).toNat = .ok x → wrote (.hsub h hd hs td a b) x) ∧
    exec (.hget h d hs f) s = .next (s.gives h d (w64 (hget (s.newH hs) f)) 0) ∧
    exec (.tget h d td g) s = .next (s.gives h d (w64 (tget (s.newT td) g)) 0) ∧
    ((pruneVersions s.me.r.a.pos s.me.r.v.pos s.me.r.t[td]).length < 4 → ∃ t, exec (.tset h td imm) s = .next t ∧
      t.me.r.t[td] = (s.me.r.c.pos.lseq, s.me.r.c.pos.lane, imm) :: pruneVersions s.me.r.a.pos s.me.r.v.pos s.me.r.t[td])) ∧
  (∀ (scr llc a len : Nat), a < 2 ^ 60 → scr ≤ 2 ^ 21 → llc ≤ 2 ^ 30 →
    (0 < len → a + len ≤ scr → ∃ x, hloc scr llc a len = .ok x ∧ hValid x = true ∧ hKind x = 1 ∧ hBase x = a ∧ hLen x = len) ∧
    (a < scr → ∃ x, hloc scr llc a 0 = .ok x ∧ hValid x = true ∧ hKind x = 1 ∧ hBase x = a ∧ hLen x = scr - a) ∧
    (0 < len → a + len ≤ llc → ∃ x, hloc scr llc (2 ^ 60 + a) len = .ok x ∧ hKind x = 2 ∧ hBase x = a ∧ hLen x = len) ∧
    (scr < a + len → hloc scr llc a len = .error undeclared) ∧
    (hloc scr llc (2 * 2 ^ 60 + a) len = .error accBounds))

/-! ### Scalar access and atomics (R196 to R201) -/

/-- R198, R197: LD and LDL with a valid, permitted, aligned access inside the handle that meets no poisoned data, and
for a full/empty code a full granule, write the loaded bytes extended by their type; a clearing load empties the
granule. R363 to R365, R368: an LD that meets a poisoned granule of scratch in a phase that has not committed, as the first or
second trigger at its PHASECNT, cancels the phase: nothing of its form takes place, the streams, their queues, tokens, handles and
shape records stand as the phase record has them, the phase's pending stores and the commands it queued are gone, each semaphore
is rolled back, PHASECNT and memory stay.
Rests also on the model's own readings in notes/assumptions, entries 3 and 38. -/
def Obligations.LoadsComplete : Prop :=
  ∀ (s : State) (h : Head) (hs : HIx) (d b : SIx) (ty : Ty) (fe : Fe) (disp : BitVec 21) (x : Handle), s.canIssue h →
    let u := s.takes h
    let a := scalarAddr x (s.sr b) disp
    let g := hTgt s.cur x a
    let r := u.readTgt s.cur g false (if fe = .plain then .plain else .full) (ty.width / 8)
    let l := u.readTgt s.cur g false .late (ty.width / 8)
    u.readH hs = some x → ty.isX = true →
    (u.scalarCheck x a (ty.width / 8) true false (fe != .plain) = none → (fe ≠ .plain → (u.granBits g).1 = true) →
      r.pois = false → r.unc = false →
      exec (.ld h hs d b ty fe disp) s =
        .next (((if fe = .two then r.s.setGranFull g false else r.s).setS d (loadValue ty (ofBytes r.data))).leaves h)) ∧
    (u.scalarCheck x a (ty.width / 8) true false false = none → l.pois = false → l.unc = false →
      exec (.ldl h hs d b ty disp) s = .next ((l.s.setS d (loadValue ty (ofBytes l.data))).leaves h)) ∧
    (u.scalarCheck x a (ty.width / 8) true false false = none → fe = .plain → (∃ o, g = .loc s.cur o) → r.pois = true →
      (s.ctx s.cx).halted = false → s.me.early = false → s.me.trigs < 2 →
      ∃ t, exec (.ld h hs d b ty fe disp) s = .next t ∧ s.sameMemory t ∧ t.me.pend = [] ∧ t.me.comm = [] ∧
        t.me.phasecnt = s.me.phasecnt ∧ t.me.trigs = s.me.trigs + 1 ∧ t.me.pubs = [] ∧
        (∀ m, let v := t.me.str m
          let w := s.me.prec.regs.str m
          v.pos = w.pos ∧ v.s = w.s ∧ v.p = w.p ∧ v.lc = w.lc ∧ v.llim = w.llim ∧ v.rstk = w.rstk ∧ v.tflags = w.tflags) ∧
        (let y := t.me.r
         let z := s.me.prec.regs
         y.tok = z.tok ∧ y.win = z.win ∧ y.qs = z.qs ∧ y.qv = z.qv ∧ y.vr = z.vr ∧ y.h = z.h ∧ y.t = z.t ∧ y.par = z.par) ∧
        (∀ n : Fin 16, t.me.sem[n] =
          min (s.me.sem[n] + s.me.semDec[n] - min s.me.semInc[n] (s.me.sem[n] + s.me.semDec[n])) 65535) ∧
        (∀ y ∈ t.me.q11, y.ph ≠ s.me.ph) ∧ (∀ y ∈ t.me.q16, y.ph ≠ s.me.ph) ∧ (∀ y ∈ t.me.q18, y.ph ≠ s.me.ph) ∧
        (∀ y ∈ t.me.q19, y.ph ≠ s.me.ph) ∧ (∀ y ∈ t.me.q20, y.ph ≠ s.me.ph) ∧ ∀ y ∈ t.me.q22, y.ph ≠ s.me.ph)

/-- R263, R265, R198: on path 1 a load from memory that no store of the core covers, and that no write has reached since the
last point that orders the stream's reads, gives the newest bytes, lowest address least significant, sign-extended for a
signed type and zero-extended for an unsigned one. R199, R264: a store
to memory changes no byte at a point of coherence unless it needs a 4,097th granule; its bytes stand among the core's
pending stores at the stored address and every other pending byte stays.
Rests also on the model's own readings in notes/assumptions, entries 3 and 38. -/
def Obligations.AccessesReachNewestBytes : Prop :=
  (∀ (s : State) (h : Head) (hs : HIx) (d b : SIx) (ty : Ty) (disp : BitVec 21) (x : Handle) (p : Nat), s.canIssue h →
    let u := s.takes h
    let a := scalarAddr x (s.sr b) disp
    u.readH hs = some x → ty = .i32 ∨ ty = .n32 → hTgt s.cur x a = .mem 1 p → p % 4 = 0 →
    u.scalarCheck x a 4 true false false = none → s.me.pend = [] → s.me.comm = [] → s.poisoned p 4 = false →
    (∀ k < 4, ∀ v ∈ (mgetD s.hist (p + k) []).head?, v.1 ≤ max u.st.hz u.st.hz1) →
    let m (k : Nat) : Word := (Memory.get s.mem (p + k)).setWidth 64
    let w : Word := m 0 + m 1 * 256 + m 2 * 65536 + m 3 * 16777216
    ∃ t, exec (.ld h hs d b ty .plain disp) s = .next t ∧
      t.sr d = if ty = .i32 then (w.setWidth 32).signExtend 64 else w) ∧
  (∀ (s : State) (h : Head) (hs : HIx) (a b : SIx) (ty : Ty) (disp : BitVec 21) (x : Handle) (path p : Nat), s.canIssue h →
    let u := s.takes h
    let ad := scalarAddr x (s.sr b) disp
    let n := ty.width / 8
    u.readH hs = some x → ty.isX = true → u.scalarCheck x ad n false true false = none →
    hTgt s.cur x ad = .mem path p → (pendGrans s.me.pend).length < 4096 →
    ∃ t, exec (.st h hs a b ty .plain disp) s = .next t ∧ s.sameMemory t ∧
      (∀ k, k < n → mget t.me.pend (p + k) = some (BitVec.ofNat 8 ((s.sr a).toNat / 256 ^ k))) ∧
      (∀ q, q < p ∨ p + n ≤ q → mget t.me.pend q = mget s.me.pend q))

/-- R198, R199, R165: ST with a permitted, aligned access inside the handle, and for a waiting code an empty granule,
stores the low bits of SA at the address by the one store operation of its target. -/
def Obligations.StoresComplete : Prop :=
  ∀ (s : State) (h : Head) (hs : HIx) (a b : SIx) (ty : Ty) (fe : Fe) (disp : BitVec 21) (x : Handle), s.canIssue h →
    let u := s.takes h
    let ad := scalarAddr x (s.sr b) disp
    let g := hTgt s.cur x ad
    u.readH hs = some x → ty.isX = true → u.scalarCheck x ad (ty.width / 8) false true (fe != .plain) = none →
    (fe = .one → (u.granBits g).1 = false) →
    exec (.st h hs a b ty fe disp) s =
      .next ((u.storeTgt s.cur g false (fe != .plain) (toBytes (ty.width / 8) (s.sr a).toNat)).leaves h)

/-- R182, R183, R197, R198: GTEST with a permitted access of a scratch granule completes: it writes F in bit 0 and P in bit 1 of
SD. GSET with a permitted access completes: it sets F of its granule to bit 0 of SA, and leaves the granule's data and P;
through path 3 it commits the phase early first (R165), and at a core between two blocks it writes nothing (R395).  (The granules
of the scratchpad are read through a map whose keys rise, as every step keeps them.) -/
def Obligations.GranuleFormsComplete : Prop :=
  ∀ (s : State) (h : Head) (hs : HIx) (d b : SIx) (disp : BitVec 21) (x : Handle), s.canIssue h →
    let u := s.takes h
    let a := scalarAddr x (s.sr b) disp
    let g := hTgt s.cur x a
    u.readH hs = some x →
    (u.scalarCheck x a 1 true false true = none →
      exec (.gtest h hs d b disp) s = .next (s.gives h d (w64 (b2n (u.granBits g).1 + 2 * b2n (u.granBits g).2)) 0)) ∧
    (u.scalarCheck x a 1 false true true = none →
      (∃ t, exec (.gset h hs d b disp) s = .next t ∧ t.st.pos = { s.st.pos with lane := s.st.pos.lane + 1 } ∧
        t.st.s = s.st.s ∧
        (∀ o, g = .loc s.cur o → risingFrom 0 s.me.scr = true → t.gran (.scr s.cur) (s.scrOff s.cur false o / 16) =
          { s.gran (.scr s.cur) (s.scrOff s.cur false o / 16) with full := (s.sr d).getLsbD 0 })) ∧
      exec (.gset h hs d b disp) s = .next (((match g with
        | .win _ _ => u.earlyCommit s.cur
        | _ => u).setGranFull g ((s.sr d).getLsbD 0)).orderReads.leaves h))

/-- R200, R201: an atomic that its handle allows reads the newest value of its element, writes the new value at once,
returns the old value extended by its type, and refreshes the core's view where it acquires. R201 Table: the new value
of each AMO on 64-bit elements.
Rests also on the model's own readings in notes/assumptions, entries 3 and 38. -/
def Obligations.AtomicsComplete : Prop :=
  (∀ (s : State) (h : Head) (hs : HIx) (d b v e : SIx) (ty : Ty) (ord : Ord) (scp : Scp) (disp : BitVec 21) (op : AOp)
    (x : Handle), s.canIssue h →
    let u := s.takes h
    let a := scalarAddr x (s.sr b) disp
    let n := ty.width / 8
    let g := hTgt s.cur x a
    let c := u.atomicCommit g ord
    let old := ofBytes (c.readTgt s.cur g false .newest n).data
    let done (new : Nat) : Out :=
      let r := (((c.atomicLearn g n).atomicWrite g (toBytes n new)).setS d (loadValue ty old)).orderReads
      .next ((if Ord.acqs ord then r.refresh s.cur else r).leaves h)
    u.readH hs = some x → u.scalarCheck x a n true true false = none →
    (u.readTgt s.cur g false .newest n).pois = false → (u.readTgt s.cur g false .newest n).unc = false →
    (Ord.rels ord = true → s.st.await = []) → c.atomicHeld g ord = false →
    (u.atomicCheck x a false (op == .swap || op == .add) = none →
      exec (.amo h hs d b ty ord scp disp v op) s = done (amoNew op ty.width old ((s.sr v).toNat % 2 ^ ty.width))) ∧
    (u.atomicCheck x a true false = none →
      exec (.acas h hs d b ty ord scp disp v e) s =
        done (if old = (s.sr e).toNat % 2 ^ ty.width then (s.sr v).toNat % 2 ^ ty.width else old))) ∧
  (∀ (x y : Word),
    let f (op : AOp) : Word := w64 (amoNew op 64 x.toNat y.toNat)
    f .swap = y ∧ f .add = x + y ∧ f .and = x &&& y ∧ f .or = x ||| y ∧ f .xor = x ^^^ y ∧
      f .min = (if x.slt y then x else y) ∧ f .max = (if x.slt y then y else x) ∧
      f .minn = (if x.ult y then x else y) ∧ f .maxn = if x.ult y then y else x)

/-! ### Control flow (R83, R153 to R157) -/

/-- R83, R153 to R157: under a true guard each branch and loop form of C steers A and V by one entry each and follows
it: BR, CALL, BRI, RET and LEXIT go to their target line, which must be a branch target; CALL pushes the next line and
RET pops it; LOOP clears its counter and sets its limit; ENDL counts and goes back below the limit. -/
def Obligations.ControlFormsCompleteInC : Prop :=
  ∀ (s : State) (g : Guard) (a : SIx) (ln : Fin 8) (off : BitVec 16) (o13 : BitVec 13) (cnt : BitVec 12) (l : Nat),
    s.strm = .c → s.steerFull = false → s.guardB g = true →
    let p := s.st.pos
    let goes (i : Instr) (v : Word) (k : Stream → Stream → Prop) : Prop := ∃ t, exec i s = .next t ∧
      t.st.pos = ⟨l, 1, p.lseq + 1⟩ ∧ t.st.begun = false ∧ k s.st t.st ∧ s.woken.onlyRegs t ∧
      t.me.r.a = { s.woken.me.r.a with steer := s.me.r.a.steer ++ [⟨i, true, v, true, l⟩] } ∧
      t.me.r.v = { s.woken.me.r.v with steer := s.me.r.v.steer ++ [⟨i, true, v, true, l⟩] }
    let stays (i : Instr) (v : Word) (k : Stream → Stream → Prop) : Prop := ∃ t, exec i s = .next t ∧
      t.st.pos = { p with lane := p.lane + 1 } ∧ k s.st t.st ∧ s.woken.onlyRegs t ∧
      t.me.r.a = { s.woken.me.r.a with steer := s.me.r.a.steer ++ [⟨i, true, v, false, 0⟩] } ∧
      t.me.r.v = { s.woken.me.r.v with steer := s.me.r.v.steer ++ [⟨i, true, v, false, 0⟩] }
    let same (x y : Stream) : Prop := x.sameControl y ∧ y.s = x.s
    let there (n : Int) : Prop := n = (l : Int) ∧ s.targetFault s.res l = none
    (there ((p.line : Int) + off.toInt) → goes (.br g off) 0 same) ∧
    (there ((p.line : Int) + off.toInt) → s.st.rstk.length < 16 →
      goes (.call g off) 0 fun x y => y.rstk = (p.line + 1) :: x.rstk ∧ y.lc = x.lc ∧ y.llim = x.llim) ∧
    (there ((s.sr a).toNat : Int) → goes (.bri g a) (s.sr a) same) ∧
    (∀ r, s.st.rstk = l :: r → s.targetFault s.res l = none →
      goes (.ret g) 0 fun x y => y.rstk = r ∧ y.lc = x.lc ∧ y.llim = x.llim) ∧
    stays (.loopReg g ln a) (s.sr a) (fun x y => y.lc = x.lc.set ln 0 ∧ y.llim = x.llim.set ln ((s.sr a).setWidth 32) ∧
      (y.skip = if (s.sr a).setWidth 32 = (0 : BitVec 32) then some ln else none) ∧ y.rstk = x.rstk) ∧
    stays (.loopImm g ln cnt) (cnt.setWidth 64) (fun x y => y.lc = x.lc.set ln 0 ∧ y.llim = x.llim.set ln (cnt.setWidth 32) ∧
      (y.skip = if cnt = 0 then some ln else none) ∧ y.rstk = x.rstk) ∧
    (s.st.lc[ln] + 1 < s.st.llim[ln] → there ((p.line : Int) + o13.toInt) →
      goes (.endl g ln o13) 0 fun x y => y.lc = x.lc.set ln (x.lc[ln] + 1) ∧ y.llim = x.llim ∧ y.rstk = x.rstk) ∧
    (¬ s.st.lc[ln] + 1 < s.st.llim[ln] →
      stays (.endl g ln o13) 0 fun x y => y.lc = x.lc.set ln (x.lc[ln] + 1) ∧ y.llim = x.llim ∧ y.rstk = x.rstk) ∧
    (there ((p.line : Int) + o13.toInt) →
      goes (.lexit g ln o13) 0 fun x y => y.llim = x.llim.set ln (x.lc[ln]) ∧ y.lc = x.lc ∧ y.rstk = x.rstk)

/-- R83, R153 to R157: at BR, CALL, BRI, RET, LOOP, ENDL and LEXIT, A and V take the oldest entry C steered them by and go where it
says, with the form's effect on their own return stack, counters and limits under C's guard and none under a false one, whatever
their own guard and operands hold; with no entry they wait. R153, R79: a taken branch of C to a line that is no branch target stops the context
with code 0x25, and one past the last line with 0x26.
Rests also on the model's own readings in notes/assumptions, entry 6. -/
def Obligations.FollowersAndTargets : Prop :=
  (∀ (s : State) (g : Guard) (off : BitVec 16) (a : SIx) (ln : Fin 8) (o13 : BitVec 13) (cnt : BitVec 12), s.strm = .a ∨ s.strm = .v →
    let follows (i : Instr) (k : Steer → Stream → Stream → Prop) : Prop :=
      (∀ e r, s.st.steer = e :: r → ∃ t, exec i s = .next t ∧ t.st.steer = r ∧ t.st.s = s.st.s ∧ t.st.p = s.st.p ∧
        (t.st.pos = if e.guard && e.taken then ⟨e.target, 1, s.st.pos.lseq + 1⟩ else { s.st.pos with lane := s.st.pos.lane + 1 }) ∧
        (e.guard = true → k e s.st t.st) ∧ (e.guard = false → s.st.sameControl t.st) ∧ s.woken.onlyRegs t) ∧
      (s.st.steer = [] → ∃ t, exec i s = .next t ∧ t.st = { s.st with blk := .loose })
    let same (_ : Steer) (x y : Stream) : Prop := x.sameControl y
    let stack (l : List Nat) (x y : Stream) : Prop := y.rstk = l ∧ y.lc = x.lc ∧ y.llim = x.llim
    let opens (e : Steer) (x y : Stream) : Prop := y.lc = x.lc.set ln 0 ∧ y.llim = x.llim.set ln (e.val.setWidth 32) ∧
      (y.skip = if e.val.setWidth 32 = (0 : BitVec 32) then some ln else none) ∧ y.rstk = x.rstk
    follows (.br g off) same ∧ follows (.bri g a) same ∧
    follows (.call g off) (fun _ x y => stack ((x.pos.line + 1) :: x.rstk) x y) ∧
    follows (.ret g) (fun _ x y => stack x.rstk.tail x y) ∧
    follows (.loopReg g ln a) opens ∧ follows (.loopImm g ln cnt) opens ∧
    follows (.endl g ln o13) (fun _ x y => y.lc = x.lc.set ln (x.lc[ln] + 1) ∧ y.llim = x.llim ∧ y.rstk = x.rstk) ∧
    follows (.lexit g ln o13) fun _ x y => y.llim = x.llim.set ln (x.lc[ln]) ∧ y.lc = x.lc ∧ y.rstk = x.rstk) ∧
  (∀ (s : State) (g : Guard) (off : BitVec 16) (l code : Nat), s.strm = .c → s.steerFull = false → s.guardB g = true →
    s.res.card < 4096 → s.res.block < 2 ^ 24 → (s.ctx s.cx).stopped = false → s.noError s.cx →
    (s.st.pos.line : Int) + off.toInt = l → s.targetFault s.res l = some code →
    (code = 0x25 ∨ code = 0x26) ∧ ∃ t, exec (.br g off) s = .next t ∧ (t.ctx s.cx).stopped = true ∧
      ((t.ctx s.cx).err.getD 0 0).toNat / 2 ^ 56 = code)

/-! ### Aligning forms and FENCE (R84, R158, R160, R274 to R278) -/

/-- R84, R274, R264: in C's turn, with all three streams at the form, no answer of Campion awaited, no ACCST of the phase to
memory left, no revocation pending, no checkpoint marked and no row of its stores pinned, PHASE publishes the phase's
pending stores, counts the phase, clears its count of triggers and moves the three streams on; memory holds every byte
stored and no other byte changes. R158: under the same conditions KEND commits the block's last phase and ends the block;
its core waits to be retired. R353, R354: the checkpoint that a PHASE owes, once the block's engine commands, requests and
publications are done and a slot is free, saves what Table 3 lists of the core in the lowest free slot, writes no byte outside the
slot, frees the core and returns the block's record with CKPT set and no RERUN.
Rests also on the model's own readings in notes/assumptions, entries 3 and 40. -/
def Obligations.PhaseAndKendCommit : Prop :=
  (∀ (s : State) (g : Guard) n x, s.strm = .c → s.st.acted = true → s.me.blk.isSome = true → s.enginesBusy s.cur = false →
    s.me.q24 = [] → s.me.comm = [] → (s.ctx s.cx).freeSlot = some n →
    mget (s.ctx s.cx).recs (gkey s.res.card s.res.block) = some x → risingFrom 0 (s.ctx s.cx).recs = true → Memory.wf s.mem = true →
    (∀ e ∈ s.me.scr, e.1 < 131072) → (∀ e ∈ s.me.acc, e.1 < 16384) →
    let base := (s.ctx s.cx).ckAddr n
    ∃ t z ck, exec (.phase g) s = .next t ∧ (t.core s.cur).blk = none ∧ mget (t.ctx s.cx).recs (gkey s.res.card s.res.block) = some z ∧
      z.core = none ∧ z.ckpt = some n ∧ z.rerun = false ∧ mget (t.ctx s.cx).cks n = some ck ∧
      (∀ m, let v := ck.regs.str m
        let w := s.me.prec.regs.str m
        v.pos = w.pos ∧ v.llim = w.llim ∧ v.rstk = w.rstk ∧ (∀ i : Fin 32, i.val < scnt s.res.hdr m → v.s[i] = w.s[i])) ∧
      ck.regs.c.tflags = s.me.r.c.tflags ∧ ck.regs.vr = s.me.prec.regs.vr ∧ ck.regs.qs = s.me.prec.regs.qs ∧
      ck.regs.qv = s.me.prec.regs.qv ∧ ck.regs.tok = s.me.prec.regs.tok ∧ ck.regs.win = s.me.prec.regs.win ∧
      ck.regs.par = s.me.prec.regs.par ∧ ck.trapinfo = s.me.trapinfo ∧ ck.phasecnt = s.me.phasecnt ∧ ck.frame = s.res.frame ∧
      (∀ i : Fin 16, i.val < semcnt s.res.hdr → ck.sem[i] = s.me.sem[i]) ∧ ck.ring = s.me.ring ∧ ck.q10 = s.me.q10 ∧
      ck.q17 = s.me.q17 ∧ ck.q21 = s.me.q21 ∧ ck.q23 = s.me.q23 ∧ ck.q25 = s.me.q25 ∧
      (∀ e, e ∈ ck.scr ↔ e ∈ s.me.scr ∧ keptGran s.res.hdr e.1 = true) ∧
      (∀ e, e ∈ ck.acc ↔ e ∈ s.me.acc ∧ bit (s.res.hw 3) (52 + e.1 / 4096) = true) ∧
      ∀ a, a < base ∨ base + 0x240000 ≤ a → Memory.get t.mem a = Memory.get s.mem a) ∧
  (∀ (s : State) (g : Guard), s.strm = .c → s.st.acted = false → s.me.aligned = true → s.guardB g = true →
    s.st.await = [] → s.me.accstLeft = false → s.me.rvks = [] → (s.me.mark = .none ∨ s.me.mark = .drain) →
    s.mayPublish → ((s.me.log.filter fun e => !e.done).length ≤ 32) →
    ∃ t, exec (.phase g) s = .next t ∧ t.me.phasecnt = s.me.phasecnt + 1 ∧ t.me.pend = [] ∧ t.me.comm = [] ∧
      t.me.trigs = 0 ∧ t.me.early = false ∧ t.me.pubs = [] ∧ t.me.seen = [] ∧
      (∀ m, (t.me.str m).pos = { (s.me.str m).pos with lane := (s.me.str m).pos.lane + 1 }) ∧
      (∀ a, Memory.get t.mem a = s.published a)) ∧
  (∀ (s : State) (g : Guard), s.strm = .c → s.st.acted = false → s.me.aligned = true → s.guardB g = true →
    s.st.await = [] → s.me.accstLeft = false → s.me.rvks = [] → s.mayPublish →
    ∃ t, exec (.kend g) s = .next t ∧ t.me.ended = true ∧ t.me.phasecnt = s.me.phasecnt + 1 ∧ t.me.pend = [] ∧
      t.me.comm = [] ∧ (∀ a, Memory.get t.mem a = s.published a))

/-- R277, R176: QUIET with every engine command of the block complete opens a quiet point and moves the three streams
on. R160: TRAPF with no trap pending and no sticky flag whose policy bit is set moves the three streams on, TFLAGS
unchanged. R160, R348: with a trap pending (code 0x38), or a sticky flag whose policy bit is set (code 0x30 and the lowest such flag),
TRAPF fails the block: its job, on which no other waits, is FAILED with that code and block, its core is left and the context goes
on. R84: an aligning form whose streams have not all arrived waits, and so does A or V at it; a false guard
only aligns.
Rests also on the model's own readings in notes/assumptions, entry 40. -/
def Obligations.AligningFormsComplete : Prop :=
  (∀ (s : State) (g : Guard), s.strm = .c → s.st.acted = false → s.me.aligned = true → s.guardB g = true →
    s.st.await = [] → s.enginesBusy s.cur = false →
    ∃ t, exec (.quiet g) s = .next t ∧ t.me.quietPt = true ∧
      (∀ m, (t.me.str m).pos = { (s.me.str m).pos with lane := (s.me.str m).pos.lane + 1 }) ∧ s.onlyCore t ∧ s.sameMemory t) ∧
  (∀ (s : State) (g : Guard), s.strm = .c → s.st.acted = false → s.me.aligned = true → s.guardB g = true →
    s.st.await = [] → s.me.trapinfo.getLsbD 8 = false → (∀ n < 8, (bit s.me.allFlags n && bit (s.me.res.hw 3) (56 + n)) = false) →
    ∃ t, exec (.trapf g) s = .next t ∧ (∀ m, (t.me.str m).tflags = (s.me.str m).tflags) ∧
      (∀ m, (t.me.str m).pos = { (s.me.str m).pos with lane := (s.me.str m).pos.lane + 1 }) ∧ s.sameMemory t) ∧
  (∀ (s : State) (g : Guard), s.strm = .c → s.st.acted = false → s.me.aligned = true → s.guardB g = true → s.st.await = [] →
    s.me.blk.isSome = true → s.me.mark ≠ .dying → s.res.block < 2 ^ 24 → risingFrom 0 (s.ctx s.cx).cards = true →
    (∀ l ∈ s.links, l.ctx.val = s.cx → l.prod ≠ s.res.card) →
    let raised (n : Nat) : Bool := bit s.me.allFlags n && bit (s.me.res.hw 3) (56 + n)
    let fails (code : Nat) : Prop := ∃ t, exec (.trapf g) s = .next t ∧ (t.ctx s.cx).cstate s.res.card = 5 ∧
      (t.ctx s.cx).cf s.res.card 23 63 56 = code ∧ (t.ctx s.cx).cf s.res.card 23 47 24 = s.res.block ∧
      (t.ctx s.cx).stopped = (s.ctx s.cx).stopped ∧ ((t.core s.cur).blk = none ∨ (t.core s.cur).mark = .dying)
    (s.me.trapinfo.getLsbD 8 = true → fails 0x38) ∧
    (s.me.trapinfo.getLsbD 8 = false → ∀ n, n < 8 → raised n = true → (∀ m, m < n → raised m = false) → fails (0x30 + n))) ∧
  (∀ (s : State) (g : Guard) (i : Instr), i = .phase g ∨ i = .quiet g ∨ i = .trapf g ∨ i = .kend g →
    ((s.strm ≠ .c ∨ (s.st.acted = false ∧ s.me.aligned = false)) →
      ∃ t, exec i s = .next t ∧ t.st = { s.st with blk := .align } ∧ s.onlyStream t ∧ t.toks = s.toks) ∧
    (s.strm = .c → s.st.acted = false → s.me.aligned = true → s.guardB g = false →
      ∃ t, exec i s = .next t ∧ s.woken.onlyRegs t ∧ t.me.phasecnt = s.me.phasecnt ∧
        ∀ m, (t.me.str m).pos = { (s.me.str m).pos with lane := (s.me.str m).pos.lane + 1 }))

/-- R278, R262, R264, R265: in C, with a steer slot free, no answer of Campion awaited, no row of its stores pinned and a true
guard, a FENCE that releases beyond the core publishes the pending stores, one that acquires refreshes the core's view at
its scope, and each goes on to the next lane. R83, R278: A and V execute it by themselves, the same, at their steer entry, whose
guard is C's; under a false one they go on and do nothing else, and with no entry they wait.
Rests also on the model's own readings in notes/assumptions, entries 3 and 38. -/
def Obligations.FenceCompletes : Prop :=
  (∀ (s : State) (g : Guard) (ord : Ord) (scp : Scp), s.strm = .a ∨ s.strm = .v → s.st.acted = false → s.st.await = [] →
    (s.st.steer = [] → ∃ t, exec (.fence g ord scp) s = .next t ∧ t.st = { s.st with blk := .loose }) ∧
    ∀ e r, s.st.steer = e :: r →
      (e.guard = false → ∃ t, exec (.fence g ord scp) s = .next t ∧ t.st.steer = r ∧ s.st.sameControl t.st ∧ s.woken.onlyRegs t ∧
        t.st.pos = { s.st.pos with lane := s.st.pos.lane + 1 }) ∧
      (e.guard = true → s.mayPublish → ∃ t, exec (.fence g ord scp) s = .next t ∧ t.st.steer = r ∧
        t.st.pos = { s.st.pos with lane := s.st.pos.lane + 1 } ∧
        (Ord.acqs ord = true → t.me.seen = [] ∧ t.me.rfc = s.me.rfc.join t.me.clk) ∧
        (Ord.rels ord = true → scp ≠ .core → t.me.pend = [] ∧ t.me.comm = [] ∧ t.me.early = true ∧
          ∀ a, Memory.get t.mem a = s.published a) ∧
        (Ord.rels ord = false ∨ scp = .core → t.me.pend = s.me.pend ∧ t.me.comm = s.me.comm ∧ s.sameMemory t))) ∧
  ∀ (s : State) (g : Guard) (ord : Ord) (scp : Scp), s.strm = .c → s.st.acted = false → s.steerFull = false →
    s.guardB g = true → s.st.await = [] → s.mayPublish →
    ∃ t, exec (.fence g ord scp) s = .next t ∧ t.st.pos = { s.st.pos with lane := s.st.pos.lane + 1 } ∧
      (Ord.acqs ord = true → t.me.seen = [] ∧ t.me.rfc = s.me.rfc.join t.me.clk) ∧
      (Ord.rels ord = true → scp ≠ .core → t.me.pend = [] ∧ t.me.comm = [] ∧ t.me.early = true ∧
        ∀ a, Memory.get t.mem a = s.published a) ∧
      (Ord.rels ord = false ∨ scp = .core → t.me.pend = s.me.pend ∧ t.me.comm = s.me.comm ∧ s.sameMemory t)

/-! ### Barriers, semaphores, tags and jobs (R279 to R286) -/

/-- R279: the gang's last arrival at a barrier passes it, opens its next generation and refreshes the core's view; an earlier
arrival waits at it. R281 to R283: SEMSIG adds the low 16 bits of its operand, held at 65,535; SEMWAIT of 0 completes
at once and orders nothing; with no waiter before it and a sufficient count SEMWAIT subtracts it and refreshes the view; with a
smaller count, or behind a waiter whose wait began in an earlier core clock, it joins the line and waits, the count unchanged; SEMRD
reads the count.
Rests also on the model's own readings in notes/assumptions, entries 3 and 6. -/
def Obligations.BarrierAndSemaphoreFormsComplete : Prop :=
  (∀ (s : State) (h : Head) (n : Fin 8), s.canIssue h → s.me.barWait = none →
    let i : Instr := .bar h (Fin.ofNat 16 n.val)
    let g := s.gangOf s.cur
    (g.size ≤ g.cnt[n] + 1 + g.retired → ∃ t, exec i s = .next t ∧ (t.gangOf s.cur).cnt[n] = 0 ∧
      (t.gangOf s.cur).gen[n] = (g.gen[n] + 1) % 65536 ∧ t.me.seen = [] ∧ t.me.rfc = s.me.rfc.join t.me.clk ∧
      t.st.pos = { s.st.pos with lane := s.st.pos.lane + 1 } ∧ s.sameMemory t) ∧
    (g.cnt[n] + 1 + g.retired < g.size → ∃ t, exec i s = .next t ∧ (t.gangOf s.cur).cnt[n] = g.cnt[n] + 1 ∧
      (t.gangOf s.cur).gen[n] = g.gen[n] ∧ t.me.barWait = some (n.val, g.gen[n]) ∧ t.st.pos = s.st.pos ∧ t.st.blk = .other)) ∧
  (∀ (s : State) (h : Head) (n : Fin 16) (a d : SIx), s.canIssue h →
    let v := (s.sr a).toNat % 65536
    (∃ t, exec (.semsig h n a) s = .next t ∧ t.me.sem[n] = min (s.me.sem[n] + v) 65535 ∧
      (∀ k, k ≠ n → t.me.sem[k] = s.me.sem[k]) ∧ t.st.pos = { s.st.pos with lane := s.st.pos.lane + 1 } ∧ s.sameMemory t) ∧
    (s.me.semq[n] = [] → 0 < v → v ≤ s.me.sem[n] → ∃ t, exec (.semwait h n a) s = .next t ∧ t.me.sem[n] = s.me.sem[n] - v ∧
      (∀ k, k ≠ n → t.me.sem[k] = s.me.sem[k]) ∧ t.me.seen = [] ∧
      t.me.rfc = s.me.rfc.join t.me.clk ∧
      t.st.pos = { s.st.pos with lane := s.st.pos.lane + 1 } ∧ s.sameMemory t) ∧
    (v = 0 → exec (.semwait h n a) s = .next ((s.takes h).leaves h)) ∧
    (∀ x r, s.me.semq[n] = x :: r → x.2 ≠ Waiter.c → x.1 < s.me.cycle → 0 < v → ∃ t, exec (.semwait h n a) s = .next t ∧
      t.me.sem = s.me.sem ∧ t.st.pos = s.st.pos ∧ t.st.blk = .sem ∧ (t.me.semq[n]).head? = some x ∧
      ∃ y ∈ t.me.semq[n], y.2 = Waiter.c) ∧
    (s.me.sem[n] < v → ∃ t, exec (.semwait h n a) s = .next t ∧ t.me.sem = s.me.sem ∧ t.st.pos = s.st.pos ∧ t.st.blk = .sem ∧
      ∃ x ∈ t.me.semq[n], x.2 = Waiter.c) ∧
    exec (.semrd h d n) s = .next (s.gives h d (w64 s.me.sem[n]) 0))

/-- R284 to R286, R53, R187: with room in q24, TAGPUB, once C's earlier forms have their answers (R278), commits the phase early and queues its
publication; TAGPUB.P
queues the pending publication and notes the tile for the phase's end; TAGTEST, JSTAT, JARM and JPATCH queue their
request, the last two after an early commit, and C goes on, its destination awaiting Campion's answer; only a form that
pushes tokens waits for it. R286: a job form that names a card above 4,095 stops the context with code 0x29.
Rests also on the model's own readings in notes/assumptions, entries 3 and 16. -/
def Obligations.TagAndJobFormsAsk : Prop :=
  (∀ (s : State) (h : Head) (slot bn : Fin 4) (a b d : SIx) (word : Fin 32), s.canIssue h →
    (s.me.q24.filter JobReq.counts).length < 16 → s.me.injArm = false → s.mayPublish →
    let n := (s.sr a).toNat
    let next : Pos := { s.st.pos with lane := s.st.pos.lane + 1 }
    let asks (i : Instr) (commit : Bool) (q : View → JobReq) : Prop := ∃ t, exec i s = .next t ∧
      t.me.q24 = s.me.q24 ++ [q t.me.clk] ∧ t.st.await = d :: s.st.await ∧ t.st.s = s.st.s ∧
      ((h.pn || h.pp) = false → t.st.pos = next) ∧
      ((h.pn || h.pp) = true → t.st.pos = s.st.pos ∧ t.st.acted = true ∧ t.st.blk = .other) ∧
      if commit then t.me.pend = [] ∧ t.me.comm = [] ∧ t.me.early = true ∧ ∀ a, Memory.get t.mem a = s.published a
      else t.me.pend = s.me.pend ∧ s.sameMemory t
    (s.tileBad slot n = false → s.st.await = [] → ∃ t, exec (.tagpub h slot a) s = .next t ∧
      t.me.q24 = s.me.q24 ++ [.pub slot.val n t.me.clk] ∧ t.me.pend = [] ∧ t.me.comm = [] ∧ t.me.early = true ∧
      t.st.pos = next ∧ ∀ a, Memory.get t.mem a = s.published a) ∧
    (s.tileBad slot n = false → s.me.pubs.length < 64 → ∃ t, exec (.tagpubP h slot a) s = .next t ∧
      t.me.q24 = s.me.q24 ++ [.pending slot.val n s.me.ph] ∧ (slot.val, n) ∈ t.me.pubs ∧ t.st.pos = next ∧ s.sameMemory t) ∧
    asks (.tagtest h d bn a) false (fun _ => .test bn.val (s.sr a) d) ∧
    (n < 4096 → asks (.jstat h d a) false fun _ => .stat n d) ∧
    (n < 4096 → asks (.jarm h d a) true fun v => .arm n d v) ∧
    (n < 4096 → 2 ≤ word.val → word.val ≤ 11 → asks (.jpatch h d a b word) true fun _ => .patch n word.val (s.sr b) d)) ∧
  (∀ (s : State) (h : Head) (a b d : SIx) (word : Fin 32) (i : Instr), s.canIssue h → 4096 ≤ (s.sr a).toNat →
    s.res.card < 4096 → s.res.block < 2 ^ 24 → (s.ctx s.cx).stopped = false → s.noError s.cx →
    i = .jstat h d a ∨ i = .jarm h d a ∨ i = .jpatch h d a b word →
    ∃ t, exec i s = .next t ∧ (t.ctx s.cx).stopped = true ∧ ((t.ctx s.cx).err.getD 0 0).toNat / 2 ^ 56 = 0x29)

/-! ### Copy engine and matrix engine: issue (R205 to R214, R241 to R254) -/

/-- R206, R207, R187: with its queue not full and the checks of R206 passed, COPY, FILL, GATHER and SCATTER place one
record at the end of their transfer queue, with the places, shapes, origin and flags the form names and the queue's
next SEQ.
Rests also on the model's own readings in notes/assumptions, entry 37. -/
def Obligations.CopyFormsIssue : Prop :=
  ∀ (s : State) (h : Head) (hd hs : HIx) (td ts : TIx) (i j : SIx) (m : Sems) (q : Fin 4) (f : CopyFlags), s.canIssue h →
    let u := s.takes h
    let dh := u.newH hd
    let rh := u.newH hs
    let dt := u.newT td
    let st := u.newT ts
    let vi := s.sr i
    let vj := s.sr j
    let seq := (s.me.cseq[q] + 1) % 2 ^ 32
    let placed (ins : Instr) (k : CopyCmd → Prop) : Prop := ∃ t y, exec ins s = .next t ∧ t.me.cq[q] = s.me.cq[q] ++ [y] ∧ k y ∧
      y.seq = seq ∧ y.q = q ∧ y.sems = m ∧ y.ph = s.me.ph ∧ y.cancelled = false ∧ t.me.cseq[q] = seq ∧
      t.st.pos = { s.st.pos with lane := s.st.pos.lane + 1 } ∧ t.st.s = s.st.s ∧
      (∀ k, k ≠ q → t.me.cq[k] = s.me.cq[k])
    s.me.cqUsed q < 16 → s.me.injArm = false → u.copySide dh dt q true f.bpd f.dwe = none →
    ((tType dt).isBx = false → placed (.fill h hd td i m q f.bpd f.dwe f.evt) fun y => y.op = .fill ∧ y.i = vi ∧
      y.dst = u.tensorPlace dh dt ∧ y.dshape = dt ∧ y.flags = ⟨.none, false, f.bpd, .plain, f.dwe, f.evt⟩) ∧
    (u.copySide rh st q false f.bps (f.sfe != .plain) = none → tType st = tType dt →
      let full (op : CpOp) (y : CopyCmd) : Prop := y.op = op ∧ y.src = u.tensorPlace rh st ∧ y.dst = u.tensorPlace dh dt ∧
        y.sshape = st ∧ y.dshape = dt ∧ y.i = vi ∧ y.j = vj ∧ y.flags = f
      (((tType dt).isBx && coord vj % 32 != 0) = false →
        (f.clip = .none → 0 ≤ coord vi ∧ coord vi + tRows dt ≤ tRows st ∧ 0 ≤ coord vj ∧ coord vj + tCols dt ≤ tCols st) →
        placed (.copy h hd hs td ts i j m q f) (full .copy)) ∧
      (((tType dt).isBx && coord vi % 32 != 0) = false → u.listFault vj (tRows dt) = none →
        placed (.gather h hd hs td ts i j m q f) (full .gather)) ∧
      (((tType dt).isBx && coord vj % 32 != 0) = false → u.listFault vi (tRows st) = none →
        placed (.scatter h hd hs td ts i j m q f) (full .scatter)))

/-- R210, R244: TRING of a configured ring with a free slot places its record in the transfer queue and reserves the
next panel. R213, R214: CCANCEL marks every copy of the queue but TRINGs; EVPOP takes the oldest event, word 0 to its
first destination and word 1 to its second.
Rests also on the model's own readings in notes/assumptions, entry 37. -/
def Obligations.TringCancelAndEventPop : Prop :=
  (∀ (s : State) (h : Head) (n : Fin 8) (hs : HIx) (ts : TIx) (i j : SIx) (m : Sems) (q : Fin 4) (f : CopyFlags), s.canIssue h →
    let u := s.takes h
    let st := u.newT ts
    let g := s.me.ring[n]
    u.copySide (u.newH hs) st q false f.bps (f.sfe != .plain) = none → g.cfg = true → tType st = g.ty →
    ((tType st).isBx && coord (s.sr j) % 32 != 0) = false → panelDiff g.rtail g.head < g.slots → s.me.cqUsed q < 16 →
    s.me.injArm = false →
    ∃ t y, exec (.tring h n hs ts i j m q f) s = .next t ∧ t.me.cq[q] = s.me.cq[q] ++ [y] ∧ y.op = .tring ∧ y.ring = n ∧
      y.panel = g.rtail ∧ y.sshape = st ∧ y.sems = m ∧ (t.me.ring[n]).rtail = (g.rtail + 1) % 2 ^ 32 ∧ (t.me.ring[n]).tail = g.tail ∧
      t.st.pos = { s.st.pos with lane := s.st.pos.lane + 1 }) ∧
  (∀ (s : State) (h : Head) (q : Fin 4) (d e : SIx), s.canIssue h →
    (∃ t, exec (.ccancel h q) s = .next t ∧ (t.me.cq[q]).length = (s.me.cq[q]).length ∧
      (∀ x ∈ t.me.cq[q], x.op = .tring ∨ x.silent = true ∨ x.cancelled = true) ∧
      t.st.pos = { s.st.pos with lane := s.st.pos.lane + 1 } ∧ s.sameMemory t) ∧
    (∀ x r, s.me.q25 = x :: r → d ≠ e → ∃ t, exec (.evpop h d e) s = .next t ∧ t.me.q25 = r ∧ t.sr d = x.data.setWidth 64 ∧
      t.sr e = (x.data >>> 64).setWidth 64 ∧ (∀ k, k ≠ d → k ≠ e → t.sr k = s.sr k) ∧ s.sameMemory t))

/-- R241, R187, R238, R249, R253, R254: with room in its queue and its checks passed, MFMT and MFMTI push their format word; MMUL of
two configured rings with enough slots, MZERO, ACCLD and ACCST place one record in q11 that names the set, the rings, the sizes
or the tensor of the form. R244 to R247: RINGCFG of an unused or empty ring with a legal configuration makes it an empty ring of
that type, base and slot count; RINGREL releases an empty ring; RINGQ reads its state without waiting.
Rests also on the model's own readings in notes/assumptions, entries 37 and 41. -/
def Obligations.MatrixAndRingFormsComplete : Prop :=
  (∀ (s : State) (h : Head) (a : SIx) (fmt : BitVec 32) (ra rb : Fin 8) (sel : SetSel) (mm nn : Fin 64) (ks : Fin 1024)
    (m : Sems) (acc : Fin 4) (hs : HIx) (ts : TIx) (i j : SIx), s.canIssue h → s.me.injArm = false →
    let u := s.takes h
    let n := if ks = 0 then 1024 else ks.val
    let next (t : State) : Prop := t.st.pos = { s.st.pos with lane := s.st.pos.lane + 1 } ∧ t.st.s = s.st.s
    let queued (ins : Instr) (k : MxCmd → Prop) : Prop := ∃ t x, exec ins s = .next t ∧ t.me.q11 = s.me.q11 ++ [x] ∧ k x ∧
      x.ph = s.me.ph ∧ x.pos = s.st.pos ∧ next t ∧ t.me.acc = s.me.acc
    (s.me.q10.length < 16 → formatError ((s.sr a).setWidth 32) = none → ∃ t, exec (.mfmt h a) s = .next t ∧
      t.me.q10 = s.me.q10 ++ [((s.sr a).setWidth 32, s.me.ph)] ∧ next t ∧ s.sameMemory t) ∧
    (s.me.q10.length < 16 → ∃ t, exec (.mfmti h fmt) s = .next t ∧ t.me.q10 = s.me.q10 ++ [(fmt, s.me.ph)] ∧ next t ∧
      s.sameMemory t) ∧
    (s.me.q11.length + b2n s.me.mx.isSome < 16 →
      ((s.me.ring[ra]).cfg = true → (s.me.ring[rb]).cfg = true → n ≤ (s.me.ring[ra]).slots → n ≤ (s.me.ring[rb]).slots →
        queued (.mmul h ra rb sel mm nn ks m) fun x => x.op = .mmul ∧ x.set = s.setOf sel ∧ x.ra = ra ∧ x.rb = rb ∧
          x.m = mm.val + 1 ∧ x.n = nn.val + 1 ∧ x.ks = n ∧ x.sems = m) ∧
      queued (.mzero h acc) (fun x => x.op = .mzero ∧ x.set = acc) ∧
      ((tType (u.newT ts)).isX = true → u.leaseFault (handleExts (u.newH hs)) = none → (hKind (u.newH hs) ≠ 0 → u.tensorScratch (u.newH hs) (u.newT ts) false = none) →
        (tensorCheck (u.newH hs) (u.newT ts) 6 false false = none → queued (.accld h acc hs ts i j) fun x =>
          x.op = .accld ∧ x.set = acc ∧ x.shape = u.newT ts ∧ x.i = s.sr i ∧ x.j = s.sr j ∧
            x.place = u.tensorPlace (u.newH hs) (u.newT ts)) ∧
        (tensorCheck (u.newH hs) (u.newT ts) 6 true false = none → queued (.accst h acc hs ts i j) fun x =>
          x.op = .accst ∧ x.set = acc ∧ x.shape = u.newT ts ∧ x.i = s.sr i ∧ x.j = s.sr j ∧
            x.place = u.tensorPlace (u.newH hs) (u.newT ts))))) ∧
  (∀ (s : State) (h : Head) (rn : Fin 8) (a b d : SIx), s.canIssue h →
    let empty := s.me.ringBusy rn = false ∧ ((s.me.ring[rn]).cfg = true → (s.me.ring[rn]).head = (s.me.ring[rn]).tail)
    let next (t : State) : Prop := t.st.pos = { s.st.pos with lane := s.st.pos.lane + 1 } ∧ t.st.s = s.st.s ∧
      (∀ k, k ≠ rn → t.me.ring[k] = s.me.ring[k]) ∧ s.sameMemory t
    (s.ringFault (s.sr a) (s.sr b) = none → empty → ∃ t, exec (.ringcfg h rn a b) s = .next t ∧ next t ∧
      (t.me.ring[rn]).cfg = true ∧ some (t.me.ring[rn]).ty = Ty.ofCode ((s.sr b).toNat % 32) ∧
      (t.me.ring[rn]).base = (s.sr a).toNat ∧ (t.me.ring[rn]).slots = (s.sr b).toNat / 256 % 256 + 1 ∧
      (t.me.ring[rn]).head = 0 ∧ (t.me.ring[rn]).tail = 0 ∧ (t.me.ring[rn]).rtail = 0) ∧
    (empty → ∃ t, exec (.ringrel h rn) s = .next t ∧ next t ∧ (t.me.ring[rn]).cfg = false) ∧
    exec (.ringq h d rn) s = .next (s.gives h d (ringWord s.me.ring[rn]) 0))

/-- R242, R250: a free matrix engine takes the head of q11 with the head of q10 as its format word, where the two
agree; a flip takes no format word. R250 to R253, R162: a K-step of an unchecked MMUL whose panels are present and
clean replaces each of its m × n elements by the K-sum with the old one and leaves every other element alone; MZERO
clears its set; a flip inverts its one bit; each counts one step and keeps the panels' slots.
Rests also on the model's own readings in notes/assumptions, entries 39 and 41. -/
def Obligations.MatrixEngineSteps : Prop :=
  (∀ (s : State) (k : Nat) (x : MxCmd) (r : List MxCmd), s.engineStarts k = true → (s.core k).mx = none → (s.core k).q11 = x :: r →
    (∀ w q, x.op ≠ .flip → (s.core k).q10 = w :: q → (s.core k).fmtFault x w.1 = none →
      ∃ t, exec (.matrixCommand k) s = .next t ∧ (t.core k).q11 = r ∧ (t.core k).q10 = q ∧
        (t.core k).mx = some ⟨x, w.1, !x.sems.wen, ((s.core k).ring[x.ra]).head, ((s.core k).ring[x.rb]).head, 0, 0⟩ ∧
        s.sameMemory t) ∧
    (x.op = .flip → ∃ t, exec (.matrixCommand k) s = .next t ∧ (t.core k).q11 = r ∧ (t.core k).q10 = (s.core k).q10 ∧
      ((t.core k).mx.map fun m => (m.cmd, m.fw)) = some (x, 0))) ∧
  (∀ (s : State) (k : Nat) (m : MxRun), s.engineOn k = true → (s.core k).mx = some m → m.waited = true → m.step < m.cmd.steps →
    (s.core k).heldByV m.cmd = false → risingFrom 0 (s.core k).acc = true →
    let x := m.cmd
    let c := s.core k
    let ra := c.ring[x.ra]
    let rb := c.ring[x.rb]
    let row (g : Ring) (p i : Nat) := s.panelRow k g ((p + m.step) % 2 ^ 32) i
    let stepped (d : Core) : Prop := (d.mx.map fun y => (y.cmd, y.step)) = some (x, m.step + 1) ∧ d.ring = c.ring
    (x.op = .mmul → fwCk m.fw = false → x.m ≤ 64 → x.n ≤ 64 → m.step < panelDiff ra.tail m.pa → m.step < panelDiff rb.tail m.pb →
      (∀ i, i < x.m → (row ra m.pa i).2 = false) → (∀ j, j < x.n → (row rb m.pb j).2 = false) →
      ∃ t, exec (.kStep k) s = .next t ∧ stepped (t.core k) ∧ s.sameMemory t ∧ ∀ i j, i < 64 → j < 64 →
        (t.core k).accGet (4096 * x.set.val + 64 * i + j) =
          if i < x.m ∧ j < x.n then BitVec.ofNat 56 (kElem m.fw (c.accGet (4096 * x.set.val + 64 * i + j)).toNat
            (row ra m.pa i).1 (row rb m.pb j).1).1
          else c.accGet (4096 * x.set.val + 64 * i + j)) ∧
    (x.op = .mzero → ∃ t, exec (.kStep k) s = .next t ∧ stepped (t.core k) ∧ ∀ key,
      (t.core k).accGet key = if key / 4096 = x.set.val then 0 else c.accGet key) ∧
    (x.op = .flip → x.bit < 56 → ∃ t, exec (.kStep k) s = .next t ∧ stepped (t.core k) ∧ ∀ key,
      (t.core k).accGet key = if key = 4096 * x.set.val + 64 * x.row + x.col then c.accGet key ^^^ (1#56 <<< x.bit)
        else c.accGet key))

/-- R250, R255, R281: an MMUL that has done its K-steps retires on a core that is not halted: both rings free its panels, C's flags gain the
command's, and its semaphore is signalled. R186: writes held at accumulator sets that no queued command names any more
are performed, and none is left.
Rests also on the model's own readings in notes/assumptions, entries 38 and 39. -/
def Obligations.MatrixEngineEnds : Prop :=
  (∀ (s : State) (k : Nat) (m : MxRun), s.engineOn k = true → (s.core k).mx = some m → m.waited = true → m.cmd.steps ≤ m.step →
    m.cmd.op = .mmul → m.cmd.ra ≠ m.cmd.rb → (s.core k).mark = .none → s.haltedCore k = false →
    let c := s.core k
    ∃ t, exec (.matrixRetirement k) s = .next t ∧ (t.core k).mx = none ∧
      ((t.core k).ring[m.cmd.ra]).head = ((c.ring[m.cmd.ra]).head + m.cmd.ks) % 2 ^ 32 ∧
      ((t.core k).ring[m.cmd.rb]).head = ((c.ring[m.cmd.rb]).head + m.cmd.ks) % 2 ^ 32 ∧
      (t.core k).r.c.tflags = c.r.c.tflags ||| m.flags ∧ (t.core k).acc = c.acc ∧ s.sameMemory t ∧
      ∀ n, (t.core k).sem[n] = if m.cmd.sems.sen = true ∧ n = m.cmd.sems.sems then min (c.sem[n] + 1) 65535 else c.sem[n]) ∧
  (∀ (s : State) (k key : Nat) (v : Word), (s.core k).aww = [(key, v)] → (s.core k).namesSet (key / 4096) = false →
    risingFrom 0 (s.core k).acc = true →
    ∃ t, exec (.accumulatorWindowWrite k) s = .next t ∧ (t.core k).aww = [] ∧
      ∀ j, (t.core k).accGet j = if j = key then v.setWidth 56 else (s.core k).accGet j)

/-- R252: a K-step of a checked MMUL whose panels are present and clean updates its data elements, the checksums of row 63 and of
column 63, and element (63, 63), and leaves every other element alone. R254, R255: a row step of ACCLD replaces the whole row of
its set by the tensor's elements converted as the format word says, zero outside the shape; a row step of ACCST changes no
accumulator and gathers its flags; a retiring ACCST writes every element inside the shape to local scratch and nothing else.
Rests also on the model's own readings in notes/assumptions, entries 36 and 39. -/
def Obligations.MatrixAccumulatorMoves : Prop :=
  ∀ (s : State) (k : Nat) (m : MxRun), s.engineOn k = true → (s.core k).mx = some m → m.waited = true →
    risingFrom 0 (s.core k).acc = true →
    let x := m.cmd
    let c := s.core k
    let old (i j : Nat) : Nat := (c.accGet (4096 * x.set.val + 64 * i + j)).toNat
    let n := (tType x.shape).width / 8
    let counted (t : State) : Prop := ((t.core k).mx.map fun y => (y.cmd, y.step)) = some (x, m.step + 1) ∧ (t.core k).ring = c.ring
    (x.op = .mmul → c.heldByV x = false → m.step < x.ks → fwCk m.fw = true → x.m ≤ 63 → x.n ≤ 63 →
      let ra := c.ring[x.ra]
      let rb := c.ring[x.rb]
      let row (g : Ring) (p i : Nat) := s.panelRow k g ((p + m.step) % 2 ^ 32) i
      let sa := ckSums (fwA m.fw) ((upto 0 x.m).map fun i => (row ra m.pa i).1)
      let sb := ckSums (fwB m.fw) ((upto 0 x.n).map fun j => (row rb m.pb j).1)
      let va (i : Nat) := (upto 0 (kWidth (fwA m.fw))).map fun e => (row ra m.pa i).1.val (fwA m.fw) e
      let vb (j : Nat) := (upto 0 (kWidth (fwA m.fw))).map fun e => (row rb m.pb j).1.val (fwB m.fw) e
      m.step < panelDiff ra.tail m.pa → m.step < panelDiff rb.tail m.pb →
      (∀ i, i < x.m → (row ra m.pa i).2 = false) → (∀ j, j < x.n → (row rb m.pb j).2 = false) →
      ∃ t, exec (.kStep k) s = .next t ∧ counted t ∧ s.sameMemory t ∧ ∀ i j, i < 64 → j < 64 →
        ((t.core k).accGet (4096 * x.set.val + 64 * i + j)).toNat =
          (if i < x.m ∧ j < x.n then (kElem m.fw (old i j) (row ra m.pa i).1 (row rb m.pb j).1).1
          else if i = 63 ∧ j < x.n then (ckElem (old i j) sa.1 (vb j)).1
          else if i < x.m ∧ j = 63 then (ckElem (old i j) (va i) sb.1).1
          else if i = 63 ∧ j = 63 then (ckElem (old i j) sa.1 sb.1).1
          else old i j) % 2 ^ 56) ∧
    (x.op = .accld → c.heldByV x = false → m.step < 64 → x.place.kind ≠ .window →
      let js := x.cols m.step
      let r := s.placeRead k x.view x.place false (x.off m.step (js.headD 0)) (js.length * n)
      let v (j : Nat) : Nat := if j ∈ js then
        (convert (tType x.shape) (if fwInt m.fw then .i56 else .a56) (fwRm m.fw) (fwSat m.fw)
          (ofBytes ((r.1.drop ((j - js.headD 0) * n)).take n))).1 else 0
      (js ≠ [] → r.2.1 = false) →
      ∃ t, exec (.kStep k) s = .next t ∧ counted t ∧ s.sameMemory t ∧ ∀ i j, i < 64 → j < 64 →
        ((t.core k).accGet (4096 * x.set.val + 64 * i + j)).toNat =
          (if i = m.step then v j else old i j) % 2 ^ 56) ∧
    (x.op = .accst → c.heldByV x = false → m.step < 64 → x.place.kind ≠ .window →
      ∃ t, exec (.kStep k) s = .next t ∧ (t.core k).acc = c.acc ∧ s.sameMemory t ∧ (t.core k).scr = c.scr ∧
        (t.core k).mx = some { m with
          step := m.step + 1, flags := m.flags ||| BitVec.ofNat 8 (c.accstRow x m.fw m.step).2 }) ∧
    (x.op = .accst → 64 ≤ m.step → x.place.kind = .local → s.haltedCore k = false → c.mark = .none →
      bits (wd c.res.hdr 7) 59 56 = 0 → tCols x.shape * n ≤ tStride x.shape →
      let ty (i j : Nat) : Ty := if fwInt m.fw ∧ !(fwCk m.fw ∧ (i = 63 ∨ j = 63)) then .i56 else .a56
      let v (i j : Nat) : Nat := (convert (ty i j) (tType x.shape) (fwRm m.fw) (fwSat m.fw) (old i j)).1
      ∃ t, exec (.matrixRetirement k) s = .next t ∧ (t.core k).mx = none ∧ (t.core k).acc = c.acc ∧ s.sameMemory t ∧
        (t.core k).r.c.tflags = c.r.c.tflags ||| m.flags ∧
        (∀ i j b, i < 64 → j ∈ x.cols i → b < n →
          t.granByte (.scr k) (x.place.addr + x.off i j + b) = BitVec.ofNat 8 (v i j / 256 ^ b)) ∧
        ∀ o, (∀ i j b, i < 64 → j ∈ x.cols i → b < n → o ≠ x.place.addr + x.off i j + b) →
          t.granByte (.scr k) o = s.granByte (.scr k) o)

/-! ### Vector forms (R217 to R235) -/

/-- R220, R222 to R224, R227 to R230: a lane-wise vector form with an active lane, its sources present and room in q8
where q8 is its destination writes `op` of its sources' elements in each active lane and nothing in the others. -/
def Obligations.VectorLaneFormsComplete : Prop :=
  ∀ (s : State) (h : Head) (d : VDst) (a b c : VSrc) (ty : Ty) (rm : RM) (sat : Bool) (p : PIx) (x : SIx)
    (imm k : BitVec 13), s.canIssueV h → ty.isX = true → (d = .q8 → (s.me.r.qv[4]).length < 16) →
    let g := s.guardM h.g
    let runs (i : Instr) (t : Ty) (srcs : List VSrc) (op : List Vec → Nat → Nat × Nat) : Prop :=
      (∃ e, e < t.lanes ∧ g.getLsbD e = true) → ∀ vs u, (s.takes h).sources srcs = some (vs, u) →
      ∃ r, exec i s = .next r ∧ s.wroteLanes u r d t.width t.lanes (fun e => g.getLsbD e) (fun e => (op vs e).1) ∧
        s.wentOn r ∧ s.sameMemory r ∧ r.st.s = s.st.s ∧ r.st.tflags = s.st.tflags |||
          BitVec.ofNat 8 ((lanesOf g t.lanes).foldl (fun f e => f ||| (op vs e).2) 0)
    let el (t : Ty) (vs : List Vec) (n e : Nat) : Nat := elem t.width (vs.getD n 0) e
    let l1 (t : Ty) (f : Nat → Nat × Nat) : List Vec → Nat → Nat × Nat := fun vs e => f (el t vs 0 e)
    let l2 (f : Nat → Nat → Nat × Nat) : List Vec → Nat → Nat × Nat := fun vs e => f (el ty vs 0 e) (el ty vs 1 e)
    let l3 (f : Nat → Nat → Nat → Nat × Nat) : List Vec → Nat → Nat × Nat :=
      fun vs e => f (el ty vs 0 e) (el ty vs 1 e) (el ty vs 2 e)
    let bv (f : (n : Nat) → BitVec n → BitVec n → BitVec n) : List Vec → Nat → Nat × Nat :=
      l2 fun m n => ((f ty.width (BitVec.ofNat ty.width m) (BitVec.ofNat ty.width n)).toNat, 0)
    let w := ty.width
    (runs (.vadd h d a b ty rm sat) ty [a, b] (l2 (lAdd ty rm sat)) ∧
     runs (.vsub h d a b ty rm sat) ty [a, b] (l2 (lSub ty rm sat)) ∧
     runs (.vmul h d a b ty rm sat) ty [a, b] (l2 (lMul ty rm sat)) ∧
     runs (.vfma h d a b c ty rm sat) ty [a, b, c] (l3 (lFma ty rm sat)) ∧
     runs (.vfms h d a b c ty rm sat) ty [a, b, c] (l3 (lFms ty rm sat)) ∧
     runs (.vfnma h d a b c ty rm sat) ty [a, b, c] (l3 (lFnma ty rm sat)) ∧
     runs (.vdiv h d a b ty rm sat) ty [a, b] (l2 (lDiv ty rm sat)) ∧
     runs (.vmin h d a b ty) ty [a, b] (l2 (minMax ty false)) ∧
     runs (.vmax h d a b ty) ty [a, b] (l2 (minMax ty true)) ∧
     runs (.vabs h d a ty sat) ty [a] (l1 ty (lAbs ty sat)) ∧
     runs (.vneg h d a ty sat) ty [a] (l1 ty (lNeg ty sat)) ∧
     runs (.vmulh h d a b ty) ty [a, b] (bv fun n m k => if ty.signed then highS n m k else highU n m k)) ∧
    (runs (.vand h d a b ty) ty [a, b] (bv fun _ m n => m &&& n) ∧
     runs (.vor h d a b ty) ty [a, b] (bv fun _ m n => m ||| n) ∧
     runs (.vxor h d a b ty) ty [a, b] (bv fun _ m n => m ^^^ n) ∧
     runs (.vandn h d a b ty) ty [a, b] (bv fun _ m n => m &&& ~~~n) ∧
     runs (.vshl h d a b ty) ty [a, b] (bv fun n m k => m <<< (k.toNat % n)) ∧
     runs (.vshr h d a b ty) ty [a, b] (bv fun n m k => m >>> (k.toNat % n)) ∧
     runs (.vsar h d a b ty) ty [a, b] (bv fun n m k => m.sshiftRight (k.toNat % n)) ∧
     runs (.vrcp h d a rm sat) .f32 [a] (l1 .f32 fun m => fltRes .f32 rm sat (fvalue .f32 m).rcp) ∧
     runs (.vrsq h d a rm sat) .f32 [a] (l1 .f32 fun m => fltRes .f32 rm sat (fvalue .f32 m).rsqrt) ∧
     runs (.vsqrt h d a rm sat) .f32 [a] (l1 .f32 fun m => fltRes .f32 rm sat (fvalue .f32 m).sqrt) ∧
     runs (.vexp2 h d a rm sat) .f32 [a] (l1 .f32 fun m => exp2F (fvalue .f32 m) rm sat) ∧
     runs (.vlog2 h d a rm sat) .f32 [a] (l1 .f32 fun m => log2F (fvalue .f32 m) rm sat)) ∧
    (runs (.vclass h d a ty) ty [a] (l1 ty (lClass ty)) ∧
     runs (.vscale h d a b ty rm sat) ty [a, b] (l2 (lScale ty rm sat)) ∧
     runs (.vrint h d a ty rm) ty [a] (l1 ty (lRint ty rm)) ∧
     runs (.vsgn h d a b ty) ty [a, b] (l2 (lSgn ty)) ∧
     runs (.vclz h d a ty) ty [a] (l1 ty fun m => (w - bitLen m, 0)) ∧
     runs (.vpopc h d a ty) ty [a] (l1 ty fun m => (((List.range w).filter fun n => m.testBit n).length, 0)) ∧
     runs (.vclamp h d a b c ty) ty [a, b, c] (l3 (lClamp ty)) ∧
     runs (.vabd h d a b ty rm sat) ty [a, b] (l2 (lAbd ty rm sat)) ∧
     runs (.viota h d ty) ty [] (fun _ e => (e, 0)) ∧
     runs (.vsplat h d x ty) ty [] (fun _ _ => ((s.sr x).toNat, 0)) ∧
     runs (.vsplati h d imm ty) ty [] (fun _ _ => ((imm.signExtend 64).toNat, 0)) ∧
     runs (.vmov h d a ty) ty [a] (l1 ty fun m => (m, 0)) ∧
     runs (.vsel h d p a b ty) ty [a, b] (fun vs e => (if (s.st.pm p).getLsbD e then el ty vs 0 e else el ty vs 1 e, 0)) ∧
     runs (.vshuf h d a b ty) ty [a, b] (fun vs e => (el ty vs 0 (el ty vs 1 e % ty.lanes), 0)) ∧
     runs (.vperm h d a b c ty) ty [a, b, c] (fun vs e =>
       let n := el ty vs 2 e % (2 * ty.lanes)
       (if n < ty.lanes then el ty vs 0 n else el ty vs 1 (n - ty.lanes), 0)) ∧
     runs (.vrot h d a ty k) ty [a] (fun vs e => (el ty vs 0 ((e + k.toNat) % ty.lanes), 0)))

/-- R147: with a false guard only an unconditional compare of a scalar stream writes, and it clears both destinations; no flag
rises. R86, R140: under a false guard every other form with a head, of the common space, C's and A's, moves its tokens and does
nothing else. R219, R220: so does a form of V's space none of whose lanes is active, by the lanes its guard has (R225, and R226 for
VPACK and VUNPK), VEXT and VINS whose element is not active (R229) and VCNTP under a zero mask (R233). R232: VMASKI with no active
lane leaves every predicate alone. R227: VCMP with none pops nothing and sets no flag; with CT unc it clears the low bits of both
destinations, with any other it leaves every predicate alone. -/
def Obligations.InactiveFormsLeaveAlone : Prop :=
  (∀ (s : State) (h : Head) (pd pe : PIx) (ct : CT) (cc : CC) (a b : SIx) (n : BitVec 6) (i : Instr), s.canPass h →
    (pd = pe → pd = 0) →
    i = .cmp h pd pe ct cc a (.reg b) ∨ i = .tbit h pd pe ct cc a n ∨ i = .fcmp h pd pe ct cc a b →
    ∃ t, exec i s = .next t ∧ t.st.tflags = s.st.tflags ∧
      (ct = .unc → (pd ≠ 0 → t.st.pm pd = 0) ∧ (pe ≠ 0 → t.st.pm pe = 0) ∧
        ∀ q, q ≠ pd → q ≠ pe → t.st.pm q = s.st.pm q) ∧
      (ct ≠ .unc → ∀ q, t.st.pm q = s.st.pm q)) ∧
  (∀ (s : State) (h : Head) (i : Instr), i.plainHead = some h → s.canPass h → exec i s = .next ((s.takes h).leaves h)) ∧
  (∀ (s : State) (h : Head) (n : Nat) (i : Instr), i.laneHead = some (h, n) → s.canIssueV h →
    (∀ e, e < n → (s.guardM h.g).getLsbD e = false) → exec i s = .next ((s.takes h).leaves h)) ∧
  (∀ (s : State) (h : Head) (d : SIx) (dv : Fin 16) (pd pe : PIx) (ct : CT) (cc : CC) (a b : VSrc) (ty : Ty) (idx : BitVec 13)
    (ew : Ew) (n : BitVec 7), s.canIssueV h →
    let g := s.guardM h.g
    (g.getLsbD idx.toNat = false → exec (.vext h d a ty idx) s = .next ((s.takes h).leaves h) ∧
      exec (.vins h dv d ty idx) s = .next ((s.takes h).leaves h)) ∧
    (g = 0 → exec (.vcntp h d pd) s = .next ((s.takes h).leaves h)) ∧
    ((∀ e, e < 512 / ew.bits → g.getLsbD e = false) → ∃ t, exec (.vmaski h pd ew n) s = .next t ∧ s.wentOn t ∧ t.st.s = s.st.s ∧
      ∀ q, t.st.pm q = s.st.pm q) ∧
    ((∀ e, e < ty.lanes → g.getLsbD e = false) → ∃ t, exec (.vcmp h pd pe ct cc a b ty) s = .next t ∧ s.wentOn t ∧
      t.st.s = s.st.s ∧ t.st.tflags = s.st.tflags ∧ t.me.r.qv = s.me.r.qv ∧ s.sameMemory t ∧
      (ct ≠ .unc → ∀ q, t.st.pm q = s.st.pm q) ∧
      (ct = .unc → ∀ q k, k < 64 → (t.st.pm q).getLsbD k =
        if q ≠ 0 ∧ (q = pd ∨ q = pe) ∧ k < ty.lanes then false else (s.st.pm q).getLsbD k)))

/-- R225, R226, R231: conversions, packing, unpacking and reductions write their destination elements once a lane is active: VCVT
the converted elements of the part it names, VPACK both sources narrowed, VUNPK half a source widened, and a reduction its
result in element 0 and zeros above. R227, R147: VCMP writes r and its complement in the low bits of its destinations, lane by
lane under CT, and leaves the bits above its lanes alone. -/
def Obligations.VectorConversionsAndCompareComplete : Prop :=
  (∀ (s : State) (h : Head) (d : VDst) (a b : VSrc) (ty tz : Ty) (rm : RM) (sat : Bool) (part : BitVec 13), s.canIssueV h →
    (d = .q8 → (s.me.r.qv[4]).length < 16) →
    let g := s.guardM h.g
    let el (t : Ty) (vs : List Vec) (n e : Nat) : Nat := elem t.width (vs.getD n 0) e
    let runs (i : Instr) (srcs : List VSrc) (t : Ty) (act : Nat → Bool) (f : List Vec → Nat → Nat) : Prop :=
      ∀ vs u, (s.takes h).sources srcs = some (vs, u) →
      ∃ r, exec i s = .next r ∧ s.wroteLanes u r d t.width t.lanes act (f vs) ∧ s.wentOn r ∧ s.sameMemory r ∧ r.st.s = s.st.s
    let n := 512 / max ty.width tz.width
    let red (q : Red) (vs : List Vec) (e : Nat) : Nat :=
      if e = 0 then (q.run ty rm sat ((List.range ty.lanes).map (el ty vs 0)) (lanesOf g ty.lanes)).1 else 0
    let some (t : Ty) : Prop := ∃ e, e < t.lanes ∧ g.getLsbD e = true
    ((Instr.vcvt h d a ty tz rm sat part).fieldError .v = none → (∃ e, e < n ∧ g.getLsbD e = true) →
      runs (.vcvt h d a ty tz rm sat part) [a] tz
        (fun k => if tz.width < ty.width then decide (part.toNat * n ≤ k ∧ k < part.toNat * n + n) && g.getLsbD (k - part.toNat * n)
          else decide (k < n) && g.getLsbD k)
        (fun vs k => (convert ty tz rm sat (el ty vs 0
          (if ty.width < tz.width then part.toNat * n + k else if tz.width < ty.width then k - part.toNat * n else k))).1)) ∧
    ((Instr.vpack h d a b ty tz sat).fieldError .v = none → g.getLsbD 0 = true →
      runs (.vpack h d a b ty tz sat) [a, b] tz (fun _ => true) (fun vs k =>
        (convert ty tz .rne sat (el ty vs (k / ty.lanes) (k % ty.lanes))).1)) ∧
    ((Instr.vunpk h d a ty tz part).fieldError .v = none → g.getLsbD 0 = true →
      runs (.vunpk h d a ty tz part) [a] tz (fun _ => true) (fun vs k =>
        wrap tz.width (intOf ty (el ty vs 0 (part.toNat * tz.lanes + k))))) ∧
    (ty.isInt = true ∨ ty.isF = true → some ty →
      runs (.vrsum h d a ty rm sat) [a] ty (fun _ => true) (red .sum) ∧
      runs (.vrsumsq h d a ty rm sat) [a] ty (fun _ => true) (red .sumsq) ∧
      (rm = .rne → sat = false →
        runs (.vrmax h d a ty) [a] ty (fun _ => true) (red .max) ∧
        runs (.vrmin h d a ty) [a] ty (fun _ => true) (red .min) ∧
        runs (.vramax h d a ty) [a] ty (fun _ => true) (red .amax)))) ∧
  (∀ (s : State) (h : Head) (pd pe : PIx) (ct : CT) (cc : CC) (a b : VSrc) (ty : Ty) (vs : List Vec) (u : State),
    s.canIssueV h → ty.isX = true → (pd = pe → pd = 0) →
    let g := s.guardM h.g
    (∃ e, e < ty.lanes ∧ g.getLsbD e = true) → (s.takes h).sources [a, b] = some (vs, u) →
    let rel (e : Nat) : Bool :=
      let m := elem ty.width (vs.getD 0 0) e
      let n := elem ty.width (vs.getD 1 0) e
      if tyFl ty then ccFloat cc (fvalue ty m) (fvalue ty n) else ccInt cc ty.width m n
    ∃ t, exec (.vcmp h pd pe ct cc a b ty) s = .next t ∧ s.wentOn t ∧ s.sameMemory t ∧
      (∀ k, k < 64 → ty.lanes ≤ k → ∀ q, (t.st.pm q).getLsbD k = (s.st.pm q).getLsbD k) ∧
      (∀ k, k < ty.lanes → pd ≠ 0 →
        (t.st.pm pd).getLsbD k = combinedD ct (g.getLsbD k) (rel k) ((s.st.pm pd).getLsbD k)) ∧
      (∀ k, k < ty.lanes → pe ≠ 0 →
        (t.st.pm pe).getLsbD k = combinedE ct (g.getLsbD k) (rel k) ((s.st.pm pe).getLsbD k)))

/-- R229, R232, R233: VEXT and VINS move one element between a vector and a scalar, VMASKI writes the first n lanes of a mask and
VCNTP counts a mask's bits under the guard. R234, R235: with no matrix command on its set outstanding, VACCRD converts the
active elements of its row segment into its destination, and VACCWR rounds the active elements of its source into the
accumulators and changes no other element.
Rests also on the model's own readings in notes/assumptions, entry 36. -/
def Obligations.VectorScalarAndAccumulatorFormsComplete : Prop :=
  (∀ (s : State) (h : Head) (dv : Fin 16) (d x : SIx) (a : VSrc) (ty : Ty) (idx : BitVec 13) (pd pa : PIx) (ew : Ew)
    (n : BitVec 7), s.canIssueV h → ty.isX = true → idx.toNat < ty.lanes → n.toNat ≤ 64 →
    let g := s.guardM h.g
    (g.getLsbD idx.toNat = true → ∀ vs u, (s.takes h).sources [a] = some (vs, u) → ∃ t, exec (.vext h d a ty idx) s = .next t ∧
      s.wentOn t ∧ t.sr d = loadValue ty (elem ty.width (vs.getD 0 0) idx.toNat) ∧ (∀ k, k ≠ d → t.sr k = s.sr k) ∧
      t.me.r.vr = s.me.r.vr) ∧
    (g.getLsbD idx.toNat = true → ∃ t, exec (.vins h dv x ty idx) s = .next t ∧ s.wentOn t ∧ t.st.s = s.st.s ∧
      s.wroteLanes s t (.v dv) ty.width ty.lanes (fun e => e == idx.toNat) (fun _ => (s.sr x).toNat)) ∧
    (∃ t, exec (.vmaski h pd ew n) s = .next t ∧ s.wentOn t ∧ (∀ q, q ≠ pd → t.st.pm q = s.st.pm q) ∧ (pd ≠ 0 → ∀ k, k < 64 →
      (t.st.pm pd).getLsbD k = if decide (k < 512 / ew.bits) && g.getLsbD k then decide (k < n.toNat) else (s.st.pm pd).getLsbD k)) ∧
    (g ≠ 0 → ∃ t, exec (.vcntp h d pa) s = .next t ∧ s.wentOn t ∧ (∀ k, k ≠ d → t.sr k = s.sr k) ∧
      (t.sr d).toNat = ((List.range 64).filter fun k => (s.st.pm pa).getLsbD k && g.getLsbD k).length)) ∧
  (∀ (s : State) (h : Head) (d : VDst) (a : VSrc) (acc : Fin 4) (row : Fin 64) (seg : Fin 4) (ty tz : Ty) (rm : RM)
    (sat : Bool), s.canIssueV h → s.st.sample = none → s.me.q11 = [] → s.me.mx = none → risingFrom 0 s.me.acc = true →
    let g := s.guardM h.g
    ((Instr.vaccrd h d acc row seg ty tz rm sat).fieldError .v = none → (d = .q8 → (s.me.r.qv[4]).length < 16) →
      (∃ e, e < tz.lanes ∧ g.getLsbD e = true) → ∃ t, exec (.vaccrd h d acc row seg ty tz rm sat) s = .next t ∧ s.wentOn t ∧
        s.wroteLanes s t d tz.width tz.lanes (fun e => g.getLsbD e) (fun e =>
          (convert ty tz rm sat (s.me.accGet (4096 * acc.val + 64 * row.val + seg.val * tz.lanes + e)).toNat).1) ∧
        t.me.acc = s.me.acc) ∧
    ((Instr.vaccwr h a acc row seg ty tz rm sat).fieldError .v = none → (∃ e, e < ty.lanes ∧ g.getLsbD e = true) →
      ∀ vs u, (s.takes h).sources [a] = some (vs, u) → ∃ t, exec (.vaccwr h a acc row seg ty tz rm sat) s = .next t ∧ s.wentOn t ∧
        t.me.r.vr = s.me.r.vr ∧ ∀ key, t.me.accGet key =
          let e := key - (4096 * acc.val + 64 * row.val + seg.val * ty.lanes)
          if 4096 * acc.val + 64 * row.val + seg.val * ty.lanes ≤ key ∧ e < ty.lanes ∧ g.getLsbD e = true then
            BitVec.ofNat 56 (toAcc ty tz rm sat (elem ty.width (vs.getD 0 0) e)).1
          else s.me.accGet key))

/-! ### A's vector queues (R202 to R204) -/

/-- R202, R194: LDQ with its checks passed, room in its queue and its granules full where its code waits, and no poisoned data,
appends one entry whose elements are the tensor's, zero where clipped away. R203, R181, R114: STQ with its checks passed takes
the oldest entry of q8 and stores its masked elements that lie inside the shape, granule by granule, each in one operation of
its target. R204: QSPLAT with room in its queue appends an entry every element of which is the low bits of SA. -/
def Obligations.LdqStqAndQsplatComplete : Prop :=
  (∀ (s : State) (h : Head) (hs : HIx) (tt : TIx) (q : Fin 4) (i j : SIx) (clip : Clip) (fe : Fe) (bp : Bool) (x : Handle)
    (t : Word), s.canIssue h →
    let u := s.takes h
    let es := vqElems t (coord (s.sr i)) (coord (s.sr j)) clip
    let sp := vqSpan t es
    let g := hTgt s.cur x (hBase x + sp.1)
    let r := u.readTgt s.cur g bp (Fe.rd fe false) sp.2
    u.readH hs = some x → u.readT tt = some t →
    vqFault x t (coord (s.sr i)) (coord (s.sr j)) clip fe bp false = none →
    (sp.2 ≠ 0 → u.tgtFault g bp sp.2 = none) → (s.vq q.val).length < 16 →
    (fe ≠ .plain → ∀ w ∈ u.spanGrans x bp sp.1 sp.2, (u.gran w.1 w.2).full = true) → r.pois = false → r.unc = false →
    ∃ v e, exec (.ldq h hs tt q i j clip fe bp) s = .next v ∧ v.vq q.val = s.vq q.val ++ [e] ∧ e.mask = BitVec.allOnes 64 ∧
      (∀ k, k < vecN t → elem (vecW t) e.data k = ((es.getD k none).elim 0 (vqElem t sp.1 r.data)) % 2 ^ vecW t) ∧
      v.st.pos = { s.st.pos with lane := s.st.pos.lane + 1 } ∧ s.sameMemory v) ∧
  (∀ (s : State) (h : Head) (hs : HIx) (tt : TIx) (i j : SIx) (clip : Clip) (fe : Fe) (bp : Bool) (x : Handle) (t : Word)
    (e : QEntry) (r : List QEntry), s.canIssue h →
    let u := s.takes h
    let cs := stqBytes t (coord (s.sr i)) (coord (s.sr j)) e
    let rs := runsOf cs
    let tg (p : Nat × List Byte) := hTgt s.cur x (hBase x + p.1)
    u.readH hs = some x → u.readT tt = some t → vqFault x t (coord (s.sr i)) (coord (s.sr j)) clip fe bp true = none →
    s.vq 4 = e :: r → (∀ p ∈ rs, u.tgtFault (tg p) bp p.2.length = none) →
    (fe = .one → ∀ p ∈ rs, ∀ w ∈ u.spanGrans x bp p.1 p.2.length, (u.gran w.1 w.2).full = false) →
    (∀ p ∈ rs, u.pushFull s.cur (tg p) p.2.length = false) →
    exec (.stq h hs tt i j clip fe bp) s =
      .next (((gransOf (cs.map fun c => (hBase x + c.1, c.2))).foldl
        (fun v g => v.storeGran s.cur (hTgt s.cur x (16 * g.1)) bp (fe != .plain) g.2) (u.setVq 4 r).orderReads).leaves h)) ∧
  (∀ (s : State) (h : Head) (q : Fin 4) (a : SIx) (ew : Ew), s.canIssue h → (s.vq q.val).length < 16 →
    ∃ t e, exec (.qsplat h q a ew) s = .next t ∧ t.vq q.val = s.vq q.val ++ [e] ∧ e.mask = BitVec.allOnes 64 ∧
      (∀ k, k < 512 / ew.bits → elem ew.bits e.data k = (s.sr a).toNat % 2 ^ ew.bits) ∧ t.st.s = s.st.s ∧
      t.st.pos = { s.st.pos with lane := s.st.pos.lane + 1 } ∧ s.sameMemory t)
/-- R290, R292, R304, R310, R322, R330, R332, R339: with its parameter block readable, its checks passed and room in its queue,
POOL, HOTQ, SKQ, SCUPD, NMRUN, IXWALK, A2A, XRED and XPUT each place one record at the end of their queue that holds the
block (the query word for HOTQ and SKQ), the signal, the phase and the queue's next sequence number.
Rests also on the model's own readings in notes/assumptions, entry 37. -/
def Obligations.PackageFormsIssue : Prop :=
  ∀ (s : State) (h : Head) (a : SIx) (sig : Option (Fin 16)) (p : List Word), s.canIssue h → s.me.injArm = false →
    let u := s.takes h
    let ad := (s.sr a).toNat
    let g (n : Nat) := u.readTgt s.cur (.loc s.cur ad) false .newest n
    let blockIs (n : Nat) : Prop :=
      ad % 16 = 0 ∧ ad + n ≤ scrbytes s.res.hdr ∧ (g n).pois = false ∧ p = wordsOf (n / 8) (g n).data
    let next (t : State) : Prop := t.st.pos = { s.st.pos with lane := s.st.pos.lane + 1 } ∧ t.st.s = s.st.s
    let seq (n : Fin 5) : Nat := (s.me.eseq[n] + 1) % 2 ^ 32
    let pooled (i : Instr) (opc sub : Nat) (param : List Word) : Prop := ∃ t x, exec i s = .next t ∧
      t.me.q16 = s.me.q16 ++ [x] ∧ x.opc = opc ∧ x.sub = sub ∧ x.param = param ∧ x.sig = sig ∧ x.ph = s.me.ph ∧
      x.seq = seq 0 ∧ t.me.eseq[0] = seq 0 ∧ next t ∧ s.sameMemory t
    let tab := (s.ctx s.cx).tab (bits ad 41 32)
    let query (i : Instr) (opc sub : Nat) : Prop := bits ad 63 42 = 0 → tbValid tab = true → u.leaseFault (tbExts tab) = none →
      pooled i opc sub [s.sr a, 0, 0, 0]
    let updates (i : Instr) (opt : Nat) : Prop := blockIs 64 → u.scFault opt p = none →
      s.me.q18.length + b2n s.me.srun.isSome < 16 → ∃ t x, exec i s = .next t ∧ t.me.q18 = s.me.q18 ++ [x] ∧ x.opt = opt ∧
        x.param = p ∧ x.sig = sig ∧ x.ph = s.me.ph ∧ x.seq = seq 1 ∧ next t ∧ s.sameMemory t
    let exchanges (i : Instr) (form sub : Nat) : Prop := blockIs 64 → u.spFault form p = none → s.me.q22.length < 16 →
      ∃ t x, exec i s = .next t ∧ t.me.q22 = s.me.q22 ++ [x] ∧ x.form = form ∧ x.sub = sub ∧ x.param = p ∧ x.sig = sig ∧
        x.ph = s.me.ph ∧ x.seq = seq 4 ∧ next t ∧ s.sameMemory t
    (s.me.q16.length + b2n s.me.prun.isSome < 32 →
      (blockIs 32 → u.poolFault p = none → pooled (.pool h a sig) 0 0 p) ∧
      query (.hotqLook h a sig) 1 0 ∧ (u.shardFault tab = none → query (.hotqFill h a sig) 1 1) ∧ query (.hotqInv h a sig) 1 2 ∧
      query (.hotqDrops h a sig) 1 3 ∧ query (.skqEst h a sig) 2 0 ∧ query (.skqClr h a sig) 2 1) ∧
    updates (.scupdSgd h a sig) 0 ∧ updates (.scupdAdagrad h a sig) 1 ∧ updates (.scupdAdam h a sig) 2 ∧
    (blockIs 128 → nmFieldsOk p false = true → (s.ctx s.cx).nmFault p ((upto 0 5).map (nmTrip p)) = none →
      u.leaseFault ((s.ctx s.cx).nmExts p) = none → s.me.q19.length < 8 → ∃ t x, exec (.nmrun h a sig) s = .next t ∧
        t.me.q19 = s.me.q19 ++ [x] ∧ x.desc = p ∧ x.sig = sig ∧ x.ph = s.me.ph ∧ x.seq = seq 2 ∧ next t ∧ s.sameMemory t) ∧
    (blockIs 32 → u.walkFault p = none → s.me.q20.length + b2n s.me.wrun.isSome < 16 →
      s.mayPublish → ∃ t x, exec (.ixwalk h a sig) s = .next t ∧
        t.me.q20 = s.me.q20 ++ [x] ∧ x.param = p ∧ x.view.par = s.me.r.par ∧ x.sig = sig ∧ x.ph = s.me.ph ∧ x.seq = seq 3 ∧
        t.me.early = true ∧ t.me.pend = [] ∧ t.me.comm = [] ∧ next t ∧ ∀ a, Memory.get t.mem a = s.published a) ∧
    exchanges (.a2aIdx h a sig) 0 0 ∧ exchanges (.a2aVec h a sig) 1 0 ∧ exchanges (.xredSum h a sig) 2 0 ∧
    exchanges (.xredMin h a sig) 2 1 ∧ exchanges (.xredMax h a sig) 2 2 ∧ exchanges (.xput h a sig) 3 0

/-- R298, R325, R334, R344, R345: POOL.POP, IXWALK.POP and A2A.POP take the oldest element of q17, q21 and q23 and wait on an
empty one; NMSTAT reads the word of one of the block's 16 most recent runs, 0 while it is queued, and only UNK for any other;
XABORT commits the phase early and raises its group's attempt number.
Rests also on the model's own readings in notes/assumptions, entry 6. -/
def Obligations.PackageResultsComplete : Prop :=
  ∀ (s : State) (h : Head) (a d : SIx), s.canIssue h →
    let took (i : Instr) (q : Core → List (Word × Nat)) : Prop :=
      (∀ x r, q s.me = x :: r → ∃ t, exec i s = .next t ∧ q t.me = r ∧ t.sr d = x.1 ∧ (∀ k, k ≠ d → t.sr k = s.sr k) ∧
        t.st.pos = { s.st.pos with lane := s.st.pos.lane + 1 } ∧ s.sameMemory t) ∧
      (q s.me = [] → ∃ t, exec i s = .next t ∧ t.st.blk = .engineQ ∧ t.st.pos = s.st.pos ∧ t.st.s = s.st.s ∧ s.sameMemory t)
    let n := (s.sr a).toNat % 2 ^ 32
    let stat (v : Nat) : Prop := exec (.nmstat h d a) s = .next (s.gives h d (w64 v) 0)
    took (.poolPop h d) (fun c => c.q17) ∧ took (.ixwalkPop h d) (fun c => c.q21) ∧ took (.a2aPop h d) (fun c => c.q23) ∧
    stat (nmWord s s.me n) ∧
    let recent := ((s.me.q19.reverse.map fun x => x.seq) ++ s.me.nmseq.map fun e => e.1).take 16
    (n ∈ recent → (∃ x ∈ s.me.q19, x.seq = n) → stat 0) ∧
    (n ∉ recent → stat (2 ^ 47)) ∧
    (∀ g, mget (s.ctx s.cx).groups ((s.sr a).toNat % 64) = some g → s.me.injArm = false →
      s.mayPublish → ∃ t x, exec (.xabort h a) s = .next t ∧
        mget (t.ctx s.cx).groups ((s.sr a).toNat % 64) = some x ∧ x.att = g.att + 1 ∧ t.me.early = true ∧ t.me.pend = [] ∧
        t.me.comm = [] ∧
        t.st.pos = { s.st.pos with lane := s.st.pos.lane + 1 })

/-! ### Engine events -/

/-- R211 to R213: a free transfer queue takes its head, outbound only once its phase has ended or committed; the running copy
passes its semaphore; the last unit of an I8 FILL of memory, when it begins a granule, is written to the outbound bytes and ends
the copy; at its completion, on a core that is not halted, those bytes, no others, become visible in memory, its semaphore is
signalled and its entry enters q25 when it asks for one.
Rests also on the model's own readings in notes/assumptions, entry 39. -/
def Obligations.CopyEngineEvents : Prop :=
  ∀ (s : State) (k : Nat) (q : Fin 4), s.engineOn k = true →
    let c := s.core k
    (∀ x r, s.haltedCore k = false → c.crun[q] = none → c.cq[q] = x :: r →
      (x.outb = true → x.ph = c.ph → c.early = true ∨ x.cancelled = true) → ∃ t y, exec (.copyCommand k q) s = .next t ∧
        (t.core k).cq[q] = r ∧ (t.core k).crun[q] = some y ∧ y.cmd = x ∧ y.next = 0 ∧
        y.waited = (!x.sems.wen || x.silent) ∧ y.done = x.cancelled ∧ s.sameMemory t) ∧
    (∀ x, c.crun[q] = some x → x.done = false → x.cancel = false → x.waited = false → c.semq[x.cmd.sems.semw] = [] →
      1 ≤ c.sem[x.cmd.sems.semw] → s.waitRival k x.cmd.sems.semw (.copy q) s.schedule = false →
      ∃ t, exec (.copyCommand k q) s = .next t ∧ (t.core k).crun[q] = some { x with waited := true } ∧
        (t.core k).sem[x.cmd.sems.semw] = c.sem[x.cmd.sems.semw] - 1 ∧ s.sameMemory t) ∧
    (∀ x, c.crun[q] = some x → x.done = false → x.cancel = false → x.waited = true → x.cmd.op = .fill → x.buf = [] →
      tType x.cmd.dshape = .i8 → x.cmd.dst.kind = .mem → x.next + 1 = x.cmd.units →
      ∃ t y, exec (.copyCommand k q) s = .next t ∧ (t.core k).crun[q] = some y ∧ y.cmd = x.cmd ∧ y.done = true ∧
        y.out = x.out ++ [(x.cmd.dst.addr + (x.next / x.cmd.perRow * tStride x.cmd.dshape + x.next % x.cmd.perRow),
          x.cmd.i.setWidth 8)] ∧ s.sameMemory t) ∧
    (∀ x, c.crun[q] = some x → x.done = true → c.mark ≠ .dying → x.cmd.silent = false → x.cancel = false → x.first = none →
      s.haltedCore k = false → (x.cmd.flags.evt = true → c.qUsed 25 < 64) → (x.cmd.outb = true →
        s.rowsPinned (x.out.map fun b => b.1) = false) →
      Memory.wf s.mem = true → ∃ t, exec (.copyCompletion k q) s = .next t ∧ (t.core k).crun[q] = none ∧
        (t.core k).q25 = c.q25 ++ (if x.cmd.flags.evt then [⟨copyEntry x 0, x.cmd.ph, some (12 + q.val, x.cmd.seq)⟩] else []) ∧
        (∀ n, (t.core k).sem[n] = if x.cmd.sems.sen = true ∧ n = x.cmd.sems.sems then min (c.sem[n] + 1) 65535 else c.sem[n]) ∧
        (∀ a, Memory.get t.mem a = if x.cmd.outb then
          x.out.foldl (fun b e => if e.1 = a then e.2 else b) (Memory.get s.mem a) else Memory.get s.mem a))

/-- R183, R194, R208 to R212: the last unit of a running copy of I8 elements, with plain flags, that begins a granule: FILL gives the
low byte of its value, COPY and TRING the element of local scratch at (SI + i, SJ + j), GATHER that of the row its list names,
each clipped; it is written to element (i, j) of the destination, a granule of local scratch becoming full, or joins the bytes
that become visible in memory; SCATTER writes element (i, j) to the row its list names and nothing where that is outside.  A
TRING's panel counts as present, once it is the ring's next, from the end of its last granule on (R210, R244); its completion moves
no ring.
Rests also on the model's own readings in notes/assumptions, entry 39. -/
def Obligations.CopyEngineMoves : Prop :=
  (∀ (s : State) (k : Nat) (q : Fin 4) (x : CopyRun), s.engineOn k = true → s.haltedCore k = false → (s.core k).crun[q] = some x →
    x.done = false → x.cancel = false → x.waited = true → x.buf = [] → x.next + 1 = x.cmd.units → tType x.cmd.dshape = .i8 →
    x.cmd.flags.sfe = .plain → x.cmd.flags.dwe = false → x.cmd.flags.bps = false → x.cmd.flags.bpd = false →
    let d := x.cmd
    let lim := scrbytes (s.core k).res.hdr
    let i := x.next / d.perRow
    let j := x.next % d.perRow
    let srcAt (p : Nat × Nat) : Nat := d.src.addr + (p.1 * tStride d.sshape + p.2)
    let dstAt (p : Nat × Nat) : Nat := d.dst.addr + (p.1 * tStride d.dshape + p.2)
    let element (e : Option (Nat × Nat)) : Byte := e.elim 0 fun p => s.localByte k d.view (srcAt p)
    let readable (e : Option (Nat × Nat)) : Prop :=
      d.src.kind = .local ∧ tType d.sshape = .i8 ∧ ∀ p, e = some p → srcAt p < lim
    let g := (s.core k).ring[d.ring]
    let ended (t : State) : Prop := (∃ y, (t.core k).crun[q] = some y ∧ y.cmd = d ∧ y.done = true ∧ s.sameMemory t) ∧
      (d.op = .tring → g.done = [] → panelDiff d.panel g.tail < 512 →
        ((t.core k).ring[d.ring]).tail = if d.panel = g.tail then (g.tail + 1) % 2 ^ 32 else g.tail)
    let wrote (p : Nat × Nat) (v : Byte) : Prop :=
      (d.dst.kind = .local → dstAt p < lim →
        let o := dblMap (s.core k).res.hdr d.view.par (dstAt p)
        ∃ t, exec (.copyCommand k q) s = .next t ∧ ended t ∧ t.granByte (.scr k) o = v ∧
          (∀ b, b ≠ o → t.granByte (.scr k) b = s.granByte (.scr k) b) ∧
          ∀ g, (t.gran (.scr k) g).full = ((s.gran (.scr k) g).full || g == o / 16)) ∧
      (d.dst.kind = .mem → ∃ t, exec (.copyCommand k q) s = .next t ∧ ended t ∧
        ((t.core k).crun[q].map fun y => y.out) = some (x.out ++ [(dstAt p, v)]) ∧
        ∀ b, t.granByte (.scr k) b = s.granByte (.scr k) b)
    let listed := s.listAt k d i
    (d.op = .fill → wrote (i, j) (d.i.setWidth 8)) ∧
    (d.op = .copy ∨ d.op = .tring → ∀ e, e = clipElem d.flags.clip d.sshape (coord d.i + i) (coord d.j + j) → readable e →
      wrote (i, j) (element e)) ∧
    (d.op = .gather → ∀ e, e = clipElem d.flags.clip d.sshape listed (coord d.i + j) → readable e → wrote (i, j) (element e)) ∧
    (d.op = .scatter → readable (some (i, j)) → ∀ e, e = clipElem .zero d.dshape listed (coord d.j + j) →
      (∀ p, e = some p → wrote p (element (some (i, j)))) ∧
      (e = none → ∃ t, exec (.copyCommand k q) s = .next t ∧ ended t ∧ ((t.core k).crun[q].map fun y => y.out) = some x.out ∧
        ∀ b, t.granByte (.scr k) b = s.granByte (.scr k) b))) ∧
  (∀ (s : State) (k : Nat) (q : Fin 4) (x : CopyRun), s.engineOn k = true → s.haltedCore k = false → (s.core k).crun[q] = some x →
    x.done = true → x.cancel = false → x.first = none → x.cmd.silent = false → x.cmd.op = .tring → x.cmd.outb = false →
    (s.core k).mark ≠ .dying → (x.cmd.flags.evt = true → (s.core k).qUsed 25 < 64) →
    ∃ t, exec (.copyCompletion k q) s = .next t ∧ (t.core k).crun[q] = none ∧ (t.core k).ring = (s.core k).ring)

/-- R294 to R297, R299, R304: the pool unit takes the head of q16 once its phase has ended or committed early; a bag whose vector
and status rows no pin holds writes its vector and its status byte and nothing else of memory, and the next bag comes; R131 to R133: of
a bag whose list in local scratch is clean the vector is zero under status 0x50 where an offset, a position or a row is out of range,
the canonical NaN under 0x40 where a row's data are uncorrectable, and otherwise, element by element, the one rounding of the exact
sum of its rows' terms in units of 2^pe, saturated under 0x54, NaN where a term is NaN (rows from memory, no own store pending at the
push); a term of a floating row is its element, of an integer row scale × q + bias; an SKQ.EST
answers the row's estimate after every decay that is due; on a core that is not halted a completed command's element enters q17 together
with its signal; the decays that are due halve every counter of their table, once for each interval, and no other, and set the
next.
Rests also on the model's own readings in notes/assumptions, entry 32. -/
def Obligations.PoolUnitEvents : Prop :=
  (∀ (s : State) (k : Nat), s.engineOn k = true →
    let c := s.core k
    (∀ x r, s.haltedCore k = false → c.prun = none → c.q16 = x :: r → c.freed x.ph = true → ∃ t, exec (.poolUnitCommand k) s = .next t ∧
      (t.core k).q16 = r ∧ (t.core k).prun = some ⟨x, 0, 0, none, none, false⟩ ∧ s.sameMemory t) ∧
    (∀ x, c.prun = some x → x.done = false →
      let p := x.cmd.param
      let vo := plRoff p + plOstr p * x.bag
      let b := s.bagWork k x
      let w := wd p 0
      let y := s.decaysDue.ctx c.res.ctx.val
      let tb := y.tab (bits w 41 32)
      (x.cmd.opc = 0 → x.cmd.res.kind = .mem → Memory.wf s.mem = true →
        s.outPinned x.cmd.res vo (tbW ((s.ctx c.res.ctx.val).tab (plTid p)) * ((plOty p).width / 8)) = false →
        s.outPinned x.cmd.res (plSoff p + x.bag) 1 = false → ∃ t y, exec (.poolUnitCommand k) s = .next t ∧
          (t.core k).prun = some y ∧ y.cmd = x.cmd ∧ y.bag = x.bag + 1 ∧ (y.done = true ↔ plBags p ≤ x.bag + 1) ∧
          ∀ a, Memory.get t.mem a =
            if a = x.cmd.res.addr + (plSoff p + x.bag) then BitVec.ofNat 8 b.status
            else if x.cmd.res.addr + vo ≤ a ∧ a < x.cmd.res.addr + vo + b.vec.length then b.vec.getD (a - (x.cmd.res.addr + vo)) 0
            else Memory.get s.mem a) ∧
      (x.cmd.opc = 2 → x.cmd.sub = 0 → bits w 31 0 < tbRows tb → ∃ t, exec (.poolUnitCommand k) s = .next t ∧
        (t.core k).prun = some { x with
          word := some (w64 (y.estimate tb (bits w 41 32) (bits w 31 0))), done := true } ∧ s.sameMemory t)) ∧
    (∀ x, c.prun = some x → x.done = true → c.mark ≠ .dying → s.haltedCore k = false → c.qUsed 17 < 32 →
      ∃ t, exec (.poolUnitCompletion k) s = .next t ∧
      (t.core k).prun = none ∧ (t.core k).q17 = c.q17 ++ [(poolElem x, x.cmd.ph)] ∧ s.sameMemory t ∧
      ∀ n, (t.core k).sem[n] = if x.cmd.sig = some n then min (c.sem[n] + 1) 65535 else c.sem[n])) ∧
    (∀ (s : State) (k : Nat) (x : PoolRun), x.cmd.list.kind = .local → (∀ n, (s.gran (.scr k) n).pois = false) →
      let p := x.cmd.param
      let c := (s.core k).res.ctx.val
      let tb := (s.ctx c).tab (plTid p)
      let oty := plOty p
      let n := oty.width / 8
      let num (o : Nat) : Nat := ofBytes ((upto (x.cmd.list.addr + o) 4).map (s.localByte k x.cmd.view))
      let o0 := num (plLoff p + 4 * x.bag)
      let o1 := num (plLoff p + 4 * x.bag + 4)
      let ns := (upto o0 (o1 - o0)).map fun i => num (plIoff p + 4 * i)
      let bad : Prop := o1 < o0 ∨ 65536 < o1 - o0 ∨ (o0 < o1 ∧ x.cmd.list.len < plIoff p + 4 * o1) ∨ ∃ r ∈ ns, tbRows tb ≤ r
      let b := s.bagWork k x
      let row (r : Nat) : Nat := (s.ctx c).rowAddr tb r
      let term (r e : Nat) : Val := (rowTerms tb (s.peekBytes (row r) (tbBytes tb))).getD e (dyad 0 0 false)
      let sum (e : Nat) : Int := (ns.map fun r => (toP56 (term r e) (tbPe tb)).1).sum
      let cut (v : Int) : Int := max (-(2 ^ 55)) (min (2 ^ 55 - 1) v)
      let el (e : Nat) : List Byte := (b.vec.drop (n * e)).take n
      (bad → b.status = 0x50 ∧ b.rows = [] ∧ b.vec = List.replicate (tbW tb * n) 0) ∧
      (¬bad → plNohot p = true ∨ tbHot tb = false → x.cmd.view.pend = [] →
        ((∃ r ∈ ns, s.poisoned (row r) (tbBytes tb) = true) →
          b.status = 0x40 ∧ ∀ e, e < tbW tb → el e = toBytes n (canonNaN oty)) ∧
        ((∀ r ∈ ns, s.poisoned (row r) (tbBytes tb) = false) →
          (b.status = if (List.range (tbW tb)).any fun e => decide (cut (sum e) ≠ sum e) || ns.any fun r => (toP56 (term r e) (tbPe tb)).2
            then 0x54 else 0) ∧
          ∀ e, e < tbW tb → el e = toBytes n (if ns.any fun r => (term r e).isNaN then canonNaN oty
            else (roundTo oty (dyad (cut (sum e)) (tbPe tb) false) .rne false).1))) ∧
      (∀ r e, e < tbW tb →
        let w := (tbTy tb).width / 8
        let half (o : Nat) : Val := fvalue .f16 (s.peek (row r + tbData tb + o) 2)
        ((tbTy tb).isFloat = true → term r e = fvalue (tbTy tb) (s.peek (row r + w * e) w)) ∧
        (tbTy tb = .i8 → term r e = (((half 0).mul (ivalue (sgn 8 (s.peek (row r + e) 1)))).1.add (half 2) .rne).1))) ∧
    (∀ (s : State) (cx : Fin 8) (tid : Fin 1024),
      let y := s.ctx cx.val
      let tb := y.tab tid.val
      tbValid tb = true → tbSke tb = true → tbDecay tb ≠ 0 → mgetD y.decayAt tid.val 0 ≤ s.rtime → risingFrom 0 y.sketch = true →
      let n := (s.rtime - mgetD y.decayAt tid.val 0) / (tbDecay tb * 1000000) + 1
      ∃ t, exec (.sketchDecay cx tid) s = .next t ∧ s.sameMemory t ∧
        mgetD (t.ctx cx.val).decayAt tid.val 0 = mgetD y.decayAt tid.val 0 + n * tbDecay tb * 1000000 ∧
        ∀ key, mgetD (t.ctx cx.val).sketch key 0 =
          if key / 2 ^ 18 = tid.val then mgetD y.sketch key 0 / 2 ^ min n 16 else mgetD y.sketch key 0)

/-- R299: a bag whose index list is readable and in range adds each row's occurrences to the row's four counters, saturating,
after every decay that is due. R297, R302, R304 to R306: the answers of the queries: a row out of range has status 0x50;
HOTQ.LOOK, HOTQ.FILL, HOTQ.INV and HOTQ.DROPS answer HIT, WAY, FILLED, DROPPED, the estimate or the dropped fills, a fill takes
the row's bytes into its way or counts a drop, an invalidation leaves no valid way of the row; SKQ.CLR clears the counters and the
scores of its table and of no other.
Rests also on the model's own readings in notes/assumptions, entries 32 and 49. -/
def Obligations.PoolCountsAndQueries : Prop :=
  ∀ (s : State) (k : Nat) (x : PoolRun), s.engineOn k = true → (s.core k).prun = some x → x.done = false →
    let c := (s.core k).res.ctx
    let p := x.cmd.param
    let y := s.decaysDue
    (∀ ns, let tb := (s.ctx c.val).tab (plTid p)
      let l := s.bagRows k x (tbRows tb)
      x.cmd.opc = 0 → x.cmd.res.kind = .mem → plNosk p = false → tbSke tb = true → l.1 = .ok ns → l.2.1 = false →
      s.outPinned x.cmd.res (plRoff p + plOstr p * x.bag) (tbW tb * ((plOty p).width / 8)) = false →
      s.outPinned x.cmd.res (plSoff p + x.bag) 1 = false → risingFrom 0 (s.ctx c.val).sketch = true →
      ∃ t, exec (.poolUnitCommand k) s = .next t ∧ ∀ key, mgetD (t.ctx c.val).sketch key 0 =
        (rowCounts ns).foldl (fun v e => if key ∈ sketchKeys (plTid p) e.1 then min 65535 (v + e.2) else v)
          (mgetD (y.ctx c.val).sketch key 0)) ∧
    (let w := wd p 0
      let tid := bits w 41 32
      let r := bits w 31 0
      let tb := (y.ctx c.val).tab tid
      let est := (y.ctx c.val).estimate tb tid r
      let set := y.hotSet c.val tid r
      let answered (t : State) (v : Nat) : Prop :=
        exec (.poolUnitCommand k) s = .next t ∧ (t.core k).prun = some { x with word := some (w64 v), done := true } ∧ s.sameMemory t
      (x.cmd.opc ≠ 0 → tbRows tb ≤ r → ∃ t, answered t (0x50 * 2 ^ 48) ∧ t.ways = y.ways) ∧
      (x.cmd.opc = 1 → r < tbRows tb →
        (x.cmd.sub = 3 → ∃ t, answered t (mgetD (y.ctx c.val).drops tid 0)) ∧
        (x.cmd.sub < 3 → tbHot tb = false → ∃ t, answered t est ∧ t.ways = y.ways) ∧
        (x.cmd.sub = 0 → tbHot tb = true → ∃ t, t.ways = y.ways ∧
          answered t ((y.hotWay c.val tid r).elim (queryWord false 0 false false est) fun h => queryWord true h.1 false false est)) ∧
        (x.cmd.sub = 1 → tbHot tb = true →
          (∀ h, y.hotWay c.val tid r = some h → ∃ t, t.ways = y.ways ∧ answered t (queryWord true h.1 false false est)) ∧
          (y.hotWay c.val tid r = none → y.hrcsz ≠ 0 →
            (∀ n sc, y.victim set = some (n, sc) → ∃ t, answered t (queryWord false n true false est) ∧
              mget t.ways n = some ⟨true, c, tid, r, 0, est % 65536, s.peekBytes ((y.ctx c.val).rowAddr tb r) (tbStr tb)⟩ ∧
              ∀ j, j ≠ n → mget t.ways j = mget y.ways j) ∧
            (y.victim set = none → ∃ t, answered t (queryWord false 0 false true est) ∧ t.ways = y.ways ∧
              mgetD (t.ctx c.val).drops tid 0 = min (2 ^ 32 - 1) (mgetD (y.ctx c.val).drops tid 0 + 1)))) ∧
        (x.cmd.sub = 2 → tbHot tb = true → x.word = none → risingFrom 0 y.ways = true → y.rowPinned c.val tid r = false →
          ∃ t, answered t ((y.hotWay c.val tid r).elim (queryWord false 0 false false est) fun h => queryWord true h.1 false false est) ∧
            ∀ h, y.hotWay c.val tid r = some h → mget t.ways h.1 = none ∧ ∀ j, j ≠ h.1 → mget t.ways j = mget y.ways j)) ∧
      (x.cmd.opc = 2 → x.cmd.sub = 1 → r < tbRows tb → tbSke tb = true → risingFrom 0 (y.ctx c.val).sketch = true →
        ∃ t, answered t 0 ∧
          (∀ key, mgetD (t.ctx c.val).sketch key 0 = if key / 2 ^ 18 = tid then 0 else mgetD (y.ctx c.val).sketch key 0) ∧
          ∀ n, mget t.ways n = (mget y.ways n).map fun v => if v.ctx.val = c.val ∧ v.tid = tid then { v with score := 0 } else v))

/-- R313 to R317: the scatter-update engine takes the head of q18 once its phase has ended or committed early; with no hot row in
the cache, the one row left of an SGD update whose data are readable becomes x − lr·g element by element, no other byte of
memory changes, and the row is counted; a completed update signals, and enters q25 when it asks for an entry or failed.  (On a
core that is not halted.)
Rests also on the model's own readings in notes/assumptions, entry 31. -/
def Obligations.ScatterUpdateEvents : Prop :=
  ∀ (s : State) (k : Nat), s.engineOn k = true →
    let c := s.core k
    (∀ x r, s.haltedCore k = false → c.srun = none → c.q18 = x :: r → c.freed x.ph = true →
      ∃ t y, exec (.scatterUpdateCommand k) s = .next t ∧
      (t.core k).q18 = r ∧ (t.core k).srun = some y ∧ y.cmd = x ∧ y.count = 0 ∧ s.sameMemory t) ∧
    (∀ x r g,
      let p := x.cmd.param
      let tb := (s.ctx c.res.ctx.val).tab (scTid p)
      let n := (tbTy tb).width / 8
      let a := (s.ctx c.res.ctx.val).rowAddr tb r
      let elt (e : Nat) : Nat := (roundTo (tbTy tb) (subR (fvalue (tbTy tb) (s.peek (a + n * e) n))
        (mulR (scF p 4 true) (v32 (g.getD e 0).toNat))) .rne false).1
      s.haltedCore k = false → c.srun = some x → x.rows = [(r, g)] → x.cmd.opt = 0 → g.length = tbW tb →
        s.poisoned a (tbBytes tb) = false → s.ways = [] →
      s.rowHold = [] → Memory.wf s.mem = true → ∃ t y, exec (.rowCommit k) s = .next t ∧ (t.core k).srun = some y ∧
        y.rows = [] ∧ y.count = x.count + 1 ∧ y.stat = x.stat ∧
        (∀ e b, e < tbW tb → b < n → Memory.get t.mem (a + n * e + b) = BitVec.ofNat 8 (elt e / 256 ^ b)) ∧
        (∀ m, m < a ∨ a + n * tbW tb ≤ m → Memory.get t.mem m = Memory.get s.mem m)) ∧
    (∀ x, c.srun = some x → x.rows = [] → c.mark ≠ .dying → s.haltedCore k = false →
      let entry := scEvt x.cmd.param || x.stat != 0
      (entry = true → c.qUsed 25 < 64) → ∃ t, exec (.scatterUpdateCompletion k) s = .next t ∧ (t.core k).srun = none ∧
        (t.core k).q25 = c.q25 ++ (if entry then [⟨scEntry x, x.cmd.ph, some (18, x.cmd.seq)⟩] else []) ∧ s.sameMemory t ∧
        ∀ n, (t.core k).sem[n] = if x.cmd.sig = some n then min (c.sem[n] + 1) 65535 else c.sem[n])

/-- R315 to R317: the one row left of an Adagrad or an Adam update whose data are readable: its elements, its state's first element
and, for Adam, its first moments become what R315's formulas give, and no other byte of memory changes. A row that one way of the
hot-row cache holds: the way loses VALID and the command's pin, and the row is stepped; while another command's pin is there it
is not.  (SGD, in this last clause; no host write waits.)
Rests also on the model's own readings in notes/assumptions, entry 31. -/
def Obligations.ScatterOptimisers : Prop :=
  ∀ (s : State) (k : Nat) (x : ScRun) (r : Nat) (g : List (BitVec 32)), s.engineOn k = true → s.haltedCore k = false →
    (s.core k).srun = some x → x.rows = [(r, g)] → s.rowHold = [] → Memory.wf s.mem = true →
    let c := (s.core k).res.ctx.val
    let p := x.cmd.param
    let tb := (s.ctx c).tab (scTid p)
    let n := (tbTy tb).width / 8
    let a := (s.ctx c).rowAddr tb r
    let st := x.cmd.st.addr + scSoff p + r * scSstr p
    let lr := scF p 4 true
    let eps := scF p 4 false
    let gr (e : Nat) : Val := v32 (g.getD e 0).toNat
    let old (e : Nat) : Val := fvalue (tbTy tb) (s.peek (a + n * e) n)
    let q := meanSq (g.map fun e => v32 e.toNat)
    let stored (t : State) (e : Nat) (v : Val) : Prop := ∀ b, b < n →
      Memory.get t.mem (a + n * e + b) = BitVec.ofNat 8 ((roundTo (tbTy tb) v .rne false).1 / 256 ^ b)
    let stored4 (t : State) (o : Nat) (v : Val) : Prop := ∀ b, b < 4 → Memory.get t.mem (o + b) = BitVec.ofNat 8 (r32 v / 256 ^ b)
    let counted (t : State) : Prop := ∃ y, (t.core k).srun = some y ∧ y.rows = [] ∧ y.count = x.count + 1 ∧ y.stat = x.stat
    g.length = tbW tb → s.poisoned a (tbBytes tb) = false →
    (x.cmd.opt = 1 → s.ways = [] → s.poisoned st 4 = false → st + 4 ≤ a ∨ a + n * tbW tb ≤ st →
      let a2 := addR (v32 (s.peek st 4)) q
      let d := addR (sqrtR a2) eps
      ∃ t, exec (.rowCommit k) s = .next t ∧ counted t ∧ stored4 t st a2 ∧
        (∀ e, e < tbW tb → stored t e (subR (old e) (divR (mulR lr (gr e)) d))) ∧
        ∀ b, ¬(st ≤ b ∧ b < st + 4) → ¬(a ≤ b ∧ b < a + n * tbW tb) → Memory.get t.mem b = Memory.get s.mem b) ∧
    (x.cmd.opt = 2 → s.ways = [] → s.poisoned st 4 = false → s.poisoned (st + 16) (4 * tbW tb) = false →
      st + 16 + 4 * tbW tb ≤ a ∨ a + n * tbW tb ≤ st →
      let m2 (e : Nat) : Val := addR (mulR (scF p 5 true) (v32 (s.peek (st + 16 + 4 * e) 4))) (mulR (scF p 5 false) (gr e))
      let v := addR (mulR (scF p 6 true) (v32 (s.peek st 4))) (mulR (scF p 6 false) q)
      let d := addR (sqrtR (mulR v (scF p 7 false))) eps
      ∃ t, exec (.rowCommit k) s = .next t ∧ counted t ∧ stored4 t st v ∧
        (∀ e, e < tbW tb → stored4 t (st + 16 + 4 * e) (m2 e)) ∧
        (∀ e, e < tbW tb → stored t e (subR (old e) (divR (mulR lr (mulR (m2 e) (scF p 7 true))) d))) ∧
        ∀ b, ¬(st ≤ b ∧ b < st + 4) → ¬(st + 16 ≤ b ∧ b < st + 16 + 4 * tbW tb) → ¬(a ≤ b ∧ b < a + n * tbW tb) →
          Memory.get t.mem b = Memory.get s.mem b) ∧
    (∀ key w, x.cmd.opt = 0 → s.ways = [(key, w)] → s.wayTags c (scTid p) r = [(key, w)] → x.pins = [key] →
      (w.pins = 1 → ∃ t, exec (.rowCommit k) s = .next t ∧ counted t ∧ t.ways = [] ∧
        (∀ e, e < tbW tb → stored t e (subR (old e) (mulR lr (gr e)))) ∧
        ∀ b, b < a ∨ a + n * tbW tb ≤ b → Memory.get t.mem b = Memory.get s.mem b) ∧
      (1 < w.pins → ∃ t, exec (.rowCommit k) s = .next t ∧ (t.core k).srun = some { x with pins := [] } ∧
        t.ways = [(key, { w with valid := false, pins := w.pins - 1 })] ∧ s.sameMemory t))

/-- R321, R322, R324, R326, R327: the one core whose committed run names a chiplet has it join the queue of each of its units; an
inner iteration of a nest without padding multiplies and adds its two elements to the accumulator, rounded once, and writes no
memory, a broadcast element being read once for all units; a unit at its commit boundary under a revocation of its region that is
not late pauses; a core's run whose units are all done enters q25 with its signal, and a job's run ends its job DONE.
Rests also on the model's own readings in notes/assumptions, entry 33. -/
def Obligations.NearMemoryEvents : Prop :=
  ∀ (s : State) (u : Fin 64), s.down = false →
    (∀ k x r, s.nmReady (u.val / 8) = [k] → (s.core k).q19 = x :: r →
      ∃ t, exec (.nearMemoryRun u) s = .next t ∧ (t.core k).q19 = r ∧ t.nextRun = s.nextRun + 1 ∧
        mget t.runs s.nextRun = some (newRun (s.core k).res.ctx (some k) none x.sig x.seq x.desc ((upto 0 5).map (nmTrip x.desc)) x.view) ∧
        (∀ v ∈ nmUnits x.desc, mgetD t.unitQ v [] = mgetD s.unitQ v [] ++ [s.nextRun]) ∧ s.sameMemory t) ∧
    (∀ n r x, s.unitHead u.val = some (n, r, x) →
      let d := r.desc
      let cs := nmCounters r.trips x.iter
      let wa := (nmA d).width / 8
      let wb := (nmB d).width / 8
      let ia := nmIndex d nmStA cs
      let aa := if nmBcast d then nmPhys (nmSrc d) r.abase (nmAbase d) wa ia else s.nmAddr x.unit (nmAbase d) wa ia
      let fresh := (s.peek aa wa, s.poisoned aa wa)
      let a := if nmBcast d then (mget r.abuf x.iter).getD fresh else fresh
      let ab := s.nmAddr x.unit (nmBbase d) wb (nmIndex d nmStB cs)
      let unit (t : State) : Option NmUnit := (mget t.runs n).bind fun q => q.units.find? fun y => y.unit == u.val
      (s.nmReady (u.val / 8) = [] → x.paused = false → (s.ctx r.ctx.val).stopped = false →
        (atCommit r x = true → (s.ctx r.ctx.val).halted = false) → s.pauseDue r x = false → x.iter ≠ 0 → nmOlvl d ≤ 5 →
          (∀ l, l < 5 → nmPad d l = 0) → nmInner d (fun l => cs.getD l 0 == 0) = false →
        nmInner d (fun l => cs.getD l 0 + 1 == r.trips.getD l 1) = false → a.2 = false → s.poisoned ab wb = false →
        s.nmBelowA r x.unit ia = true → s.nmBelow x.unit (nmBbase d) wb (nmIndex d nmStB cs) = true →
        ∃ t, exec (.nearMemoryRun u) s = .next t ∧ s.sameMemory t ∧ unit t = some { x with
          iter := x.iter + 1
          acc := BitVec.ofNat 32 (r32 (rv ((fvalue (nmA d) a.1).fma (fvalue (nmB d) (s.peek ab wb)) (v32 x.acc.toNat) .rne).1))
          done := decide (nmTotal r.trips ≤ x.iter + 1) }) ∧
      (x.paused = false → s.pauseDue r x = true →
        (∀ v ∈ (s.ctx r.ctx.val).revs, s.rtime ≤ v.start + maxPh (s.runHdr r)) →
        ∃ t, exec (.unitPause u) s = .next t ∧ unit t = some { x with paused := true } ∧ s.sameMemory t)) ∧
    (∀ n r, mget s.runs n = some r → r.done = false → (∀ x ∈ r.units, x.done = true) → (s.ctx r.ctx.val).stopped = false →
      (∀ k, r.core = some k → (s.core k).mark ≠ .dying → s.haltedCore k = false → s.holdFull k = false → (s.core k).qUsed 25 < 64 →
        ∃ t, exec (.nearMemoryCompletion n) s = .next t ∧ mget t.runs n = some { r with done := true } ∧
          (t.core k).q25 = (s.core k).q25 ++ [⟨nmEntry r, 0, some (19, r.seq)⟩] ∧ s.sameMemory t ∧
          ∀ m, (t.core k).sem[m] = if r.sig = some m then min ((s.core k).sem[m] + 1) 65535 else (s.core k).sem[m]) ∧
      (∀ m, r.core = none → r.card = some m → nmFirst r = none → (s.ctx r.ctx.val).halted = false → ∃ t, exec (.nearMemoryCompletion n) s = .next t ∧
        (t.ctx r.ctx.val).cstate m = 4))

/-- R333 to R335: in a core's turn Teasel takes the head of q20 with the positions of its core's rank; a walk at its end has status 0 to report; a
segment whose granules are all written and clean enters q21 as its record and the walk goes on behind it; the end record enters
q21 with the walk's signal.
Rests also on the model's own readings in notes/assumptions, entries 34, 39 and 50. -/
def Obligations.TeaselEvents : Prop :=
  ∀ (s : State) (k : Nat), s.engineOn k = true →
    let c := s.core k
    let i : Instr := .teaselSegment k
    s.teaselTurn k = true →
    (∀ x r, c.wrun = none → c.q20 = x :: r → ∃ t y, exec i s = .next t ∧ (t.core k).q20 = r ∧ (t.core k).wrun = some y ∧ y.cmd = x ∧
      y.p = c.res.rank * wkNnz x.param / c.res.gsize ∧ y.hi = (c.res.rank + 1) * wkNnz x.param / c.res.gsize ∧ y.seg = none ∧
      y.last = none ∧ s.sameMemory t) ∧
    (∀ x, c.wrun = some x → x.last = none → x.seg = none → x.hi ≤ x.p →
      ∃ t, exec i s = .next t ∧ (t.core k).wrun = some { x with last := some 0 } ∧ s.sameMemory t) ∧
    (∀ x q, c.wrun = some x → x.last = none → x.seg = some q → x.total q ≤ x.gran → x.bad = false → s.haltedCore k = false →
      c.qUsed 21 < 32 →
      ∃ t y, exec i s = .next t ∧ (t.core k).q21 = c.q21 ++ [(w64 (x.record q), x.cmd.ph)] ∧ (t.core k).wrun = some y ∧
        y.p = q ∧ y.na = x.na + 1 ∧ y.nb = x.nb + (q - x.p) ∧ y.seg = none ∧ y.last = none ∧ s.sameMemory t) ∧
    (∀ x st, c.wrun = some x → x.last = some st → s.haltedCore k = false → c.qUsed 21 < 32 → ∃ t, exec i s = .next t ∧
      (t.core k).wrun = none ∧
      (t.core k).q21 = c.q21 ++ [(w64 (x.endRecord st), x.cmd.ph)] ∧ s.sameMemory t ∧
      ∀ n, (t.core k).sem[n] = if x.cmd.sig = some n then min (c.sem[n] + 1) 65535 else c.sem[n])

/-- R333 to R335: the last granule that Teasel has to write of an open segment of I8 elements, in its core's turn: while its slot's
granule is full nothing is written; once it is empty it takes the elements of the coordinate's row of A, or for the later slots
of B, from column KOFF on, zero outside the shape, and becomes full, and no other granule and no memory changes.
Rests also on the model's own readings in notes/assumptions, entries 34, 39 and 50. -/
def Obligations.TeaselGathers : Prop :=
  ∀ (s : State) (k : Nat) (x : WalkRun) (q : Nat), s.engineOn k = true → s.haltedCore k = false → s.teaselTurn k = true →
    (s.core k).wrun = some x → x.last = none → x.seg = some q → x.gran + 1 = x.total q →
    let d := x.cmd
    let p := d.param
    let sl := x.slotOf x.gran
    let shape := sl.2.2.1
    let src := sl.2.1
    let g := x.gran % max 1 (wkGrans p d.ta)
    let o := s.slotGran k d sl.1 g
    (s.slotFull k x = true → ∃ t, exec (.teaselSegment k) s = .next t ∧ (t.core k).wrun = some x ∧ (t.core k).scr = (s.core k).scr ∧
      s.sameMemory t) ∧
    (s.slotFull k x = false → tType d.ta = .i8 → tType d.tb = .i8 → d.list.kind = .local → d.rowP.kind = .local →
      d.colP.kind = .local →
      let at_ := d.list.addr + wkCoff p + 8 * sl.2.2.2.1 + if sl.2.2.2.2 then 0 else 4
      let row := ofBytes ((upto at_ 4).map (s.localByte k d.view))
      let v (b : Nat) : Byte := if tRows shape ≤ row ∨ tCols shape ≤ wkKoff p + 16 * g + b then 0
        else s.localByte k d.view (src.addr + (row * tStride shape + wkKoff p + 16 * g + b))
      ∃ t y, exec (.teaselSegment k) s = .next t ∧ (t.core k).wrun = some y ∧ y.gran = x.gran + 1 ∧ y.seg = some q ∧
        s.sameMemory t ∧ (t.gran (.scr k) o).full = true ∧ (∀ n, n ≠ o → t.gran (.scr k) n = s.gran (.scr k) n) ∧
        ∀ b, b < 16 → t.granByte (.scr k) (16 * o + b) =
          if 16 * g + b < wkKlen p then v b else s.granByte (.scr k) (16 * o + b))

/-- R336, R339, R342 to R345: an all-reduce of a group of one rank starts under the group's attempt and sequence number and is
done; a one-sided write of one packet into an inbound buffer writes its bytes and no others and is acknowledged by a port in
service; an abort token with a newer attempt number is adopted; a packet unacknowledged for 64 µs goes out again; a collective past
its time limit completes with 0x57; on a core that is not halted a completed command's element enters q23 with its signal.
Rests also on the model's own readings in notes/assumptions, entry 35. -/
def Obligations.SpeedwellEvents : Prop :=
  ∀ (s : State),
    (∀ k x r g, s.engineStarts k = true → (s.core k).sprun = [] → (s.core k).q22 = x :: r → (s.core k).freed x.ph = true →
      x.form = 2 → mget (s.ctx (s.core k).res.ctx.val).groups (spGroup x.param) = some g → g.nrank = 1 → g.rank = 0 →
      (x.base 0).kind = .mem → (x.base 1).kind = .mem → s.poison = [] → s.rxhold = [] → s.tx = [] →
      ∃ t y, exec (.speedwellCommand k) s = .next t ∧ (t.core k).q22 = r ∧ (t.core k).sprun = [y] ∧ y.cmd = x ∧ y.att = g.att ∧
        y.cseq = g.cseq ∧ y.done = true ∧ y.status = 0 ∧
        mget (t.ctx (s.core k).res.ctx.val).groups (spGroup x.param) = some { g with cseq := g.cseq + 1 }) ∧
    (∀ (p : Packet) (g : Group) (buf off : Nat) (data : List Byte) (n : Nat), s.booted = true → s.down = false →
      mget (s.ctx p.ctx.val).groups p.grp.val = some g →
      (s.ctx p.ctx.val).stopped = false → (s.ctx p.ctx.val).halted = false →
      (p.body = .put buf off data.length data none → p.frag = 0 → p.frags = 1 → s.rxPuts = [] → s.portsUp.contains p.port.val = true →
        s.reachable (g.devs.getD p.src 0) = true → mget (s.ctx p.ctx.val).bufs buf = some n →
        let x := (s.ctx p.ctx.val).ext n
        xValid x = true → xTier x ≠ 4 → off + data.length ≤ 2 ^ xLog x → s.ways = [] → Memory.wf s.mem = true →
        ∃ t port, exec (.inboundPacket p) s = .next t ∧ s.portsUp.contains port.val = true ∧
          t.txlog = s.txlog ++ [(g.devs.getD p.src 0, { p with src := g.rank, body := .putAck false, port := port })] ∧
          ∀ a, Memory.get t.mem a = if xBase x + off ≤ a ∧ a < xBase x + off + data.length then data.getD (a - (xBase x + off)) 0
            else Memory.get s.mem a) ∧
      (newerAtt p.att g.att = true → ∃ t x, exec (.abortToken p.grp p.ctx p.att) s = .next t ∧
        mget (t.ctx p.ctx.val).groups p.grp.val = some x ∧ x.att = p.att ∧ x.cseq = 0 ∧ s.sameMemory t)) ∧
    (∀ n e, s.down = false → mget s.tx n = some e → e.at_ + 64000 ≤ s.rtime → s.reachable e.dev = true → e.tries < 16 → s.portsUp ≠ [] →
      ∃ t port, exec (.retransmissionTimeout n) s = .next t ∧ mget t.tx n = some { e with tries := e.tries + 1, at_ := s.rtime } ∧
        s.portsUp.contains port.val = true ∧ t.txlog = s.txlog ++ [(e.dev, { e.pkt with port := port })] ∧ s.sameMemory t) ∧
    (∀ k seq x, (s.core k).sprun.find? (fun y => y.cmd.seq == seq) = some x →
      (∀ g, s.down = false → mget (s.ctx x.ctx.val).groups x.grp.val = some g → x.done = false → x.cmd.form < 3 →
        x.start + g.tmo * 1000 ≤ s.rtime → ∃ t y, exec (.collectiveTimeout k seq) s = .next t ∧
          (t.core k).sprun.find? (fun y => y.cmd.seq == seq) = some y ∧ y.done = true ∧ y.status = 0x57 ∧ s.sameMemory t) ∧
      (s.engineOn k = true → x.done = true → x.outq = [] → s.rowHold = [] → (s.core k).mark ≠ .dying → s.haltedCore k = false →
        (s.core k).qUsed 23 < 32 →
        ∃ t, exec (.speedwellCompletion k seq) s = .next t ∧ (t.core k).q23 = (s.core k).q23 ++ [(spElem x, x.cmd.ph)] ∧
          (∀ y ∈ (t.core k).sprun, y.cmd.seq ≠ seq) ∧ s.sameMemory t ∧
          ∀ n, (t.core k).sem[n] = if x.cmd.sig = some n then min ((s.core k).sem[n] + 1) 65535 else (s.core k).sem[n]))
/-- R32 to R35, R48, R285, R286: an accepted arm of a kernel card without bindings, by the host's ARM register once no host write
made before it waits, or by JARM, makes it ARMED under the next serial, and JARM answers 0; JPATCH replaces a word, or answers 0x10 for a FREE card and 0x11 for a live
one; JSTAT answers serial, state, status and blocks left; TAGTEST of an unused binding answers 0x40, and of a complete whole one
0x32; a publication makes a tile READY and frees its links, a pending one makes an EMPTY tile PENDING.  (The card words are read
through a map whose keys rise.)
Rests also on the model's own readings in notes/assumptions, entries 16, 42, 47 and 53. -/
def Obligations.CampionRequests : Prop :=
  ∀ (s : State) (k n : Nat) (c : Fin 8) (d : SIx) (r : List JobReq),
    let serial (t : State) : Nat := (t.ctx c).cserial n
    let accepted (u t : State) : Prop := (t.ctx c).cstate n = 2 ∧ (mget (t.ctx c).jobs n).isSome = true ∧
      serial t = (if (serial u + 1) % 2 ^ 32 = 0 then 1 else (serial u + 1) % 2 ^ 32) ∧ u.sameMemory t
    let armable (u : State) : Prop := u.armRefusal c n = none ∧ (u.ctx c).cf n 0 27 25 = 0 ∧ u.reev = [] ∧
      risingFrom 0 (u.ctx c).cards = true ∧ (∀ b, b < 4 → bindUsed ((u.ctx c).card n) b = false) ∧
      ∃ j i, u.kernelCheck c n = .ok j i false ∧ blockCount j.hdr j.trips ≠ 0
    let answer (t : State) (v : Word) : Prop := (t.core k).r.c.s[d] = v ∧
      (t.core k).r.c.await = (s.core k).r.c.await.erase d ∧ (t.core k).r.c.blk = .run
    let next (t : State) : Prop := (t.core k).q24 = r
    let acquired (t : State) (v : View) : Prop := (t.core k).seen = [] ∧
      (t.core k).rfc = (s.core k).rfc.join (t.core k).clk ∧ (t.core k).q24 = r.map (JobReq.after v)
    (∀ a m, s.ctxActs c = true → s.arms = (c, n, m) :: a → s.hostHeld m = false → armable { s with arms := a } →
      ∃ t, exec (.armRequest c none) s = .next t ∧ accepted s t ∧ t.arms = a) ∧
    (s.asks k = true → (s.core k).res.ctx = c → d ∈ (s.core k).r.c.await →
      (∀ v, (s.core k).q24 = .arm n d v :: r → armable (s.dropReq k) →
        ∃ t, exec (.armRequest c (some k)) s = .next t ∧ accepted s t ∧ answer t 0 ∧ next t) ∧
      (∀ w v, (s.core k).q24 = .patch n w v d :: r → ∃ t, exec (.patchRequest k) s = .next t ∧ s.sameMemory t ∧ next t ∧
        ((s.ctx c).cstate n = 0 → answer t 0x10 ∧ (t.ctx c).cards = (s.ctx c).cards) ∧
        ((s.ctx c).cstate n = 2 ∨ (s.ctx c).cstate n = 3 → answer t 0x11 ∧ (t.ctx c).cards = (s.ctx c).cards) ∧
        ((s.ctx c).cstate n ≠ 0 → (s.ctx c).cstate n ≠ 2 → (s.ctx c).cstate n ≠ 3 → risingFrom 0 (s.ctx c).cards = true → w < 32 →
          answer t 0 ∧
          (t.ctx c).cw n w = (if w = 7 then v.toNat / 2 ^ 32 * 2 ^ 32 + (s.ctx c).cw n 7 % 2 ^ 32 else v.toNat) ∧
          ∀ m x, x < 32 → ¬(m = n ∧ x = w) → (t.ctx c).cw m x = (s.ctx c).cw m x)) ∧
      ((s.core k).q24 = .stat n d :: r → ∃ t v, exec (.campionAnswer k) s = .next t ∧ answer t v ∧ s.sameMemory t ∧
        v.toNat / 2 ^ 32 = serial s ∧ bits v.toNat 31 28 = (s.ctx c).cstate n ∧ bits v.toNat 27 20 = (s.ctx c).cf n 23 55 48 ∧
        bits v.toNat 19 0 = min ((s.ctx c).cf n 22 39 16) 0xFFFFF ∧
        ((s.ctx c).cstate n = 4 → acquired t (mgetD (s.ctx c).dviews n [])) ∧ ((s.ctx c).cstate n ≠ 4 → next t)) ∧
      (∀ b tile, (s.core k).q24 = .test b tile d :: r →
        let w := (s.ctx c).card (s.core k).res.card
        let p := bindCard w b
        (bindUsed w b = false → ∃ t, exec (.campionAnswer k) s = .next t ∧ answer t 0x40 ∧ next t ∧ s.sameMemory t) ∧
        (bindUsed w b = true → bindWhole w b = true → (s.ctx c).cserial p = bindSer w b → (s.ctx c).cstate p = 4 →
          (∀ j, mget (s.ctx c).jobs (s.core k).res.card = some j → tile.toNat < gridSize (j.grids.getD b 0) →
            ∃ t, exec (.campionAnswer k) s = .next t ∧ answer t 0x32 ∧ acquired t (mgetD (s.ctx c).dviews p []))))) ∧
    (∀ slot tile e x, s.asks k = true → s.tileEntry k slot tile = some e → mget s.tags e = some x →
      let becomes (t : State) (y : Tag) : Prop := mget t.tags e = some y ∧
        (∀ m, m ≠ e → mget t.tags m = mget s.tags m) ∧ (t.core k).q24 = r ∧ s.sameMemory t
      let publishes (v : View) : Prop := ∃ t, exec (.tagPublication k) s = .next t ∧
        becomes t { x with state := .ready, view := v } ∧ ∀ l ∈ t.links, l.tag ≠ some e
      (∀ v, (s.core k).q24 = .pub slot tile v :: r → x.state ≠ .ready → publishes v) ∧
      (∀ v, (s.core k).q24 = .ready slot tile v :: r → x.state = .pending → publishes v) ∧
      (∀ ph, (s.core k).q24 = .pending slot tile ph :: r → x.state = .empty →
        ∃ t, exec (.tagPublication k) s = .next t ∧ becomes t { x with state := .pending }))

/-- R340 to R345: a one-sided write of at most one packet to another rank goes out as one packet with the bytes of its source, to be
acknowledged; a hashed index exchange writes its permutation, takes its own bucket with its count, and sends every other rank
that rank's bucket; the last part of an all-reduce of any number of ranks to arrive completes it, its destination holding the
parts' reduction in rank order; a part of a vector return places each vector at the position whose permutation names it; each
changes no other byte of memory.  (Destinations in memory; no way of the hot-row cache and no host write waits.)
Rests also on the model's own readings in notes/assumptions, entry 35. -/
def Obligations.SpeedwellMoves : Prop :=
  ∀ (s : State) (k : Nat), s.ways = [] → s.rowHold = [] → Memory.wf s.mem = true →
    let c := (s.core k).res.ctx
    (∀ x r g, s.engineStarts k = true → (s.core k).sprun = [] → (s.core k).q22 = x :: r → (s.core k).freed x.ph = true →
      mget (s.ctx c.val).groups (spGroup x.param) = some g → s.rxhold = [] → (∀ n, (s.gran (.scr k) n).pois = false) →
      (x.base 0).kind = .local →
      let p := x.param
      let source (o n : Nat) : List Byte := (upto ((x.base 0).addr + o) n).map (s.localByte k x.view)
      let lo (n : Nat) : Nat := bits (wd p n) 31 0
      let up (n : Nat) : Nat := bits (wd p n) 63 32
      let peer := bits (wd p 0) 53 44
      (x.form = 3 → peer ≠ g.rank → s.reachable (g.devs.getD peer 0) = true → spN p ≤ 4096 →
        ∃ t e, exec (.speedwellCommand k) s = .next t ∧ (t.core k).q22 = r ∧ ((t.core k).sprun.map fun y => (y.cmd, y.done)) = [(x, false)] ∧
          s.sameMemory t ∧ t.nextTx = s.nextTx + 1 ∧ mget t.tx s.nextTx = some e ∧ e.own = some (k, x.seq) ∧ e.rank = peer ∧
          e.dev = g.devs.getD peer 0 ∧ e.pkt.src = g.rank ∧ e.pkt.att = g.att ∧ e.pkt.frags = 1 ∧
          e.pkt.body = .put (bits (wd p 0) 43 36) (wd p 2) (spN p) (source (up 1) (spN p))
            (if bit (wd p 0) 35 then some (wd p 3, p.getD 4 0) else none)) ∧
      (x.form = 0 → bit (wd p 0) 41 = true → (x.base 1).kind = .mem → (x.base 2).kind = .mem → g.rank < g.nrank → g.bcap ≤ 1024 →
        (∀ d, s.reachable d = true) →
        let b := bucketing true g.nrank g.bcap [] ((upto 0 (spN p)).map fun i => ofBytes (source (up 1 + 4 * i) 4))
        let own := mgetD b.1 g.rank []
        let pe := (x.base 2).addr + lo 2
        let ct := (x.base 1).addr + up 2 + 4 * g.rank
        let ix := (x.base 1).addr + up 2 + 4 * up4 g.nrank + 4 * g.bcap * g.rank
        pe + 4 * spN p ≤ (x.base 1).addr + up 2 ∨ ix + 4 * g.bcap ≤ pe →
        ∃ t, exec (.speedwellCommand k) s = .next t ∧ (t.core k).q22 = r ∧
          ((t.core k).sprun.map fun y => (y.cmd, y.outq, y.status)) = [(x, [], if b.2.2 = 0 then 0 else 0x58)] ∧
          (∀ d, d < g.nrank → d ≠ g.rank → ∃ n e, mget t.tx n = some e ∧ e.own = some (k, x.seq) ∧ e.rank = d ∧
            e.pkt.frags = 1 ∧ e.pkt.body = .part 0 0 (bytes32 (mgetD b.1 d []))) ∧
          ∀ a, Memory.get t.mem a =
            if pe ≤ a ∧ a < pe + 4 * spN p then (bytes32 b.2.1).getD (a - pe) 0
            else if ct ≤ a ∧ a < ct + 4 then BitVec.ofNat 8 (own.length / 256 ^ (a - ct))
            else if ix ≤ a ∧ a < ix + 4 * own.length then (bytes32 own).getD (a - ix) 0
            else Memory.get s.mem a)) ∧
    (∀ (q : Packet) (x : SpRun) (g : Group) (bs : List Byte), s.down = false → s.booted = true →
      s.portsUp.contains q.port.val = true → mget (s.ctx q.ctx.val).groups q.grp.val = some g → q.att = g.att → q.frag = 0 →
      q.frags = 1 → (s.ctx q.ctx.val).stopped = false → (s.ctx q.ctx.val).halted = false →
      s.findSp q.ctx q.grp q.att q.cseq = some (k, x) → s.spRun k x.cmd.seq = some x → x.outq = [] →
      q.body = .part x.cmd.kind x.cmd.nel bs → risingFrom 0 x.parts = true → mget x.parts q.src = none →
      (∀ e ∈ x.frs, e.1 / 2 ^ 32 ≠ q.src) → (x.cmd.base 1).kind = .mem → x.fits g bs = true →
      let p := x.cmd.param
      let o := (x.cmd.base 1).addr + bits (wd p 1) 31 0
      (x.cmd.form = 2 → x.parts.length + 1 = g.nrank → s.spUnacked k x.cmd.seq = [] →
        let w := (xrTy p).width / 8
        let parts := mset x.parts q.src bs
        let el (e : Nat) : Nat := xrFold x.cmd.sub (xrTy p) (parts.map fun y => ofBytes ((y.2.drop (w * e)).take w))
        ∃ t y, exec (.inboundPacket q) s = .next t ∧ t.spRun k x.cmd.seq = some y ∧ y.done = true ∧ y.outq = [] ∧
          y.status = x.status ∧ ∀ a, Memory.get t.mem a =
            if o ≤ a ∧ a < o + w * spN p then BitVec.ofNat 8 (el ((a - o) / w) / 256 ^ ((a - o) % w)) else Memory.get s.mem a) ∧
      (x.cmd.form = 1 → x.perm.length = spN p →
        let vl := bits (wd p 2) 15 0
        let vs := bits (wd p 2) 31 16
        let named (i : Nat) : Prop := i < spN p ∧ g.bcap * q.src ≤ x.perm.getD i 0 ∧ x.perm.getD i 0 < g.bcap * (q.src + 1) ∧
          (x.perm.getD i 0 - g.bcap * q.src + 1) * vl ≤ bs.length
        vl ≤ vs →
        ∃ t y, exec (.inboundPacket q) s = .next t ∧ t.spRun k x.cmd.seq = some y ∧ y.outq = [] ∧ mget y.parts q.src = some [] ∧
          (∀ i b, named i → b < vl →
            Memory.get t.mem (o + i * vs + b) = bs.getD ((x.perm.getD i 0 - g.bcap * q.src) * vl + b) 0) ∧
          ∀ a, (∀ i b, named i → b < vl → a ≠ o + i * vs + b) → Memory.get t.mem a = Memory.get s.mem a))

/-- R17, R36, R37, R66 to R68, R351: Campion's next placement, of one block or of a gang, starts each block on its core at lane 1 of
its entry line with its loop coordinates, FRAME, JARG and TRIP from its card's snapshot, its record naming the core and its job
RUNNING; R353, R356, R357: a block with a checkpoint resumes from it, with what it saved, and the slot is freed (no extent revoked
since); a job's near-memory run starts on its
units; the one entry below level 59 that has waited its quantum rises a level; a victim group of one core that is to drain or to be
checkpointed is marked, held for the newcomer, and paid for; R352: one that is to be killed leaves its core at once or when its
running commands have completed, its record requeued with RERUN and no checkpoint.
Rests also on the model's own readings in notes/assumptions, entries 13, 17, 56 and 57. -/
def Obligations.CampionPlacement : Prop :=
  ∀ (s : State), s.down = false →
    (∀ l e ks j ext img,
      let c := e.ctx.val
      let line := hbits j.hdr 1 39 16
      s.reserve.nextPlacement = some (l, e, ks) → (s.ctx c).stale e.card = false → (s.ctx c).stopped = false →
      mget (s.ctx c).jobs e.card = some j → s.imageAt c j = .ok (ext, img) → e.blocks.Nodup → ks.Nodup →
      (∀ b ∈ e.blocks, ∃ r, mget (s.ctx c).recs (gkey e.card b) = some r ∧ r.card = e.card ∧ r.block = b ∧ r.ckpt = none) →
      (∀ b : Resident, b.hdr = s.headerAt img → b.img = img → s.targetFault b line = none) →
      ∃ t, exec (if e.gang then .gangPlacement else .launch) s = .next t ∧ s.sameMemory t ∧
        (∀ x ∈ e.blocks.zip ks, ∃ b, (t.core x.2).blk = some b ∧ b.ctx = e.ctx ∧ b.card = e.card ∧ b.block = x.1 ∧
          b.hdr = s.headerAt img ∧ b.img = img ∧ b.frame = w64 (wd j.snap 6) ∧
          (∀ i, i < 4 → b.jarg[i]? = j.snap[8 + i]?) ∧ (∀ i, i < 8 → b.trip[i]? = some (BitVec.ofNat 32 (j.trips.getD i 0))) ∧
          (∀ m, ((t.core x.2).str m).pos = ⟨line, 1, 0⟩ ∧ ∀ i : Fin 8, ((t.core x.2).str m).lc[i] =
            if loopKind j.hdr i.val < 2 then 0 else BitVec.ofNat 32 (blockCoord j.hdr j.trips x.1 i.val)) ∧
          ∃ r, mget (t.ctx c).recs (gkey e.card x.1) = some r ∧ r.core = some x.2) ∧
        (risingFrom 0 (s.ctx c).cards = true → e.blocks.zip ks ≠ [] → (s.ctx c).cstate e.card = 2 → (t.ctx c).cstate e.card = 3)) ∧
    (∀ l e k b n ck j r ext img,
      let c := e.ctx.val
      s.reserve.nextPlacement = some (l, e, [k]) → e.gang = false → e.blocks = [b] → (s.ctx c).stale e.card = false →
      (s.ctx c).stopped = false → mget (s.ctx c).jobs e.card = some j → s.imageAt c j = .ok (ext, img) →
      mget (s.ctx c).recs (gkey e.card b) = some r → r.card = e.card → r.block = b → r.ckpt = some n →
      mget (s.ctx c).cks n = some ck → ck.revoked = [] → (s.ctx c).revs = [] →
      ∃ t, exec .launch s = .next t ∧ s.sameMemory t ∧
        (∃ v, (t.core k).blk = some v ∧ v.ctx = e.ctx ∧ v.card = e.card ∧ v.block = b ∧ v.frame = ck.frame) ∧
        (∀ m, let v := (t.core k).str m
          let w := ck.regs.str m
          v.pos = w.pos ∧ v.s = w.s ∧ v.p = w.p ∧ v.lc = w.lc ∧ v.llim = w.llim ∧ v.rstk = w.rstk ∧ v.tflags = w.tflags) ∧
        (let y := (t.core k).r
         let z := ck.regs
         y.tok = z.tok ∧ y.win = z.win ∧ y.qs = z.qs ∧ y.qv = z.qv ∧ y.vr = z.vr ∧ y.h = z.h ∧ y.t = z.t ∧ y.par = z.par) ∧
        (t.core k).sem = ck.sem ∧ (t.core k).scr = ck.scr ∧ (t.core k).acc = ck.acc ∧ (t.core k).ring = ck.ring ∧
        (t.core k).phasecnt = ck.phasecnt ∧ (t.core k).trapinfo = ck.trapinfo ∧ (t.core k).pend = [] ∧ (t.core k).seen = [] ∧
        (∃ z, mget (t.ctx c).recs (gkey e.card b) = some z ∧ z.core = some k ∧ z.ckpt = none) ∧
        (risingFrom 0 (s.ctx c).cks = true → mget (t.ctx c).cks n = none)) ∧
    (∀ (c : Fin 8) (n : Fin 4096) j, mget (s.ctx c).jobs n.val = some j →
      let d := j.nmdesc
      s.ctxActs c = true → (s.ctx c).cstate n = 2 → (s.ctx c).cf n 17 21 21 = 1 → j.nmrun = none →
      (s.links.any fun l => l.ctx == c && l.card == n.val) = false → (s.ctx c).nmFault d j.trips = none →
      s.leaseFaultOf c ((s.ctx c).nmExts d) = none → ∃ t e, exec (.variantRunStart c n) s = .next t ∧
        t.nextRun = s.nextRun + 1 ∧ s.sameMemory t ∧
        mget t.runs s.nextRun = some (newRun c none (some n.val) none 0 d j.trips e) ∧
        (risingFrom 0 (s.ctx c).cards = true → (t.ctx c).cstate n = 3)) ∧
    (∀ l e r, (s.entries.filter fun x => decide (x.1 ≤ 58)) = [(l, e)] → s.entryRec e = some r → 250 ≤ (s.enqt - r.enqt).toNat →
      let i : Fin 64 := Fin.ofNat 64 l
      let j : Fin 64 := Fin.ofNat 64 (l + 1)
      ∃ t, exec .aging s = .next t ∧ t.ready[i] = s.ready[i].erase e ∧ t.ready[j] = s.ready[j] ++ [e] ∧ s.sameMemory t ∧
        ∀ b ∈ e.blocks, ∀ x, mget (s.ctx e.ctx).recs (gkey e.card b) = some x →
          mget (t.ctx e.ctx).recs (gkey e.card b) = some { x with prio := l + 1, enqt := s.enqt }) ∧
    (∀ e es k a n,
      let ds := [0, 1].filter fun d => s.eligible e d
      s.ready[(63 : Fin 64)] = e :: es → s.ready[(62 : Fin 64)] = [] → s.ready[(61 : Fin 64)] = [] → s.ready[(60 : Fin 64)] = [] →
      s.enoughFor 63 e ds = false →
      e.blocks.length = (s.coresFor 63 e (k / 64)).length +
        (s.cores.filter fun x => x.2.heldFor == some e.name && x.2.blk.isSome && x.1 / 64 == k / 64).length + 1 →
      s.bestVictims 63 ds ((s.ctx e.ctx).tokens e.card) = some ⟨[(k, a)], n⟩ → (s.core k).mark = .none →
      let done (t : State) : Prop := exec .preemption s = .next t ∧ (t.core k).heldFor = some e.name ∧
        (t.ctx e.ctx).tokens e.card = (s.ctx e.ctx).tokens e.card - n ∧ s.sameMemory t
      (a ≠ .kill → ∃ t, done t ∧ (t.core k).mark = (if a = .drain then .drain else .ckpt) ∧ (t.core k).blk = (s.core k).blk) ∧
      (a = .kill → (s.core k).q24 = [] → (s.core k).pubs = [] → (s.core k).inServ = true → s.resv = [] →
        let v := (s.core k).res
        ∀ x, mget (s.ctx v.ctx).recs (gkey v.card v.block) = some x → x.prio < 60 → risingFrom 0 (s.ctx v.ctx).recs = true →
        ∃ t z, done t ∧ ((t.core k).blk = none ∨ (t.core k).mark = .dying) ∧ (t.core k).pend = [] ∧
          mget (t.ctx v.ctx).recs (gkey v.card v.block) = some z ∧ z.core = none ∧ z.rerun = true ∧ z.ckpt = none ∧ z.prio = x.prio))

/-- R109, R348 to R350, R359, R392, R393: a finished block that is not its job's last leaves its core clean and its record frees; with
the last one the job is DONE; an expired watchdog, a starved core and a refused encoding stop the context with their code: its
cores stop and the job of the fault is FAILED. R349: the context error record of a refused encoding names its code and detail, the
stream, die, core, card and block, the line, lane and LSEQ of the form and the reference time, word 3 being 0.
Rests also on the model's own readings in notes/assumptions, entry 14. -/
def Obligations.BlocksAndContextsEnd : Prop :=
  ∀ (s : State),
    (∀ k,
      let c := s.core k
      let x := c.res.ctx.val
      let n := c.res.card
      s.asks k = true → c.ended = true → s.enginesBusy k = false → c.q24 = [] → c.comm = [] → c.mark ≠ .dying →
      risingFrom 0 (s.ctx x).cards = true →
      (∀ m, (s.ctx x).cf n 22 39 16 = m + 2 → risingFrom 0 (s.ctx x).recs = true → ∃ t, exec (.blockRetirement k) s = .next t ∧
        (t.core k).blk = none ∧ (t.core k).inServ = c.inServ ∧ (t.core k).scr = [] ∧ (t.core k).acc = [] ∧
        (t.ctx x).cf n 22 39 16 = m + 1 ∧ mget (t.ctx x).recs (gkey n c.res.block) = none ∧ (t.ctx x).wdcnt = 0 ∧ s.sameMemory t) ∧
      ((s.ctx x).cf n 22 39 16 = 1 → s.reev = [] → risingFrom 0 (s.ctx x).jobs = true →
        (∀ j ∈ (s.ctx x).jobs, bits (wd j.2.snap 0) 27 25 ≠ 2) → ∃ t, exec (.blockRetirement k) s = .next t ∧
        (t.core k).blk = none ∧ (t.ctx x).cstate n = 4 ∧ (t.ctx x).cf n 23 55 48 = 0 ∧ mget (t.ctx x).jobs n = none)) ∧
    (let stops (i : Instr) (c card block code : Nat) : Prop := card < 4096 → block < 2 ^ 24 → (s.ctx c).stopped = false → s.noError c →
      ∃ t, exec i s = .next t ∧ (t.ctx c).stopped = true ∧ wd (t.ctx c).err 0 / 2 ^ 56 = code ∧
        (∀ j, ((s.core j).blk.any fun r => r.ctx.val == c) = true → (t.core j).blk = none) ∧
        (risingFrom 0 (s.ctx c).cards = true → (s.ctx c).cstate card = 2 ∨ (s.ctx c).cstate card = 3 →
          (t.ctx c).cstate card = 5 ∧ (t.ctx c).cf card 23 63 56 = code)
     (∀ (c : Fin 8) k ks, s.down = false → s.hasCtx c = true → (s.ctx c).wdlim.toNat * 1000000 ≤ (s.ctx c).wdcnt →
       (s.coresOf c fun _ => true) = k :: ks → stops (.watchdogExpiry c) c (s.core k).res.card (s.core k).res.block 0x2F) ∧
     (∀ k, (s.core k).blk.isSome = true → s.down = false → (s.ctx (s.core k).res.ctx.val).halted = false →
       2 ^ 20 ≤ (s.core k).starve →
       stops (.queueStarvation k) (s.core k).res.ctx.val (s.core k).res.card (s.core k).res.block 0x2B) ∧
     (∀ code detail lane : BitVec 8, lane.toNat < 8 →
       stops (.illegalEncoding code detail lane) s.cx s.res.card s.res.block code.toNat ∧
       (s.res.card < 4096 → s.res.block < 2 ^ 24 → s.cur < 128 → s.st.pos.line < 2 ^ 24 → s.rtime < 2 ^ 64 →
         (s.ctx s.cx).stopped = false → s.noError s.cx → ∃ t, exec (.illegalEncoding code detail lane) s = .next t ∧
           let w (n hi lo : Nat) : Nat := bits (wd (t.ctx s.cx).err n) hi lo
           w 0 63 56 = code.toNat ∧ w 0 55 48 = detail.toNat ∧ w 0 47 46 = Stm.code s.strm ∧ w 0 45 45 = s.cur / 64 ∧
             w 0 44 39 = s.cur % 64 ∧ w 0 38 27 = s.res.card ∧ w 0 26 24 = 0 ∧ w 0 23 0 = s.res.block ∧
             w 1 63 40 = s.st.pos.line ∧ w 1 39 37 = lane.toNat ∧ w 1 36 0 = s.st.pos.lseq % 2 ^ 37 ∧
             wd (t.ctx s.cx).err 2 = s.rtime ∧ wd (t.ctx s.cx).err 3 = 0)))

/-! ### The host and the command processor (R29, R39 to R42, R346, R359 to R362, R401 to R404) -/

/-- R5, R29, R39 to R42, R346, R359 to R362, R379, R381, R401 to R403: what the host's writes do while the link is up and the context
is resident: the writable bits of a card word that is not live, and every register's own effect; with the link down they do
nothing.  A host write of its own memory needs no link.
The places of the MSI-X table's words (entry 10) and that a new request for a report clears its done bit (entry 29) are presumed by
the model.
Rests also on the model's own readings in notes/assumptions, entries 10, 29 and 30. -/
def Obligations.HostRegisterWrites : Prop :=
  ∀ (s : State) (c : Fin 8) (v : Word),
    let x := s.ctx c
    let w := v.toNat
    let does (i : Instr) (p : State → Prop) : Prop := ∃ t, exec i s = .next t ∧ p t ∧ s.sameMemory t
    (s.linkUp = true → s.hasCtx c = true →
      (∀ n k, n < 4096 → k < 32 →
        let i : Instr := .cardWindowWrite (c.val * 2 ^ 20 + n * 256 + k * 8) 8 v
        (x.cstate n ≠ 2 → x.cstate n ≠ 3 → k ≠ 0 ∨ bits w 31 28 ≤ 1 ∨ bits w 31 28 = x.cstate n → risingFrom 0 x.cards = true →
          does i fun t => (∀ b, b < 64 → bit ((t.ctx c).cw n k) b = if bit (hostBits k) b then bit w b else bit (x.cw n k) b) ∧
            ∀ m j, j < 32 → ¬(m = n ∧ j = k) → (t.ctx c).cw m j = x.cw m j) ∧
        (x.cstate n = 2 ∨ x.cstate n = 3 → does i fun t => (t.ctx c).cards = x.cards ∧ (t.ctx c).cardwerr = true)) ∧
      (x.stopped = false → does (.arm c v) fun t => t.arms = s.arms ++ [(c, w % 4096, s.hostN)]) ∧
      (x.stopped = true → does (.arm c v) fun t => t = s) ∧
      (x.cqheld = [] → does (.cqhead c v) fun t => t.ctx c = { x with cqhead := w % 65536 }) ∧
      does (.cstat c v) (fun t => (t.ctx c).cardwerr = (x.cardwerr && !bit w 0) ∧ (t.ctx c).lostBit = (x.lostBit && !bit w 2) ∧
        (t.ctx c).cqlost = if bit w 2 then 0 else x.cqlost) ∧
      does (.cint c v) (fun t => ∀ n, n < 3 → (t.ctx c).cint.getLsbD n = (x.cint.getLsbD n && !bit w n)) ∧
      does (.wdkick c) (fun t => t.ctx c = { x with wdcnt := 0 }) ∧
      (x.stopped = false → x.halted = false → does (.halt c) fun t => (t.ctx c).halted = true ∧ (t.ctx c).cint.getLsbD 2 = true) ∧
      (x.halted = true → (∀ k, (s.core k).ptrig = []) → s.rxhold = [] → does (.resume c) fun t => (t.ctx c).halted = false) ∧
      (∀ m, does (.step c m) (fun t => t.schedule = ⟨0, 0, .dbg c x.dbgsel.toNat m⟩ :: s.schedule) ∧
        (x.halted = false → does (.stepall c m) fun t => (t.ctx c).dbgres = 3 ∧ t.schedule = s.schedule) ∧
        (x.halted = true → does (.stepall c m) fun t =>
          t.schedule = (((s.coresOf c fun _ => true).filter s.haltedCore).map fun k => ⟨0, 0, .dbg c k m⟩) ++ s.schedule)) ∧
      does (.registerWrite (0x10000 + 4096 * c.val + 0x28) v) (fun t => t.ctx c = { x with ithresh := BitVec.ofNat 16 w }) ∧
      does (.registerWrite (0x10000 + 4096 * c.val + 0x08) v) (fun t => t.ctx c = { x with cqbase := w64 (w / 4096 * 4096) }) ∧
      does (.registerWrite (0x18000 + 4096 * c.val) v) (fun t => t.ctx c = { x with pdrain := BitVec.ofNat 32 w }) ∧
      does (.registerWrite (0x18000 + 4096 * c.val + 0x08) v) (fun t => t.ctx c = { x with pkill := BitVec.ofNat 32 w }) ∧
      does (.registerWrite (0x18000 + 4096 * c.val + 0x20) v)
        (fun t => t.ctx c = { x with wdlim := BitVec.ofNat 16 (max 1 (w % 65536)) })) ∧
    (s.linkUp = true →
      does (.mint v) (fun t => ∀ n, n < 4 → t.mint.getLsbD n = (s.mint.getLsbD n && !bit w n)) ∧
      (∀ n : Fin 17, s.msixPend.getLsbD n = true → does (.vectorUnmask n) fun t => t.msixSent = s.msixSent ++ [s.msixMsg n.val] ∧
        t.msixMask.getLsbD n = false ∧ t.msixPend.getLsbD n = false) ∧
      (∀ n : Fin 17, risingFrom 0 s.msixTab = true →
        does (.registerWrite (0xA0000 + 16 * n.val) v) fun t => t.registerRead (0xA0000 + 16 * n.val) = w64 (w / 4 * 4)) ∧
      (bit w 1 = true → does (.bbctl v) fun t => t.frozen = false ∧ t.bblost = 0) ∧
      (bit w 0 = true → does (.hurel v) fun t => t.repHeld = false ∧ t.nv.held = false ∧ t.nv.saved = [] ∧ t.nv.store = []) ∧
      (4 ≤ w % 8 → does (.mext v) fun t => t.mr[(Fin.ofNat 8 w : Fin 8)] = extendMr s.mr[(Fin.ofNat 8 w : Fin 8)] s.mextd ∧
        ∀ n : Fin 8, n.val ≠ w % 8 → t.mr[n] = s.mr[n]) ∧
      (bit w 0 = true → s.atbuild = none → does (.atreq v) fun t => t.atbuild.isSome = true ∧ t.atdone = false) ∧
      (∀ ws, s.atbuild = some ws → does .attestationReportDone fun t =>
        t.atbuild = none ∧ t.atdone = true ∧ t.atrep.take ws.length = ws ∧ t.mint.getLsbD 2 = true) ∧
      (900 ≤ w % 65536 → w % 65536 ≤ 1800 → does (.registerWrite 0x28 v) fun t => t.plim = BitVec.ofNat 16 w) ∧
      (w % 65536 < 900 ∨ 1800 < w % 65536 → does (.registerWrite 0x28 v) fun t => t = s) ∧
      does (.registerWrite 0x90000 v) (fun t => t.rqbase = w64 (w / 4096 * 4096)) ∧
      does (.registerWrite 0x90010 v) (fun t => t.rqtail = w % 1024)) ∧
    (∀ off, off % 8 ≠ 0 → does (.registerWrite off v) fun t => t = s) ∧
    (s.linkUp = false → ∀ i : Instr, (∃ off n, i = .cardWindowWrite off n v) ∨ i = .arm c v ∨ i = .cqhead c v ∨ i = .cstat c v ∨
      i = .cint c v ∨ i = .mint v ∨ (∃ n, i = .vectorUnmask n) ∨ i = .wdkick c ∨ i = .halt c ∨ i = .resume c ∨
      (∃ m, i = .step c m ∨ i = .stepall c m) ∨ i = .bbctl v ∨ i = .hurel v ∨ i = .mext v ∨ i = .atreq v ∨
      (∃ off, i = .registerWrite off v) → does i fun t => t = s) ∧
    (∀ a data, hostBase ≤ a → a + data.length ≤ hostBase + 2 ^ 51 → s.ways = [] → s.rowHold = [] → Memory.wf s.mem = true →
      ∃ t, exec (.hostLinkWrite a data) s = .next t ∧
        ∀ m, Memory.get t.mem m = if a ≤ m ∧ m < a + data.length then data.getD (m - a) 0 else Memory.get s.mem m)

/-- R169, R177, R288, R309, R319, R337, R338, R382, R383, R391, R404, R405, R423: each operation of the command processor, asked by the
record at the head of the ring with operands that pass its checks, has its effect and answers status 0 (CREATE_CONTEXT its value; a
revocation answers at its end); CREATE_CONTEXT of an unarmed module answers 0x03, and an operation outside the table 0x02.
That a group's registration clears its sequence number is deduced by the model: notes/assumptions, entry 35.
Rests also on the model's own readings in notes/assumptions, entries 22, 23, 24, 25, 35, 59 and 60. -/
def Obligations.CommandProcessorRequests : Prop :=
  ∀ (s : State) (w : List Word), s.asked w →
    let op := reqOp w
    let c := reqCtx w
    let x := s.ctx c
    let answers (i : Instr) (status value : Nat) (p : State → Prop) : Prop := ∃ t, exec i s = .next t ∧ s.answered t w status value ∧ p t
    let slot := some (s.ringAddr s.rqhead, w.getD 0 0)
    let d := (w.drop 2).take 4
    (op = 0x01 →
      let cks := bits (arg w 0) 12 0
      let svc := bit (arg w 0) 16
      128 ≤ cks → cks ≤ 4096 →
      (s.armed = false → answers .createContext 0x03 0 fun t => t.ctxs = s.ctxs) ∧
      (∀ n b, s.armed = true → svc = true ∨ bits (wd s.config 0) 63 56 = 0 → s.freeCtx = some n →
        s.reserveRange (reservedLen cks) = some b →
        answers .createContext 0 (n + b / 2 ^ 21 * 2 ^ 4 + reservedLen cks / 2 ^ 21 * 2 ^ 35) fun t => s.hasCtx n = false ∧
          mget t.ctxs n = some { Ctx.init with svc := svc, ckslots := cks, rbase := b, rlen := reservedLen cks })) ∧
    (s.hasCtx c = true →
      (op = 0x02 → s.running c = false → risingFrom 0 s.ctxs = true → answers .destroyContext 0 0 fun t =>
        t.hasCtx c = false ∧ ∀ l ∈ t.leases, l.2.ctx.val ≠ c) ∧
      (op = 0x10 → arg w 0 < 16384 →
        let e := x.peerClass (arg w 0) (entryOf (arg w 1) (arg w 2))
        (s.extentOk c (arg w 0) e = false → answers .writeExtent 0x02 0 fun t => t.ctxs = s.ctxs) ∧
        (s.extentOk c (arg w 0) e = true → xValid (x.ext (arg w 0)) = false →
          answers .writeExtent 0 0 fun t => (t.ctx c).ext (arg w 0) = e)) ∧
      (op = 0x11 → xValid (x.ext (arg w 0)) = true → bit (arg w 1) 0 = true →
        ¬(xTier (x.ext (arg w 0)) = 2 ∧ s.runHolds c (arg w 0) = true) →
        ∃ t, exec .revokeExtent s = .next t ∧ t.rqhead = (s.rqhead + 1) % 2 ^ s.rqsize ∧ xRvk ((t.ctx c).ext (arg w 0)) = true ∧
          (t.ctx c).revs = x.revs ++ [⟨arg w 0, none, slot, false, s.rtime⟩] ∧ s.sameMemory t) ∧
      (op = 0x18 → s.leasable (arg w 0) = true → mget s.leases (arg w 0) = none → arg w 1 ≠ 0 → answers .leaseChannel 0 0 fun t =>
        mget t.leases (arg w 0) = some ⟨Fin.ofNat 8 c, arg w 1, s.rtime + arg w 1 * 1000000, false⟩) ∧
      (∀ l, op = 0x19 → mget s.leases (arg w 0) = some l → l.ctx.val = c → l.lapsed = false → answers .endLease 0 0 fun t =>
        mget t.leases (arg w 0) = some { l with expiry := s.rtime, lapsed := !s.lapseDeferred c (arg w 0) }) ∧
      (op = 0x1A →
        let e := x.ext (arg w 1)
        xValid e = true → xTier e = 2 → leaseChannel (xBase e) = some (arg w 0) → s.leased c (arg w 0) = true →
        bits (xPerm e) 5 4 ≠ 0 → answers .designateNearMemoryRegion 0 0 fun t => mget (t.ctx c).regions (arg w 0) = some (arg w 1)) ∧
      (op = 0x20 → arg w 0 < 1024 → s.tableOk c d = true → answers .writeTableDescriptor 0 0 fun t =>
        (t.ctx c).tab (arg w 0) = d ∧ ∀ e ∈ (t.ctx c).sketch, e.1 / 2 ^ 18 ≠ arg w 0) ∧
      (op = 0x28 →
        let n := bits (arg w 0) 26 16
        let rank := bits (arg w 0) 41 32
        let bcap := bits (arg w 2) 16 0
        1 ≤ n → n ≤ 1024 → rank < n → 1 ≤ bcap → bcap ≤ 65536 →
        (∀ v ∈ s.rankList (arg w 1) n, v < 1024 ∧ s.reachable v = true) → answers .registerExchangeGroup 0 0 fun t =>
          mget (t.ctx c).groups (bits (arg w 0) 5 0) = some ⟨n, rank, s.rankList (arg w 1) n, bcap, bits (arg w 3) 31 0, 0, 0, 0⟩) ∧
      (op = 0x29 → arg w 0 < 256 → xValid (x.ext (arg w 1)) = true → bit (xPerm (x.ext (arg w 1))) 0 = true →
        answers .registerInboundBuffer 0 0 fun t => mget (t.ctx c).bufs (arg w 0) = some (arg w 1) ∧
          xAtc ((t.ctx c).ext (arg w 1)) = 2) ∧
      (op = 0x30 → x.mustOk (arg w 0) d = true → mget x.must (arg w 0) = none →
        (if msClass d = 0 then s.charges.1 + msCharge d ≤ s.gbud else s.charges.2 + msCharge d ≤ s.tbud) →
        answers .writeMustSaveEntry 0 0 fun t => mget (t.ctx c).must (arg w 0) = some d) ∧
      (op = 0x31 → (mget x.must (arg w 0)).isSome = true → risingFrom 0 x.must = true → answers .withdrawMustSaveEntry 0 0 fun t =>
        mget (t.ctx c).must (arg w 0) = none) ∧
      (∀ a, op = 0x38 → s.repHeld = true → s.report.length = 1048 → arg w 0 + arg w 1 ≤ 8384 →
        s.ways = [] → s.rowHold = [] → x.tier0 (arg w 2 % 2 ^ 60) (arg w 1) = some a → a + arg w 1 ≤ hostBase → answers .copyRecoveryReport 0 0 fun t =>
          ∀ i, i < arg w 1 → Memory.get t.mem (a + i) =
            BitVec.ofNat 8 (wd s.report ((arg w 0 + i) / 8) / 256 ^ ((arg w 0 + i) % 8))) ∧
      (∀ y a,
        let v := arg w 1 % 2 ^ 60
        op = 0x39 → s.nv.held = true → (s.nv.saved.find? fun e => e.slot == arg w 0) = some y → s.nv.result y = 0 →
        s.mapped c v y.body = true → s.ways = [] → s.rowHold = [] → a + y.body ≤ hostBase →
        (∀ i, i < y.body → ∃ e, x.findExt (v + i) = some e ∧ xTier e.2 ≠ 4 ∧ xPhys e.2 (v + i) = a + i) →
        answers .restoreSavedEntry 0 0 fun t => ∀ i, i < y.body → Memory.get t.mem (a + i) = (s.nv.image y).getD i 0)) ∧
    (op = 0x2A → arg w 0 < 1024 → bit (wd d 0) 63 = true → bits (wd d 0) 62 32 = 0 → wd d 3 = 0 →
      answers .writePeerEntry 0 0 fun t => mget t.peers (arg w 0) = some d) ∧
    (op = 0x40 → arg w 0 ≤ 96 → answers .writeBootParameters 0 0 fun t => t.nv.hrcsz = arg w 0 ∧ t.nv.lplease = arg w 1) ∧
    (op ∉ knownOps → answers .unknownRequest 0x02 0 fun t => t.ctxs = s.ctxs ∧ t.nv = s.nv)

/-! ### Revocations, leases and answers (R176 to R179, R309) -/

/-- R176 to R178, R309: a revocation whose holders have all acknowledged ends: its entry is replaced, removed or (a lease's) kept, and
its request answered; a holder past its longest phase, which does not wait for a near-memory run that the revocation keeps
(entry 62), is killed where it may restart and stops its context where it may not;
the driver's retry lets C go on and its other answer stops the context with the fault's code; a lease past its expiry lapses and
every extent on its channel is in revocation.
Rests also on the model's own readings in notes/assumptions, entries 19, 24 and 62. -/
def Obligations.RevocationEvents : Prop :=
  ∀ (s : State), s.down = false →
    (∀ (c : Fin 8) (n : Fin 16384) v, ((s.ctx c).revs.find? fun y => y.ext == n.val) = some v → s.unitsHold c n = false →
      (s.cores.any fun e => (e.2.blk.any fun r => r.ctx == c) && e.2.rvks.any fun y => y.ext == n.val) = false →
      ∃ t, exec (.revocationComplete c n) s = .next t ∧ (t.ctx c).revs = (s.ctx c).revs.erase v ∧
        (v.keep = true → xRvk ((t.ctx c).ext n) = false ∧
          ∀ b, b ≠ 126 → ((t.ctx c).ext n).getLsbD b = ((s.ctx c).ext n).getLsbD b) ∧
        (v.keep = false → ∀ e, v.new = some e → mget (t.ctx c).exts n = some e) ∧
        (v.keep = false → v.new = none → risingFrom 0 (s.ctx c).exts = true → mget (t.ctx c).exts n = none) ∧
        (∀ r, v.slot = some r → Memory.wf s.mem = true →
          t.peek (r.1 + 48) 8 = 0 ∧ t.peek (r.1 + 56) 8 = 2 ^ 63 + r.2.toNat % 2 ^ 32)) ∧
    (∀ k,
      let c := s.core k
      let r := c.res
      let x := s.ctx r.ctx
      let stops (i : Instr) (code : Nat) : Prop := r.card < 4096 → r.block < 2 ^ 24 → x.stopped = false → s.noError r.ctx →
        ∃ t, exec i s = .next t ∧ (t.ctx r.ctx).stopped = true ∧ wd (t.ctx r.ctx).err 0 / 2 ^ 56 = code
      (∀ v ∈ c.rvks, s.asks k = true → c.mark ≠ .dying → v.at_ + maxPh r.hdr < s.rtime → s.acksEarly k v.ext = false →
        (bit (r.hw 3) 51 = false → stops (.revocationPhaseLimit k) 0x66) ∧
        (∀ y, bit (r.hw 3) 51 = true → (s.coresOf r.ctx fun z => z.card == r.card && z.gang == r.gang) = [k] →
          mget x.recs (gkey r.card r.block) = some y → risingFrom 0 x.recs = true → ∃ t z,
          exec (.revocationPhaseLimit k) s = .next t ∧ mget (t.ctx r.ctx).recs (gkey r.card r.block) = some z ∧
            z.rerun = true ∧ z.core = none ∧ ((t.core k).blk = none ∨ (t.core k).mark = .dying) ∧ s.sameMemory t)) ∧
      (∀ code detail a, c.tfault = some (code, detail, a) → code ≠ 0x11 → code < 256 → detail < 256 →
        stops (.translationFaultAnswer k false) code ∧
        (c.retr = [] → ∃ t, exec (.translationFaultAnswer k true) s = .next t ∧ t.core k = { c with tfault := none } ∧
          s.sameMemory t))) ∧
    (∀ (ch : Fin 64) l, mget s.leases ch = some l → l.lapsed = false → l.expiry ≤ s.rtime → s.lapseDeferred l.ctx ch = false →
      ∃ t, exec (.leaseLapse ch) s = .next t ∧ mget t.leases ch = some { l with lapsed := true } ∧ s.sameMemory t ∧
        ∀ n ∈ (s.ctx l.ctx).onChannel ch, xRvk ((t.ctx l.ctx).ext n) = true)

/-! ### Faults of the package, power and boot (R371, R372, R380, R385, R387, R397 to R400) -/

/-- R371, R372, R380, R385, R387, R397 to R400: the first corrected error of a DRAM or scratch row opens its window with count 1, as
the first CRC error of a lane does, and the sixteenth of a scratch row fences an idle core; an uncorrectable one poisons its
granule; an expired counter clears; the peak detector and the regular step set the clock; a supply event of an armed module
freezes it and begins H0, and of an unarmed one leaves what is non-volatile; a returned supply hands the save over; a boot accepts
two images or reports the stage that failed; the recharged bank arms the module.
That device memory reads 0 after a power-off (entry 2), and the measured energies and the 2,000 ns of H0 (entry 26), are the model's
choices.
Rests also on the model's own readings in notes/assumptions, entries 2, 5, 9, 21, 26, 27, 43 and 60. -/
def Obligations.PackageEvents : Prop :=
  ∀ (s : State),
    (s.booted = true → s.down = false →
      let first (i : Instr) (key : Nat) : Prop := mget s.counters key = none →
        ∃ t, exec i s = .next t ∧ mget t.counters key = some ⟨s.rtime, 1⟩ ∧ t.cores = s.cores ∧ t.nv = s.nv ∧ s.sameMemory t
      (∀ lp ch bank row a mv, first (.correctableError (.dram lp ch bank row a mv)) (counterKey 0 (rowUnit lp ch bank row)) ∧
        ∃ t, exec (.uncorrectableError (.dram lp ch bank row a mv)) s = .next t ∧ (mget t.poison (a / 16)).isSome = true ∧
          s.sameMemory t) ∧
      (∀ k g, first (.correctableError (.scratch k g)) (counterKey 1 (k * 4096 + g / 32 % 4096)) ∧
        (∀ st, mget s.counters (counterKey 1 (k * 4096 + g / 32 % 4096)) = some ⟨st, 15⟩ → s.rtime < st + 86400000000000 →
          (s.core k).blk = none → ∃ t, exec (.correctableError (.scratch k g)) s = .next t ∧ (t.core k).inServ = false) ∧
        ∃ t, exec (.uncorrectableError (.scratch k g)) s = .next t ∧ (t.gran (.scr k) (g % 131072)).pois = true ∧ s.sameMemory t) ∧
      (∀ n lane, first (.crcError (.hbm n lane)) (counterKey 2 (n * 65536 + lane % 65536)) ∧
        first (.crcError (.dieToDie n lane)) (counterKey 3 (n * 65536 + lane % 65536)) ∧
        first (.crcError (.ethernet n lane)) (counterKey 4 (n % 8 * 65536 + lane % 65536))) ∧
      (∀ w, 2100 < w → exec (.peakDetector w) s = .next { s.setFreq (min s.freq 2000) with peak := true }) ∧
      (∀ w, w ≤ 2100 → exec (.peakDetector w) s = .next s) ∧
      (∀ w h0 h1 v, ∃ t, exec (.regularStep w ⟨h0, h1, v⟩) s = .next t ∧ t.peak = false ∧ s.sameMemory t ∧
        (∀ b, b < 32 → t.pwrstat.getLsbD b = if b < 16 then v.testBit b else w.testBit (b - 16)) ∧
        (∀ b, b < 16 → t.temp.getLsbD b = if b < 8 then h0.testBit b else h1.testBit (b - 8)) ∧ t.freq =
        let h := max h0 h1
        if s.peak then min s.freq 2000
        else if s.plim.toNat < w ∨ 105 ≤ h then max 1000 (s.freq - 250)
        else if w < s.plim.toNat - 50 ∧ h < 100 then min 4000 (s.freq + 250) else s.freq) ∧
      (s.hold = none → exec .bankRecharged s = .next { s with armed := true })) ∧
    (∀ key c, mget s.counters key = some c → c.start + counterWindow (key / 2 ^ 48) ≤ s.rtime → risingFrom 0 s.counters = true →
      ∃ t, exec (.counterWindowExpiry key) s = .next t ∧ mget t.counters key = none ∧ s.sameMemory t) ∧
    (∀ m i, i = .powerFail m ∨ i = .overvoltage m ∨ i = .thermalTrip m → s.hold = none →
      (s.booted = true → s.armed = true → ∃ t, exec i s = .next t ∧ t.down = true ∧ t.armed = false ∧
        (∀ k, (t.core k).pend = []) ∧ s.sameMemory t ∧ t.hold =
          some ⟨s.rtime, 0, s.rtime, s.rtime + 2000, 0, false, s.saveOrder.map fun e => ⟨e.1, e.2, s.pieces e.1 e.2⟩, saveExtents, 0, m⟩) ∧
      (s.booted = false ∨ s.armed = false → Memory.wf s.mem = true → ∃ t, exec i s = .next t ∧ t.booted = false ∧ t.cores = [] ∧
        t.ctxs = [] ∧ t.nv = s.nv ∧ ∀ a, Memory.get t.mem a = if hostBase ≤ a then Memory.get s.mem a else 0)) ∧
    (s.hold = none → exec .supplyReturn s = .next { s with power := true }) ∧
    (∀ h, s.hold = some h → h.supply = false →
      (h.step = 0 → exec .supplyReturn s = .next s) ∧
      (h.step = 1 ∨ h.step = 3 → ∃ t, exec .supplyReturn s = .next t ∧ s.sameMemory t ∧ t.hold = some { h with
        hands := h.hands + 1, supply := true, began := s.rtime + 50000, due := s.rtime + 50000 + (h.due - h.began) })) ∧
    (∀ b, s.booted = false → s.hold = none →
      let nv := s.flashed b
      (s.power = false → exec (.boot b) s = .next s) ∧ (s.power = true →
      (nv.pickImage FwSlot.first = none → ∃ t, exec (.boot b) s = .next t ∧ t.bootstat = 0x81 ∧ t.booted = false) ∧
      (∀ x, nv.pickImage FwSlot.first = some x →
        (nv.pickImage FwSlot.main = none →
          ∃ t, exec (.boot b) s = .next t ∧ t.bootstat = 0x82 ∧ t.booted = false) ∧
        (∀ y, nv.pickImage FwSlot.main = some y → ∃ t, exec (.boot b) s = .next t ∧ t.bootstat = 0x07 ∧
          t.booted = true ∧ t.armed = false ∧ t.rtime = 0 ∧ t.nv.boots = s.nv.boots + 1 ∧
          t.nv.fwMin.toNat = max s.nv.fwMin.toNat (max x.version.toNat y.version.toNat) ∧ t.mr[0] = extendMr 0 x.digest ∧
          (s.nv.held = true → t.repHeld = true ∧ t.mint.getLsbD 1 = true)))))

/-! ### Decoding, steps and reset (R77 to R83, R94 to R108) -/

/-- R94, R100 to R106: words written out from the layouts decode to the forms they encode, one or more of every space and family. -/
def Obligations.DecodeWords : Prop :=
  let p0 : Head := ⟨⟨false, 0⟩, false, false, false, false⟩
  -- NG 1, GP 3, PP and WP: ADD.W s5, s17, s30
  decodeForm .c 0b10110101000000000010110001111101 0 0 =
    .ok (.add ⟨⟨true, 3⟩, false, true, false, true⟩ 5 17 30 true) ∧
  -- ADDI s1, s2, −1
  decodeForm .a 0b00000000000100000000100010111111 0 0 = .ok (.addi p0 1 2 0x3F) ∧
  -- MOVIQ s31 and its 64-bit immediate, low lane first
  decodeForm .v 0b00000000001000101111100000000000 0x89ABCDEF 0x01234567 = .ok (.moviq p0 31 0x0123456789ABCDEF) ∧
  -- CMP.LT.unc p1, p2, s3, s4
  decodeForm .c 0b00000000001100000010100010010000 0b00011001000000000000000000000000 0 =
    .ok (.cmp p0 1 2 .unc .lt 3 (.reg 4)) ∧
  -- LD.I32 s7, [h9, s8 − 4], wait full
  decodeForm .a 0b00000000011000001001001110100000 0b00100010000111111111111111111100 0 =
    .ok (.ld p0 9 7 8 .i32 .one 0x1FFFFC) ∧
  -- FMA.RTZ s1, s2, s3, s4 at F32
  decodeForm .c 0b00000000010001000000100010000110 0b00100010100000001000000000000000 0 =
    .ok (.fma p0 1 2 3 4 .rtz false) ∧
  -- MMUL of ring 1 and ring 2 into acc3, M 64, N 1, 1,024 K-steps, signal sem5
  decodeForm .c 0b00000000100000100010101100000000 0b11111100000000000000000000010101 0 =
    .ok (.mmul p0 1 2 (.acc 3) 63 0 0 ⟨false, 0, true, 5⟩) ∧
  -- LDQ h2, t3 to q6, indices s4 and s5, clamp
  decodeForm .a 0b00000000010000000010001110000000 0b00100001011000000000000000000000 0 =
    .ok (.ldq p0 2 3 2 4 5 .clamp .plain false) ∧
  -- VADD.F32 v1, v2, q4
  decodeForm .v 0b00000000010000000000100010100000 0b00000010100000000000000000000000 0 =
    .ok (.vadd p0 (.v 1) (.v 2) (.q 0) .f32 .rne false) ∧
  -- SEMSIG sem6, s7; POOL at s8 with signal sem9
  decodeForm .c 0b00000000100100010110001110000000 0 0 = .ok (.semsig p0 6 7) ∧
  decodeForm .c 0b00000000101000000100011001000000 0 0 = .ok (.pool p0 8 (some 9)) ∧
  -- BR −2 under !p1; PHASE; FENCE.acqrel.dev
  decodeForm .all 0b10010000000000001111111111111110 0 0 = .ok (.br ⟨true, 1⟩ 0xFFFE) ∧
  decodeForm .all 0b00000000000001110000000000000000 0 0 = .ok (.phase ⟨false, 0⟩) ∧
  decodeForm .all 0b00000000000010111110000000000000 0 0 = .ok (.fence ⟨false, 0⟩ .acqrel .dev) ∧
  -- an unassigned opcode, a nonzero reserved bit, a token bit on an ALL lane
  decodeForm .a 0b00000000010000110000000000000000 0 0 = .error .unassignedOpcode ∧
  decodeForm .c 0b00000000001111100000000000000001 0 0 = .error .reservedBits ∧
  decodeForm .all 0b00000001000001110000000000000000 0 0 = .error .tokensOnAll

/-- R94 to R106: the encoder and the decoder agree on every well-formed form of every space, at every value of every operand. -/
def Obligations.DecodeEncode : Prop :=
  ∀ (i : Instr) (sp : Space), i.wfIn sp = true → ∃ w, encodeForm i = some w ∧ decodeForm sp w.1 w.2.1 w.2.2 = .ok i

/-- R80, R81, R83, R108: a turn of the schedule runs its event, or its stream after the time it lets pass (with no rival decode fault,
trigger or earlier increment in its clock); and a stream that is not waiting and whose next lane decodes to a form that awaits no
answer runs exactly that form at that lane, moving past the line checks of R79 where it begins the line; A and V run an ALL form
from its steer entry.
Rests also on the model's own readings in notes/assumptions, entries 4 and 67. -/
def Obligations.StepRunsDecodedForm : Prop :=
  ∀ (s : State),
    (∀ ns cc i r, s.schedule = ⟨ns, cc, .event i⟩ :: r → Instr.isEvent i = true → (∀ k, i ≠ .kStep k) →
      let v := (State.holdNow { s.pass ns cc with schedule := r }).meanwhile
      v.sooner (.event i) (clockActs r) = none → Sys2Proof.Machine.step s = exec i v) ∧
    (∀ ns cc k r, s.schedule = ⟨ns, cc, .event (.kStep k)⟩ :: r →
      let v := (State.holdNow { s.pass ns cc with schedule := r }).meanwhile
      v.clash k (.event (.kStep k)) (clockActs r) = [] → Sys2Proof.Machine.step s = exec (.kStep k) v) ∧
    (∀ ns cc k m r, s.schedule = ⟨ns, cc, .stream k m⟩ :: r →
      let v := (State.holdNow { s.pass ns cc with schedule := r }).meanwhile
      let u : State := { v with cur := k, strm := m }
      v.sooner (.stream k m) (clockActs r) = none → u.clash k (.stream k m) (clockActs r) = [] →
      u.rival (streamsOf k (clockActs r)) = none → Sys2Proof.Machine.step s = u.streamTurn) ∧
    (∀ n sp i,
      let p := s.st.pos
      let l := s.lineOf s.res p.line
      let u := if s.st.begun then s else s.modSt fun x => { x with begun := true }
      let as := [Stm.c, .a, .v].map (Act.stream s.cur)
      s.schedule = [] → s.hold = none → s.rival [.c, .a, .v] = none → s.sooner (.stream s.cur s.strm) as = none →
      s.clash s.cur (.stream s.cur s.strm) as = [] → s.st.blk = .run → s.mayIssue false = true →
      s.st.begun = true ∨ p.lseq ≤ s.me.r.minLseq + s.me.r.win ∧ lineFault l = none → p.line < s.res.codelines →
      s.st.skip = none → nextLane (8 - p.lane) s.strm l p.lane = some n → tagSpace (tagOf l n) = some sp →
      (sp = .all → s.strm ≠ .c → ∀ e es, s.st.steer = e :: es → Sys2Proof.Machine.step s = exec e.form (u.atLane n)) ∧
      (sp ≠ .all ∨ s.strm = .c → decodeForm sp (l.getD n 0) (l.getD (n + 1) 0) (l.getD (n + 2) 0) = .ok i →
        declaredOk s.res.hdr s.strm i = true → s.awaited i = false →
        Sys2Proof.Machine.step s = exec i (if s.strm = .c ∧ keepsQuiet i = false then
          (u.atLane n).modMe fun c => { c with quietPt := false } else u.atLane n)))

/-- Memory keeps its canonical form over every step, from every state in which it has it.
Rests also on the model's own readings in notes/assumptions, entry 2. -/
def Obligations.MemoryCanonicalStep : Prop :=
  ∀ (s t : State), Memory.wf s.mem = true → Sys2Proof.Machine.step s = .next t → Memory.wf t.mem = true

/-- The keys of the hot-row ways and of every core's scratch, accumulators, snapshots, pending stores and publications, and those of
every checkpoint's scratch and accumulators, rise over every step, from every state in which they do (R182, R237, R257, R264, R300,
R353): no map lists a key twice. -/
def Obligations.KeysRiseStep : Prop :=
  ∀ (s t : State), s.keysRise → Sys2Proof.Machine.step s = .next t → t.keysRise

/-- R40, R74, R135, R136, R346, R376, R379, R403 to R405: what reset leaves: the registers of the context pages, control pages and module
at the reset values of their tables, every stream's registers zero with p0 true, no context, no core in service, memory in its
canonical form and no map that lists a key twice.
That no context, core service or boot stands at reset, and that memory lists nothing, are the model's choices: notes/assumptions,
entries 1, 2 and 9. -/
def Obligations.ResetState : Prop :=
  let s := State.reset
  Memory.wf s.mem = true ∧ s.keysRise ∧ s.cores = [] ∧ s.ctxs = [] ∧ s.booted = false ∧ s.armed = false ∧
  (∀ m : Stm, ∀ i : Fin 32, ((s.core 0).str m).s[i] = 0) ∧
  (∀ m : Stm, ∀ i : Fin 8, ((s.core 0).str m).pb i = decide (i = 0)) ∧
  (∀ i : Fin 16, (s.core 0).r.vr[i] = 0 ∧ (s.core 0).sem[i] = 0) ∧ (s.core 0).r.win = 256 ∧
  (∀ c : Fin 8, s.registerRead (0x10010 + 4096 * c.val) = 6 ∧ s.registerRead (0x10028 + 4096 * c.val) = 0x100 ∧
    s.registerRead (0x18000 + 4096 * c.val) = 3125 ∧ s.registerRead (0x18008 + 4096 * c.val) = 6250 ∧
    s.registerRead (0x18020 + 4096 * c.val) = 1000) ∧
  bits (s.registerRead 0x8000).toNat 23 16 = 48 ∧ bits (s.registerRead 0x8020).toNat 63 56 = 160 ∧
  bits (s.registerRead 0x8020).toNat 55 48 = 8 ∧ bits (s.registerRead 0x8020).toNat 47 40 = 48 ∧
  s.registerRead 0x08 = 0x01 ∧ s.registerRead 0x28 = 1800 ∧ s.registerRead 0x38 = 0 ∧ s.registerRead 0x60000 = 1 ∧
  s.registerRead 0x60008 = 0 ∧ s.registerRead 0x90008 = 4 ∧ s.registerRead 0x90018 = 0 ∧ s.nv.hrcsz = 64 ∧ s.nv.lplease = 48
end

