-- ==== Sys2Proof/Laws/Maps.lean ====
section
/-!
SUPPORT. Sys2Proof/Laws/Maps.lean: sparse maps: read after write, and that writing keeps the keys strictly rising.
-/
namespace Sys2Proof.Laws
open Sys2Proof.Machine

variable {α : Type}

@[simp] theorem mget_nil (k : Nat) : mget ([] : List (Nat × α)) k = none := rfl
@[simp] theorem mget_mset_self (m : List (Nat × α)) (k : Nat) (v : α) : mget (mset m k v) k = some v := by
  induction m with
  | nil => simp [mset, mget]
  | cons e r ih =>
    obtain ⟨i, x⟩ := e
    simp only [mset]
    split
    · simp_all [mget]
    · split
      · simp [mget]
      · simp_all [mget]

/-- A write at one key leaves every other key alone. -/
theorem mget_mset_ne (m : List (Nat × α)) {k j : Nat} (v : α) (h : j ≠ k) : mget (mset m k v) j = mget m j := by
  induction m with
  | nil => simp only [mset, mget]; split <;> [omega; (split <;> rfl)]
  | cons e r ih =>
    obtain ⟨i, x⟩ := e
    simp only [mset]
    split
    · subst i; simp [mget, h]
    · split
      · simp only [mget]
        split
        · omega
        · split
          · rw [if_neg (by omega), if_pos (by omega)]
          · rfl
      · simp only [mget, ih]

@[simp] theorem mset_mset (m : List (Nat × α)) (k : Nat) (v w : α) : mset (mset m k v) k w = mset m k w := by
  induction m with
  | nil => simp [mset]
  | cons e r ih =>
    obtain ⟨i, x⟩ := e
    simp only [mset]
    split
    · subst i; simp [mset]
    · split
      · simp [mset]
      · rename_i h1 h2
        simp [mset, h1, h2, ih]

@[simp] theorem mgetD_mset_self (m : List (Nat × α)) (k : Nat) (v d : α) : mgetD (mset m k v) k d = v := by
  simp [mgetD]

theorem mgetD_mset_ne (m : List (Nat × α)) {k j : Nat} (v d : α) (h : j ≠ k) :
    mgetD (mset m k v) j d = mgetD m j d := by
  simp [mgetD, mget_mset_ne m v h]

/-- Raising the lower bound of rising keys downwards. -/
theorem risingFrom_mono {m : List (Nat × α)} {lo hi : Nat} (h : lo ≤ hi) (hm : risingFrom hi m = true) :
    risingFrom lo m = true := by
  cases m with
  | nil => rfl
  | cons e r =>
    simp only [risingFrom, Bool.and_eq_true, decide_eq_true_eq] at hm ⊢
    exact ⟨by omega, hm.2⟩

theorem risingFrom_mset {m : List (Nat × α)} {lo k : Nat} (v : α) (hm : risingFrom lo m = true) (hk : lo ≤ k) :
    risingFrom lo (mset m k v) = true := by
  induction m generalizing lo with
  | nil => simp [mset, risingFrom, hk]
  | cons e r ih =>
    obtain ⟨i, x⟩ := e
    simp only [risingFrom, Bool.and_eq_true, decide_eq_true_eq] at hm
    simp only [mset]
    split
    · simp [risingFrom, hm]
    · split
      · simp only [risingFrom, Bool.and_eq_true, decide_eq_true_eq]
        exact ⟨hk, by omega, hm.2⟩
      · simp only [risingFrom, Bool.and_eq_true, decide_eq_true_eq]
        exact ⟨hm.1, ih hm.2 (by omega)⟩

theorem risingFrom_mdel {m : List (Nat × α)} {lo : Nat} (k : Nat) (hm : risingFrom lo m = true) :
    risingFrom lo (mdel m k) = true := by
  induction m generalizing lo with
  | nil => rfl
  | cons e r ih =>
    obtain ⟨i, x⟩ := e
    simp only [risingFrom, Bool.and_eq_true, decide_eq_true_eq] at hm
    simp only [mdel]
    split
    · exact risingFrom_mono (by omega) hm.2
    · split
      · simp [risingFrom, hm]
      · simp only [risingFrom, Bool.and_eq_true, decide_eq_true_eq]
        exact ⟨hm.1, ih hm.2⟩

theorem mget_none_of_lt {m : List (Nat × α)} {lo k : Nat} (hm : risingFrom lo m = true) (hk : k < lo) :
    mget m k = none := by
  cases m with
  | nil => rfl
  | cons e r =>
    simp only [risingFrom, Bool.and_eq_true, decide_eq_true_eq] at hm
    simp only [mget]
    rw [if_neg (by omega), if_pos (by omega)]

theorem mget_mdel_self {m : List (Nat × α)} {lo : Nat} (k : Nat) (hm : risingFrom lo m = true) :
    mget (mdel m k) k = none := by
  induction m generalizing lo with
  | nil => rfl
  | cons e r ih =>
    obtain ⟨i, x⟩ := e
    simp only [risingFrom, Bool.and_eq_true, decide_eq_true_eq] at hm
    simp only [mdel]
    split
    · exact mget_none_of_lt hm.2 (by omega)
    · split
      · rename_i h1 h2; simp [mget, h1, h2]
      · rename_i h1 h2; simp only [mget, h1, h2, if_false]; exact ih hm.2

theorem mget_mdel_ne {m : List (Nat × α)} {lo : Nat} {k j : Nat} (hm : risingFrom lo m = true) (h : j ≠ k) :
    mget (mdel m k) j = mget m j := by
  induction m generalizing lo with
  | nil => rfl
  | cons e r ih =>
    obtain ⟨i, x⟩ := e
    simp only [risingFrom, Bool.and_eq_true, decide_eq_true_eq] at hm
    simp only [mdel]
    split
    · simp only [mget]
      rw [if_neg (by omega)]
      split
      · exact mget_none_of_lt hm.2 (by omega)
      · rfl
    · split
      · rfl
      · simp only [mget, ih hm.2]

/-- Read after write in a map whose absent entries stand for a default. -/
theorem mgetD_mput_self [DecidableEq α] {m : List (Nat × α)} (d v : α) (k : Nat) (hm : risingFrom 0 m = true) :
    mgetD (mput d m k v) k d = v := by
  unfold mput
  split
  · simp_all [mgetD, mget_mdel_self k hm]
  · simp

theorem mgetD_mput_ne [DecidableEq α] {m : List (Nat × α)} (d v : α) {k j : Nat} (hm : risingFrom 0 m = true)
    (h : j ≠ k) : mgetD (mput d m k v) j d = mgetD m j d := by
  unfold mput
  split
  · simp [mgetD, mget_mdel_ne hm h]
  · exact mgetD_mset_ne m v d h

theorem mem_mset {m : List (Nat × α)} {k : Nat} {v : α} {e : Nat × α} (h : e ∈ mset m k v) : e = (k, v) ∨ e ∈ m := by
  induction m with
  | nil => simp_all [mset]
  | cons a r ih =>
    obtain ⟨i, x⟩ := a
    simp only [mset] at h
    split at h
    · subst i; rcases List.mem_cons.1 h with h | h <;> simp [h]
    · split at h
      · rcases List.mem_cons.1 h with h | h <;> simp [h]
      · rcases List.mem_cons.1 h with h | h
        · simp [h]
        · rcases ih h with h | h <;> simp [h]

theorem mem_mdel {m : List (Nat × α)} {k : Nat} {e : Nat × α} (h : e ∈ mdel m k) : e ∈ m := by
  induction m with
  | nil => simp_all [mdel]
  | cons a r ih =>
    obtain ⟨i, x⟩ := a
    simp only [mdel] at h
    split at h
    · simp [h]
    · split at h
      · exact h
      · rcases List.mem_cons.1 h with h | h
        · simp [h]
        · simp [ih h]

end Sys2Proof.Laws
end

