-- ==== Sys2Proof/Laws/Memory.lean ====
section
/-!
SUPPORT. Sys2Proof/Laws/Memory.lean: memory's canonical form is kept by every operation that writes memory, and a read after
a write.
-/
namespace Sys2Proof.Laws
open Sys2Proof Sys2Proof.Machine

theorem memory_wf_iff (m : List Host.Cell) :
    Memory.wf m = true ↔ risingFrom 0 m = true ∧ ∀ c ∈ m, c.2 ≠ Memory.blank := by
  simp [Memory.wf, List.all_eq_true]

theorem memory_wf_nil : Memory.wf [] = true := by decide

/-- Writing one byte keeps the canonical form. -/
theorem memory_set_wf {m : List Host.Cell} (a : Nat) (b : Byte) (h : Memory.wf m = true) :
    Memory.wf (Memory.set m a b) = true := by
  rw [memory_wf_iff] at h ⊢
  unfold Memory.set mput
  split
  · exact ⟨risingFrom_mdel a h.1, fun c hc => h.2 c (mem_mdel hc)⟩
  · refine ⟨risingFrom_mset b h.1 (Nat.zero_le _), fun c hc => ?_⟩
    rcases mem_mset hc with hc | hc
    · subst hc; assumption
    · exact h.2 c hc

/-- Writing bytes keeps the canonical form. -/
theorem memory_setAll_wf {m : List Host.Cell} (cells : List Host.Cell) (h : Memory.wf m = true) :
    Memory.wf (Memory.setAll m cells) = true := by
  unfold Memory.setAll
  induction cells generalizing m with
  | nil => exact h
  | cons c r ih => exact ih (memory_set_wf c.1 c.2 h)

theorem memory_get_set_self {m : List Host.Cell} (a : Nat) (b : Byte) (h : Memory.wf m = true) :
    Memory.get (Memory.set m a b) a = b := mgetD_mput_self _ _ _ ((memory_wf_iff m).1 h).1

theorem memory_get_set_ne {m : List Host.Cell} {a j : Nat} (b : Byte) (h : Memory.wf m = true) (hj : j ≠ a) :
    Memory.get (Memory.set m a b) j = Memory.get m j := mgetD_mput_ne _ _ ((memory_wf_iff m).1 h).1 hj

/-- A write leaves every address it does not name alone. -/
theorem memory_get_setAll_ne {m : List Host.Cell} (cells : List Host.Cell) {j : Nat} (h : Memory.wf m = true)
    (hj : ∀ c ∈ cells, c.1 ≠ j) : Memory.get (Memory.setAll m cells) j = Memory.get m j := by
  unfold Memory.setAll
  induction cells generalizing m with
  | nil => rfl
  | cons c r ih =>
    rw [List.foldl_cons, ih (memory_set_wf _ _ h) fun x hx => hj x (List.mem_cons_of_mem _ hx)]
    exact memory_get_set_ne _ h (Ne.symm (hj c List.mem_cons_self))

/-! ### The operations of the machine that write memory -/

theorem perform_wf {s : State} (g : Nat) (v : View) (cells : List Host.Cell) (h : Memory.wf s.mem = true) :
    Memory.wf (s.perform g v cells).mem = true := by
  unfold State.perform
  split
  · exact h
  · exact memory_setAll_wf cells h

@[simp] theorem setWay_mem (s : State) (k : Nat) (w : Way) : (s.setWay k w).mem = s.mem := rfl
@[simp] theorem clearWay_mem (s : State) (k : Nat) : (s.clearWay k).mem = s.mem := by
  unfold State.clearWay; split <;> rfl

theorem foldl_clearWay_mem (l : List (Nat × Way)) (s : State) :
    (l.foldl (fun t w => t.clearWay w.1) s).mem = s.mem := by
  induction l generalizing s with
  | nil => rfl
  | cons w r ih => rw [List.foldl_cons, ih, clearWay_mem]

@[simp] theorem clearRows_mem (s : State) (as : List Nat) : (s.clearRows as).mem = s.mem := foldl_clearWay_mem _ s
@[simp] theorem clearWays_mem (s : State) (p : Way → Bool) : (s.clearWays p).mem = s.mem := foldl_clearWay_mem _ s

theorem memWrite_wf {s : State} (g : Nat) (v : View) (cells : List Host.Cell) (h : Memory.wf s.mem = true) :
    Memory.wf (s.memWrite g v cells).mem = true := perform_wf g v cells (by simpa using h)

theorem engWrite_wf {s : State} (e : EView) (cells : List Host.Cell) (h : Memory.wf s.mem = true) :
    Memory.wf (s.engWrite e cells).mem = true := by
  unfold State.engWrite
  induction ((cells.map fun c => c.1 / 16).dedup) generalizing s with
  | nil => exact h
  | cons g r ih => exact ih (memWrite_wf (s := (s.newAgent _).2) _ _ _ h)

theorem loneWrite_wf {s : State} (cls : Nat) (cells : List Host.Cell) (h : Memory.wf s.mem = true) :
    Memory.wf (s.loneWrite cls cells).mem = true := memWrite_wf _ _ cells h

theorem hostWrite_wf {s : State} (cells : List Host.Cell) (h : Memory.wf s.mem = true) :
    Memory.wf (s.hostWrite cells).mem = true := perform_wf _ _ _ (by simpa using h)

theorem foldl_memWrite_wf (l : List (Nat × List Host.Cell)) (s : State) (h : Memory.wf s.mem = true) :
    Memory.wf (l.foldl (fun t e => t.memWrite (oneOff hostClass e.1) [] e.2) s).mem = true := by
  induction l generalizing s with
  | nil => exact h
  | cons e r ih => exact ih _ (memWrite_wf _ _ e.2 h)

theorem rowRelease_wf {s : State} (h : Memory.wf s.mem = true) : Memory.wf s.rowRelease.mem = true :=
  foldl_memWrite_wf _ _ h

@[simp] theorem setCore_mem (s : State) (k : Nat) (c : Core) : (s.setCore k c).mem = s.mem := rfl
@[simp] theorem modCore_mem (s : State) (k : Nat) (f : Core → Core) : (s.modCore k f).mem = s.mem := rfl
@[simp] theorem setCtx_mem (s : State) (k : Nat) (c : Ctx) : (s.setCtx k c).mem = s.mem := rfl
@[simp] theorem modCtx_mem (s : State) (k : Nat) (f : Ctx → Ctx) : (s.modCtx k f).mem = s.mem := rfl
@[simp] theorem modMe_mem (s : State) (f : Core → Core) : (s.modMe f).mem = s.mem := rfl
@[simp] theorem modSt_mem (s : State) (f : Stream → Stream) : (s.modSt f).mem = s.mem := rfl
@[simp] theorem modRegs_mem (s : State) (f : Regs → Regs) : (s.modRegs f).mem = s.mem := rfl
@[simp] theorem setPoison_mem (s : State) (gs : List Nat) : (s.setPoison gs).mem = s.mem := rfl
@[simp] theorem refresh_mem (s : State) (k : Nat) : (s.refresh k).mem = s.mem := rfl
@[simp] theorem orderReads_mem (s : State) : s.orderReads.mem = s.mem := rfl
@[simp] theorem setGran_mem (s : State) (w : Where) (g : Nat) (x : SGran) : (s.setGran w g x).mem = s.mem := by
  cases w <;> rfl

end Sys2Proof.Laws
end

