-- ==== Sys2Proof/Laws/State.lean ====
section
/-!
SUPPORT. Sys2Proof/Laws/State.lean: what each update of the state leaves alone and what a read after it gives: one lemma per
field for writing a core and for writing a context, and the read-after-write lemmas of cores, streams, scalars,
predicates, flags and tokens.
-/
namespace Sys2Proof.Laws
open Sys2Proof Sys2Proof.Machine

@[simp] theorem setCore_schedule (s : State) (k : Nat) (c : Core) : (s.setCore k c).schedule = s.schedule := rfl
@[simp] theorem setCore_cur (s : State) (k : Nat) (c : Core) : (s.setCore k c).cur = s.cur := rfl
@[simp] theorem setCore_strm (s : State) (k : Nat) (c : Core) : (s.setCore k c).strm = s.strm := rfl
@[simp] theorem setCore_free (s : State) (k : Nat) (c : Core) : (s.setCore k c).free = s.free := rfl
@[simp] theorem setCore_wseq (s : State) (k : Nat) (c : Core) : (s.setCore k c).wseq = s.wseq := rfl
@[simp] theorem setCore_agents (s : State) (k : Nat) (c : Core) : (s.setCore k c).agents = s.agents := rfl
@[simp] theorem setCore_hist (s : State) (k : Nat) (c : Core) : (s.setCore k c).hist = s.hist := rfl
@[simp] theorem setCore_msgs (s : State) (k : Nat) (c : Core) : (s.setCore k c).msgs = s.msgs := rfl
@[simp] theorem setCore_ghist (s : State) (k : Nat) (c : Core) : (s.setCore k c).ghist = s.ghist := rfl
@[simp] theorem setCore_engs (s : State) (k : Nat) (c : Core) : (s.setCore k c).engs = s.engs := rfl
@[simp] theorem setCore_hostN (s : State) (k : Nat) (c : Core) : (s.setCore k c).hostN = s.hostN := rfl
@[simp] theorem setCore_rtime (s : State) (k : Nat) (c : Core) : (s.setCore k c).rtime = s.rtime := rfl
@[simp] theorem setCore_poison (s : State) (k : Nat) (c : Core) : (s.setCore k c).poison = s.poison := rfl
@[simp] theorem setCore_ctxs (s : State) (k : Nat) (c : Core) : (s.setCore k c).ctxs = s.ctxs := rfl
@[simp] theorem setCore_tags (s : State) (k : Nat) (c : Core) : (s.setCore k c).tags = s.tags := rfl
@[simp] theorem setCore_links (s : State) (k : Nat) (c : Core) : (s.setCore k c).links = s.links := rfl
@[simp] theorem setCore_ready (s : State) (k : Nat) (c : Core) : (s.setCore k c).ready = s.ready := rfl
@[simp] theorem setCore_resv (s : State) (k : Nat) (c : Core) : (s.setCore k c).resv = s.resv := rfl
@[simp] theorem setCore_arms (s : State) (k : Nat) (c : Core) : (s.setCore k c).arms = s.arms := rfl
@[simp] theorem setCore_reev (s : State) (k : Nat) (c : Core) : (s.setCore k c).reev = s.reev := rfl
@[simp] theorem setCore_runs (s : State) (k : Nat) (c : Core) : (s.setCore k c).runs = s.runs := rfl
@[simp] theorem setCore_nextRun (s : State) (k : Nat) (c : Core) : (s.setCore k c).nextRun = s.nextRun := rfl
@[simp] theorem setCore_unitQ (s : State) (k : Nat) (c : Core) : (s.setCore k c).unitQ = s.unitQ := rfl
@[simp] theorem setCore_nmbase (s : State) (k : Nat) (c : Core) : (s.setCore k c).nmbase = s.nmbase := rfl
@[simp] theorem setCore_nmext (s : State) (k : Nat) (c : Core) : (s.setCore k c).nmext = s.nmext := rfl
@[simp] theorem setCore_nmctx (s : State) (k : Nat) (c : Core) : (s.setCore k c).nmctx = s.nmctx := rfl
@[simp] theorem setCore_teasel (s : State) (k : Nat) (c : Core) : (s.setCore k c).teasel = s.teasel := rfl
@[simp] theorem setCore_leases (s : State) (k : Nat) (c : Core) : (s.setCore k c).leases = s.leases := rfl
@[simp] theorem setCore_ways (s : State) (k : Nat) (c : Core) : (s.setCore k c).ways = s.ways := rfl
@[simp] theorem setCore_rowHold (s : State) (k : Nat) (c : Core) : (s.setCore k c).rowHold = s.rowHold := rfl
@[simp] theorem setCore_peers (s : State) (k : Nat) (c : Core) : (s.setCore k c).peers = s.peers := rfl
@[simp] theorem setCore_tx (s : State) (k : Nat) (c : Core) : (s.setCore k c).tx = s.tx := rfl
@[simp] theorem setCore_nextTx (s : State) (k : Nat) (c : Core) : (s.setCore k c).nextTx = s.nextTx := rfl
@[simp] theorem setCore_txlog (s : State) (k : Nat) (c : Core) : (s.setCore k c).txlog = s.txlog := rfl
@[simp] theorem setCore_rxhold (s : State) (k : Nat) (c : Core) : (s.setCore k c).rxhold = s.rxhold := rfl
@[simp] theorem setCore_rxPuts (s : State) (k : Nat) (c : Core) : (s.setCore k c).rxPuts = s.rxPuts := rfl
@[simp] theorem setCore_portDrop (s : State) (k : Nat) (c : Core) : (s.setCore k c).portDrop = s.portDrop := rfl
@[simp] theorem setCore_config (s : State) (k : Nat) (c : Core) : (s.setCore k c).config = s.config := rfl
@[simp] theorem setCore_lcores (s : State) (k : Nat) (c : Core) : (s.setCore k c).lcores = s.lcores := rfl
@[simp] theorem setCore_power (s : State) (k : Nat) (c : Core) : (s.setCore k c).power = s.power := rfl
@[simp] theorem setCore_booted (s : State) (k : Nat) (c : Core) : (s.setCore k c).booted = s.booted := rfl
@[simp] theorem setCore_down (s : State) (k : Nat) (c : Core) : (s.setCore k c).down = s.down := rfl
@[simp] theorem setCore_hold (s : State) (k : Nat) (c : Core) : (s.setCore k c).hold = s.hold := rfl
@[simp] theorem setCore_bbring (s : State) (k : Nat) (c : Core) : (s.setCore k c).bbring = s.bbring := rfl
@[simp] theorem setCore_bbnext (s : State) (k : Nat) (c : Core) : (s.setCore k c).bbnext = s.bbnext := rfl
@[simp] theorem setCore_frozen (s : State) (k : Nat) (c : Core) : (s.setCore k c).frozen = s.frozen := rfl
@[simp] theorem setCore_bblost (s : State) (k : Nat) (c : Core) : (s.setCore k c).bblost = s.bblost := rfl
@[simp] theorem setCore_counters (s : State) (k : Nat) (c : Core) : (s.setCore k c).counters = s.counters := rfl
@[simp] theorem setCore_spares (s : State) (k : Nat) (c : Core) : (s.setCore k c).spares = s.spares := rfl
@[simp] theorem setCore_hucap (s : State) (k : Nat) (c : Core) : (s.setCore k c).hucap = s.hucap := rfl
@[simp] theorem setCore_hubud (s : State) (k : Nat) (c : Core) : (s.setCore k c).hubud = s.hubud := rfl
@[simp] theorem setCore_armed (s : State) (k : Nat) (c : Core) : (s.setCore k c).armed = s.armed := rfl
@[simp] theorem setCore_report (s : State) (k : Nat) (c : Core) : (s.setCore k c).report = s.report := rfl
@[simp] theorem setCore_repHeld (s : State) (k : Nat) (c : Core) : (s.setCore k c).repHeld = s.repHeld := rfl
@[simp] theorem setCore_lowbank (s : State) (k : Nat) (c : Core) : (s.setCore k c).lowbank = s.lowbank := rfl
@[simp] theorem setCore_bootstat (s : State) (k : Nat) (c : Core) : (s.setCore k c).bootstat = s.bootstat := rfl
@[simp] theorem setCore_fwver (s : State) (k : Nat) (c : Core) : (s.setCore k c).fwver = s.fwver := rfl
@[simp] theorem setCore_pwrstat (s : State) (k : Nat) (c : Core) : (s.setCore k c).pwrstat = s.pwrstat := rfl
@[simp] theorem setCore_temp (s : State) (k : Nat) (c : Core) : (s.setCore k c).temp = s.temp := rfl
@[simp] theorem setCore_plim (s : State) (k : Nat) (c : Core) : (s.setCore k c).plim = s.plim := rfl
@[simp] theorem setCore_portstat (s : State) (k : Nat) (c : Core) : (s.setCore k c).portstat = s.portstat := rfl
@[simp] theorem setCore_mint (s : State) (k : Nat) (c : Core) : (s.setCore k c).mint = s.mint := rfl
@[simp] theorem setCore_mr (s : State) (k : Nat) (c : Core) : (s.setCore k c).mr = s.mr := rfl
@[simp] theorem setCore_mextd (s : State) (k : Nat) (c : Core) : (s.setCore k c).mextd = s.mextd := rfl
@[simp] theorem setCore_atnonce (s : State) (k : Nat) (c : Core) : (s.setCore k c).atnonce = s.atnonce := rfl
@[simp] theorem setCore_atbuild (s : State) (k : Nat) (c : Core) : (s.setCore k c).atbuild = s.atbuild := rfl
@[simp] theorem setCore_atdone (s : State) (k : Nat) (c : Core) : (s.setCore k c).atdone = s.atdone := rfl
@[simp] theorem setCore_atbusy (s : State) (k : Nat) (c : Core) : (s.setCore k c).atbusy = s.atbusy := rfl
@[simp] theorem setCore_atrep (s : State) (k : Nat) (c : Core) : (s.setCore k c).atrep = s.atrep := rfl
@[simp] theorem setCore_freq (s : State) (k : Nat) (c : Core) : (s.setCore k c).freq = s.freq := rfl
@[simp] theorem setCore_nsPart (s : State) (k : Nat) (c : Core) : (s.setCore k c).nsPart = s.nsPart := rfl
@[simp] theorem setCore_ccPart (s : State) (k : Nat) (c : Core) : (s.setCore k c).ccPart = s.ccPart := rfl
@[simp] theorem setCore_peak (s : State) (k : Nat) (c : Core) : (s.setCore k c).peak = s.peak := rfl
@[simp] theorem setCore_rqbase (s : State) (k : Nat) (c : Core) : (s.setCore k c).rqbase = s.rqbase := rfl
@[simp] theorem setCore_rqsize (s : State) (k : Nat) (c : Core) : (s.setCore k c).rqsize = s.rqsize := rfl
@[simp] theorem setCore_rqtail (s : State) (k : Nat) (c : Core) : (s.setCore k c).rqtail = s.rqtail := rfl
@[simp] theorem setCore_rqhead (s : State) (k : Nat) (c : Core) : (s.setCore k c).rqhead = s.rqhead := rfl
@[simp] theorem setCore_waitReq (s : State) (k : Nat) (c : Core) : (s.setCore k c).waitReq = s.waitReq := rfl
@[simp] theorem setCore_msixMask (s : State) (k : Nat) (c : Core) : (s.setCore k c).msixMask = s.msixMask := rfl
@[simp] theorem setCore_msixPend (s : State) (k : Nat) (c : Core) : (s.setCore k c).msixPend = s.msixPend := rfl
@[simp] theorem setCore_msixTab (s : State) (k : Nat) (c : Core) : (s.setCore k c).msixTab = s.msixTab := rfl
@[simp] theorem setCore_msixSent (s : State) (k : Nat) (c : Core) : (s.setCore k c).msixSent = s.msixSent := rfl
@[simp] theorem setCore_nv (s : State) (k : Nat) (c : Core) : (s.setCore k c).nv = s.nv := rfl

@[simp] theorem setCtx_schedule (s : State) (k : Nat) (c : Ctx) : (s.setCtx k c).schedule = s.schedule := rfl
@[simp] theorem setCtx_cur (s : State) (k : Nat) (c : Ctx) : (s.setCtx k c).cur = s.cur := rfl
@[simp] theorem setCtx_strm (s : State) (k : Nat) (c : Ctx) : (s.setCtx k c).strm = s.strm := rfl
@[simp] theorem setCtx_free (s : State) (k : Nat) (c : Ctx) : (s.setCtx k c).free = s.free := rfl
@[simp] theorem setCtx_wseq (s : State) (k : Nat) (c : Ctx) : (s.setCtx k c).wseq = s.wseq := rfl
@[simp] theorem setCtx_agents (s : State) (k : Nat) (c : Ctx) : (s.setCtx k c).agents = s.agents := rfl
@[simp] theorem setCtx_hist (s : State) (k : Nat) (c : Ctx) : (s.setCtx k c).hist = s.hist := rfl
@[simp] theorem setCtx_msgs (s : State) (k : Nat) (c : Ctx) : (s.setCtx k c).msgs = s.msgs := rfl
@[simp] theorem setCtx_ghist (s : State) (k : Nat) (c : Ctx) : (s.setCtx k c).ghist = s.ghist := rfl
@[simp] theorem setCtx_engs (s : State) (k : Nat) (c : Ctx) : (s.setCtx k c).engs = s.engs := rfl
@[simp] theorem setCtx_hostN (s : State) (k : Nat) (c : Ctx) : (s.setCtx k c).hostN = s.hostN := rfl
@[simp] theorem setCtx_rtime (s : State) (k : Nat) (c : Ctx) : (s.setCtx k c).rtime = s.rtime := rfl
@[simp] theorem setCtx_poison (s : State) (k : Nat) (c : Ctx) : (s.setCtx k c).poison = s.poison := rfl
@[simp] theorem setCtx_cores (s : State) (k : Nat) (c : Ctx) : (s.setCtx k c).cores = s.cores := rfl
@[simp] theorem setCtx_tags (s : State) (k : Nat) (c : Ctx) : (s.setCtx k c).tags = s.tags := rfl
@[simp] theorem setCtx_links (s : State) (k : Nat) (c : Ctx) : (s.setCtx k c).links = s.links := rfl
@[simp] theorem setCtx_ready (s : State) (k : Nat) (c : Ctx) : (s.setCtx k c).ready = s.ready := rfl
@[simp] theorem setCtx_resv (s : State) (k : Nat) (c : Ctx) : (s.setCtx k c).resv = s.resv := rfl
@[simp] theorem setCtx_arms (s : State) (k : Nat) (c : Ctx) : (s.setCtx k c).arms = s.arms := rfl
@[simp] theorem setCtx_reev (s : State) (k : Nat) (c : Ctx) : (s.setCtx k c).reev = s.reev := rfl
@[simp] theorem setCtx_runs (s : State) (k : Nat) (c : Ctx) : (s.setCtx k c).runs = s.runs := rfl
@[simp] theorem setCtx_nextRun (s : State) (k : Nat) (c : Ctx) : (s.setCtx k c).nextRun = s.nextRun := rfl
@[simp] theorem setCtx_unitQ (s : State) (k : Nat) (c : Ctx) : (s.setCtx k c).unitQ = s.unitQ := rfl
@[simp] theorem setCtx_nmbase (s : State) (k : Nat) (c : Ctx) : (s.setCtx k c).nmbase = s.nmbase := rfl
@[simp] theorem setCtx_nmext (s : State) (k : Nat) (c : Ctx) : (s.setCtx k c).nmext = s.nmext := rfl
@[simp] theorem setCtx_nmctx (s : State) (k : Nat) (c : Ctx) : (s.setCtx k c).nmctx = s.nmctx := rfl
@[simp] theorem setCtx_teasel (s : State) (k : Nat) (c : Ctx) : (s.setCtx k c).teasel = s.teasel := rfl
@[simp] theorem setCtx_leases (s : State) (k : Nat) (c : Ctx) : (s.setCtx k c).leases = s.leases := rfl
@[simp] theorem setCtx_ways (s : State) (k : Nat) (c : Ctx) : (s.setCtx k c).ways = s.ways := rfl
@[simp] theorem setCtx_rowHold (s : State) (k : Nat) (c : Ctx) : (s.setCtx k c).rowHold = s.rowHold := rfl
@[simp] theorem setCtx_peers (s : State) (k : Nat) (c : Ctx) : (s.setCtx k c).peers = s.peers := rfl
@[simp] theorem setCtx_tx (s : State) (k : Nat) (c : Ctx) : (s.setCtx k c).tx = s.tx := rfl
@[simp] theorem setCtx_nextTx (s : State) (k : Nat) (c : Ctx) : (s.setCtx k c).nextTx = s.nextTx := rfl
@[simp] theorem setCtx_txlog (s : State) (k : Nat) (c : Ctx) : (s.setCtx k c).txlog = s.txlog := rfl
@[simp] theorem setCtx_rxhold (s : State) (k : Nat) (c : Ctx) : (s.setCtx k c).rxhold = s.rxhold := rfl
@[simp] theorem setCtx_rxPuts (s : State) (k : Nat) (c : Ctx) : (s.setCtx k c).rxPuts = s.rxPuts := rfl
@[simp] theorem setCtx_portDrop (s : State) (k : Nat) (c : Ctx) : (s.setCtx k c).portDrop = s.portDrop := rfl
@[simp] theorem setCtx_config (s : State) (k : Nat) (c : Ctx) : (s.setCtx k c).config = s.config := rfl
@[simp] theorem setCtx_lcores (s : State) (k : Nat) (c : Ctx) : (s.setCtx k c).lcores = s.lcores := rfl
@[simp] theorem setCtx_power (s : State) (k : Nat) (c : Ctx) : (s.setCtx k c).power = s.power := rfl
@[simp] theorem setCtx_booted (s : State) (k : Nat) (c : Ctx) : (s.setCtx k c).booted = s.booted := rfl
@[simp] theorem setCtx_down (s : State) (k : Nat) (c : Ctx) : (s.setCtx k c).down = s.down := rfl
@[simp] theorem setCtx_hold (s : State) (k : Nat) (c : Ctx) : (s.setCtx k c).hold = s.hold := rfl
@[simp] theorem setCtx_bbring (s : State) (k : Nat) (c : Ctx) : (s.setCtx k c).bbring = s.bbring := rfl
@[simp] theorem setCtx_bbnext (s : State) (k : Nat) (c : Ctx) : (s.setCtx k c).bbnext = s.bbnext := rfl
@[simp] theorem setCtx_frozen (s : State) (k : Nat) (c : Ctx) : (s.setCtx k c).frozen = s.frozen := rfl
@[simp] theorem setCtx_bblost (s : State) (k : Nat) (c : Ctx) : (s.setCtx k c).bblost = s.bblost := rfl
@[simp] theorem setCtx_counters (s : State) (k : Nat) (c : Ctx) : (s.setCtx k c).counters = s.counters := rfl
@[simp] theorem setCtx_spares (s : State) (k : Nat) (c : Ctx) : (s.setCtx k c).spares = s.spares := rfl
@[simp] theorem setCtx_hucap (s : State) (k : Nat) (c : Ctx) : (s.setCtx k c).hucap = s.hucap := rfl
@[simp] theorem setCtx_hubud (s : State) (k : Nat) (c : Ctx) : (s.setCtx k c).hubud = s.hubud := rfl
@[simp] theorem setCtx_armed (s : State) (k : Nat) (c : Ctx) : (s.setCtx k c).armed = s.armed := rfl
@[simp] theorem setCtx_report (s : State) (k : Nat) (c : Ctx) : (s.setCtx k c).report = s.report := rfl
@[simp] theorem setCtx_repHeld (s : State) (k : Nat) (c : Ctx) : (s.setCtx k c).repHeld = s.repHeld := rfl
@[simp] theorem setCtx_lowbank (s : State) (k : Nat) (c : Ctx) : (s.setCtx k c).lowbank = s.lowbank := rfl
@[simp] theorem setCtx_bootstat (s : State) (k : Nat) (c : Ctx) : (s.setCtx k c).bootstat = s.bootstat := rfl
@[simp] theorem setCtx_fwver (s : State) (k : Nat) (c : Ctx) : (s.setCtx k c).fwver = s.fwver := rfl
@[simp] theorem setCtx_pwrstat (s : State) (k : Nat) (c : Ctx) : (s.setCtx k c).pwrstat = s.pwrstat := rfl
@[simp] theorem setCtx_temp (s : State) (k : Nat) (c : Ctx) : (s.setCtx k c).temp = s.temp := rfl
@[simp] theorem setCtx_plim (s : State) (k : Nat) (c : Ctx) : (s.setCtx k c).plim = s.plim := rfl
@[simp] theorem setCtx_portstat (s : State) (k : Nat) (c : Ctx) : (s.setCtx k c).portstat = s.portstat := rfl
@[simp] theorem setCtx_mint (s : State) (k : Nat) (c : Ctx) : (s.setCtx k c).mint = s.mint := rfl
@[simp] theorem setCtx_mr (s : State) (k : Nat) (c : Ctx) : (s.setCtx k c).mr = s.mr := rfl
@[simp] theorem setCtx_mextd (s : State) (k : Nat) (c : Ctx) : (s.setCtx k c).mextd = s.mextd := rfl
@[simp] theorem setCtx_atnonce (s : State) (k : Nat) (c : Ctx) : (s.setCtx k c).atnonce = s.atnonce := rfl
@[simp] theorem setCtx_atbuild (s : State) (k : Nat) (c : Ctx) : (s.setCtx k c).atbuild = s.atbuild := rfl
@[simp] theorem setCtx_atdone (s : State) (k : Nat) (c : Ctx) : (s.setCtx k c).atdone = s.atdone := rfl
@[simp] theorem setCtx_atbusy (s : State) (k : Nat) (c : Ctx) : (s.setCtx k c).atbusy = s.atbusy := rfl
@[simp] theorem setCtx_atrep (s : State) (k : Nat) (c : Ctx) : (s.setCtx k c).atrep = s.atrep := rfl
@[simp] theorem setCtx_freq (s : State) (k : Nat) (c : Ctx) : (s.setCtx k c).freq = s.freq := rfl
@[simp] theorem setCtx_nsPart (s : State) (k : Nat) (c : Ctx) : (s.setCtx k c).nsPart = s.nsPart := rfl
@[simp] theorem setCtx_ccPart (s : State) (k : Nat) (c : Ctx) : (s.setCtx k c).ccPart = s.ccPart := rfl
@[simp] theorem setCtx_peak (s : State) (k : Nat) (c : Ctx) : (s.setCtx k c).peak = s.peak := rfl
@[simp] theorem setCtx_rqbase (s : State) (k : Nat) (c : Ctx) : (s.setCtx k c).rqbase = s.rqbase := rfl
@[simp] theorem setCtx_rqsize (s : State) (k : Nat) (c : Ctx) : (s.setCtx k c).rqsize = s.rqsize := rfl
@[simp] theorem setCtx_rqtail (s : State) (k : Nat) (c : Ctx) : (s.setCtx k c).rqtail = s.rqtail := rfl
@[simp] theorem setCtx_rqhead (s : State) (k : Nat) (c : Ctx) : (s.setCtx k c).rqhead = s.rqhead := rfl
@[simp] theorem setCtx_waitReq (s : State) (k : Nat) (c : Ctx) : (s.setCtx k c).waitReq = s.waitReq := rfl
@[simp] theorem setCtx_msixMask (s : State) (k : Nat) (c : Ctx) : (s.setCtx k c).msixMask = s.msixMask := rfl
@[simp] theorem setCtx_msixPend (s : State) (k : Nat) (c : Ctx) : (s.setCtx k c).msixPend = s.msixPend := rfl
@[simp] theorem setCtx_msixTab (s : State) (k : Nat) (c : Ctx) : (s.setCtx k c).msixTab = s.msixTab := rfl
@[simp] theorem setCtx_msixSent (s : State) (k : Nat) (c : Ctx) : (s.setCtx k c).msixSent = s.msixSent := rfl
@[simp] theorem setCtx_nv (s : State) (k : Nat) (c : Ctx) : (s.setCtx k c).nv = s.nv := rfl

/-! ### Cores and contexts -/

@[simp] theorem core_setCore_self (s : State) (k : Nat) (c : Core) : (s.setCore k c).core k = c := mgetD_mset_self _ _ _ _
theorem core_setCore_ne (s : State) {k j : Nat} (c : Core) (h : j ≠ k) : (s.setCore k c).core j = s.core j :=
  mgetD_mset_ne _ _ _ h
@[simp] theorem ctx_setCtx_self (s : State) (k : Nat) (c : Ctx) : (s.setCtx k c).ctx k = c := mgetD_mset_self _ _ _ _
theorem ctx_setCtx_ne (s : State) {k j : Nat} (c : Ctx) (h : j ≠ k) : (s.setCtx k c).ctx j = s.ctx j :=
  mgetD_mset_ne _ _ _ h
@[simp] theorem core_setCtx (s : State) (k j : Nat) (c : Ctx) : (s.setCtx k c).core j = s.core j := rfl
@[simp] theorem ctx_setCore (s : State) (k j : Nat) (c : Core) : (s.setCore k c).ctx j = s.ctx j := rfl
@[simp] theorem setCore_setCore (s : State) (k : Nat) (c d : Core) : (s.setCore k c).setCore k d = s.setCore k d := by
  simp [State.setCore]
@[simp] theorem setCtx_setCtx (s : State) (k : Nat) (c d : Ctx) : (s.setCtx k c).setCtx k d = s.setCtx k d := by
  simp [State.setCtx]
theorem modCore_eq (s : State) (k : Nat) (f : Core → Core) : s.modCore k f = s.setCore k (f (s.core k)) := rfl
theorem modCtx_eq (s : State) (k : Nat) (f : Ctx → Ctx) : s.modCtx k f = s.setCtx k (f (s.ctx k)) := rfl

/-! ### The current core and stream -/

@[simp] theorem me_setMe (s : State) (c : Core) : (s.setMe c).me = c := core_setCore_self s s.cur c
@[simp] theorem setMe_setMe (s : State) (c d : Core) : (s.setMe c).setMe d = s.setMe d := setCore_setCore s s.cur c d
@[simp] theorem cur_setMe (s : State) (c : Core) : (s.setMe c).cur = s.cur := rfl
@[simp] theorem strm_setMe (s : State) (c : Core) : (s.setMe c).strm = s.strm := rfl
@[simp] theorem mem_setMe (s : State) (c : Core) : (s.setMe c).mem = s.mem := rfl
theorem modMe_eq (s : State) (f : Core → Core) : s.modMe f = s.setMe (f s.me) := rfl
@[simp] theorem me_modMe (s : State) (f : Core → Core) : (s.modMe f).me = f s.me := me_setMe _ _
@[simp] theorem modMe_modMe (s : State) (f g : Core → Core) : (s.modMe f).modMe g = s.modMe fun c => g (f c) := by
  simp [modMe_eq]
@[simp] theorem str_setStr (r : Regs) (m : Stm) (x : Stream) : (r.setStr m x).str m = x := by cases m <;> rfl
@[simp] theorem setStr_setStr (r : Regs) (m : Stm) (x y : Stream) : (r.setStr m x).setStr m y = r.setStr m y := by
  cases m <;> rfl
@[simp] theorem tok_setStr (r : Regs) (m : Stm) (x : Stream) : (r.setStr m x).tok = r.tok := by cases m <;> rfl
@[simp] theorem str_withTok (r : Regs) (t : Tokens) (m : Stm) : ({ r with tok := t } : Regs).str m = r.str m := by
  cases m <;> rfl
theorem setSt_eq (s : State) (x : Stream) : s.setSt x = s.modMe fun c => c.setStr s.strm x := rfl
theorem modSt_eq (s : State) (f : Stream → Stream) : s.modSt f = s.setSt (f s.st) := rfl
@[simp] theorem st_setSt (s : State) (x : Stream) : (s.setSt x).st = x := by
  simp [State.st, State.setSt, Core.str, Core.setStr]
@[simp] theorem setSt_setSt (s : State) (x y : Stream) : (s.setSt x).setSt y = s.setSt y := by
  simp [State.setSt, Core.setStr]
@[simp] theorem st_modSt (s : State) (f : Stream → Stream) : (s.modSt f).st = f s.st := st_setSt _ _
@[simp] theorem modSt_modSt (s : State) (f g : Stream → Stream) : (s.modSt f).modSt g = s.modSt fun x => g (f x) := by
  simp [modSt_eq]
@[simp] theorem strm_modSt (s : State) (f : Stream → Stream) : (s.modSt f).strm = s.strm := rfl
@[simp] theorem cur_modSt (s : State) (f : Stream → Stream) : (s.modSt f).cur = s.cur := rfl
@[simp] theorem toks_modSt (s : State) (f : Stream → Stream) : (s.modSt f).toks = s.toks := by
  simp [State.toks, State.modSt, State.setSt, Core.setStr]

/-! ### Reads performed later (R263) -/

theorem orderReads_eq (s : State) : s.orderReads = s.modSt (Stream.orderReads s.wseq) := rfl
@[simp] theorem st_orderReads (s : State) : s.orderReads.st = s.st.orderReads s.wseq := st_modSt _ _
@[simp] theorem strm_orderReads (s : State) : s.orderReads.strm = s.strm := rfl
@[simp] theorem cur_orderReads (s : State) : s.orderReads.cur = s.cur := rfl
@[simp] theorem wseq_orderReads (s : State) : s.orderReads.wseq = s.wseq := rfl
@[simp] theorem toks_orderReads (s : State) : s.orderReads.toks = s.toks := toks_modSt _ _
@[simp] theorem sr_orderReads (s : State) (i : SIx) : s.orderReads.sr i = s.sr i := by simp [State.sr, Stream.orderReads]
@[simp] theorem guardM_orderReads (s : State) (g : Guard) : s.orderReads.guardM g = s.guardM g := by
  simp [State.guardM, Stream.orderReads, Stream.pm]
@[simp] theorem guardB_orderReads (s : State) (g : Guard) : s.orderReads.guardB g = s.guardB g := by
  simp [State.guardB]

/-! ### Tokens, scalars, predicates, flags -/

@[simp] theorem toks_setToks (s : State) (t : Tokens) : (s.setToks t).toks = t := by
  simp [State.toks, State.setToks, State.modRegs]
@[simp] theorem st_setToks (s : State) (t : Tokens) : (s.setToks t).st = s.st := by
  simp [State.st, State.setToks, State.modRegs, Core.str, State.modMe]
@[simp] theorem strm_setToks (s : State) (t : Tokens) : (s.setToks t).strm = s.strm := rfl
@[simp] theorem wseq_setToks (s : State) (t : Tokens) : (s.setToks t).wseq = s.wseq := rfl
@[simp] theorem cur_setToks (s : State) (t : Tokens) : (s.setToks t).cur = s.cur := rfl
@[simp] theorem sr_setToks (s : State) (t : Tokens) (i : SIx) : (s.setToks t).sr i = s.sr i := by simp [State.sr]
@[simp] theorem guardM_setToks (s : State) (t : Tokens) (g : Guard) : (s.setToks t).guardM g = s.guardM g := by
  simp [State.guardM]
@[simp] theorem guardB_setToks (s : State) (t : Tokens) (g : Guard) : (s.setToks t).guardB g = s.guardB g := by
  simp [State.guardB]
@[simp] theorem toks_setS (s : State) (i : SIx) (v : Word) : (s.setS i v).toks = s.toks := toks_modSt _ _
@[simp] theorem toks_orFlags (s : State) (f : BitVec 8) : (s.orFlags f).toks = s.toks := toks_modSt _ _
@[simp] theorem strm_setS (s : State) (i : SIx) (v : Word) : (s.setS i v).strm = s.strm := rfl
@[simp] theorem strm_orFlags (s : State) (f : BitVec 8) : (s.orFlags f).strm = s.strm := rfl
@[simp] theorem sr_setS_self (s : State) (i : SIx) (v : Word) : (s.setS i v).sr i = v := by simp [State.sr, State.setS]
theorem sr_setS_ne (s : State) {i j : SIx} (v : Word) (h : j ≠ i) : (s.setS i v).sr j = s.sr j := by
  have h' : ¬ (i : Nat) = j := fun e => h (Fin.ext e.symm)
  simp [State.sr, State.setS, h']
/-- Flags of zero change nothing once the stream has been written. -/
@[simp] theorem orFlags_zero_setS (s : State) (i : SIx) (v : Word) : (s.setS i v).orFlags 0 = s.setS i v := by
  simp [State.orFlags, State.setS]
/-- p0 is true whatever is written to it (R135). -/
@[simp] theorem pm_zero (x : Stream) : x.pm 0 = BitVec.allOnes 64 := by simp [Stream.pm]
@[simp] theorem setP_zero (x : Stream) (v : Word) : x.setP 0 v = x := by simp [Stream.setP]
theorem pm_setP_self (x : Stream) {i : PIx} (v : Word) (h : i ≠ 0) : (x.setP i v).pm i = v := by
  simp [Stream.pm, Stream.setP, h]

/-! ### Publications keep memory's canonical form (R264, R267) -/

theorem performComm_wf {s : State} (k : Nat) (h : Memory.wf s.mem = true) : Memory.wf (s.performComm k).mem = true := by
  unfold State.performComm
  split
  · exact h
  · dsimp only
    split
    · simpa using h
    · exact memWrite_wf _ _ _ h
theorem flushComm_wf (n : Nat) {s : State} (k : Nat) (h : Memory.wf s.mem = true) : Memory.wf (s.flushComm n k).mem = true := by
  induction n generalizing s with
  | zero => exact h
  | succ n ih => exact ih (performComm_wf k h)
theorem settleComm_wf {s : State} (k : Nat) (h : Memory.wf s.mem = true) : Memory.wf (s.settleComm k).mem = true :=
  flushComm_wf _ k h
theorem publish_wf {s : State} (k : Nat) (h : Memory.wf s.mem = true) : Memory.wf (s.publish k).mem = true :=
  settleComm_wf k (by simpa using h)

end Sys2Proof.Laws
end

