-- ==== Sys2Proof/Laws/Issue.lean ====
section
/-!
SUPPORT. Sys2Proof/Laws/Issue.lean: how a form issues, said once (R81, R86): what `issueG` can come to, and what it comes to for
a form that is ready.
-/
namespace Sys2Proof.Laws
open Sys2Proof Sys2Proof.Machine

theorem takes_eq (s : State) (h : Head) :
    s.takes h = (if h.wp || h.wn then (s.setToks (popTokens s.toks s.strm h)).orderReads
      else s.setToks (popTokens s.toks s.strm h)) := rfl
@[simp] theorem toks_takes (s : State) (h : Head) : (s.takes h).toks = popTokens s.toks s.strm h := by
  rw [takes_eq]; split <;> simp
@[simp] theorem strm_takes (s : State) (h : Head) : (s.takes h).strm = s.strm := by rw [takes_eq]; split <;> rfl
@[simp] theorem cur_takes (s : State) (h : Head) : (s.takes h).cur = s.cur := by rw [takes_eq]; split <;> rfl
@[simp] theorem mem_takes (s : State) (h : Head) : (s.takes h).mem = s.mem := by rw [takes_eq]; split <;> rfl
/-- Tokens taken change of the stream only how early its reads may be performed (R263). -/
theorem st_takes (s : State) (h : Head) :
    (s.takes h).st = (if h.wp || h.wn then s.st.orderReads s.wseq else s.st) := by
  rw [takes_eq]; split <;> simp
@[simp] theorem sr_takes (s : State) (h : Head) (i : SIx) : (s.takes h).sr i = s.sr i := by
  rw [takes_eq]; split <;> simp
@[simp] theorem guardM_takes (s : State) (h : Head) (g : Guard) : (s.takes h).guardM g = s.guardM g := by
  rw [takes_eq]; split <;> simp
@[simp] theorem guardB_takes (s : State) (h : Head) (g : Guard) : (s.takes h).guardB g = s.guardB g := by
  rw [takes_eq]; split <;> simp
@[simp] theorem await_takes (s : State) (h : Head) : (s.takes h).st.await = s.st.await := by
  rw [st_takes]; split <;> rfl
@[simp] theorem unanswered_takes (s : State) (h : Head) : (s.takes h).unanswered h = s.unanswered h := by
  simp [State.unanswered]

/-- A form with a head ends in one of six ways: its pushes alone were left; it waits for tokens; its effects are done and
it pushes or waits to push; it waits; it stops. -/
theorem issueG_cases (s : State) (h : Head) (eff : Bool → State → Res) :
    (s.st.acted = true ∧ s.issueG h eff = s.finish h) ∨
    (s.st.acted = false ∧ s.st.popped = false ∧ canPop s.toks s.strm h = false ∧ s.issueG h eff = s.blocked .loose) ∨
    ∃ s1, s.st.acted = false ∧ s1 = (if s.st.popped then s else s.takes h) ∧
      ((∃ u, eff (s1.guardB h.g) s1 = .done u ∧ s.issueG h eff = u.finish h) ∨
       (∃ b u, eff (s1.guardB h.g) s1 = .wait b u ∧
          s.issueG h eff = (u.modSt fun x => { x with popped := true }).blocked b) ∨
       ∃ u, eff (s1.guardB h.g) s1 = .stop u ∧ s.issueG h eff = u.unpop h) := by
  unfold State.issueG
  by_cases ha : s.st.acted = true
  · exact .inl ⟨ha, by simp [ha]⟩
  · simp only [ha]
    by_cases hp : s.st.popped = false ∧ canPop s.toks s.strm h = false
    · exact .inr (.inl ⟨by simp, hp.1, hp.2, by simp [hp.1, hp.2]⟩)
    · have hq : (!s.st.popped && !canPop s.toks s.strm h) = false := by
        cases h1 : s.st.popped <;> cases h2 : canPop s.toks s.strm h <;> simp_all
      refine .inr (.inr ⟨_, by simp, rfl, ?_⟩)
      simp only [hq, State.takes]
      cases he : eff (State.guardB (if s.st.popped = true then s else s.popFor h) h.g)
          (if s.st.popped = true then s else s.popFor h) with
      | done u => exact .inl ⟨u, rfl, by simp⟩
      | wait b u => exact .inr (.inl ⟨b, u, rfl, by simp⟩)
      | stop u => exact .inr (.inr ⟨u, rfl, by simp⟩)

/-- A ready form whose effects are done, left the tokens alone and asked Campion nothing, completes. -/
theorem issueG_done {s u : State} {h : Head} {eff : Bool → State → Res} (hr : s.canIssue h)
    (he : eff true (s.takes h) = .done u) (ht : u.toks = popTokens s.toks s.strm h) (hm : u.strm = s.strm)
    (hu : u.unanswered h = false) : s.issueG h eff = u.leaves h := by
  obtain ⟨h1, h2, h3, h4, h5, -⟩ := hr
  have h6 : (s.takes h).guardB h.g = true := by simpa using h5
  simp only [State.takes] at he h6
  simp only [State.issueG, h1, h2, h3, Bool.false_eq_true, if_false, Bool.not_true, Bool.and_false, h6, he,
    State.finish, hu, ht, hm, h4, if_true, State.leaves]

theorem issue_done {s u : State} {h : Head} {eff : State → Res} (hr : s.canIssue h)
    (he : eff (s.takes h) = .done u) (ht : u.toks = popTokens s.toks s.strm h) (hm : u.strm = s.strm)
    (hu : u.unanswered h = false) : s.issue h eff = u.leaves h := issueG_done hr (by simpa using he) ht hm hu

theorem issue1_done {s : State} {h : Head} {eff : State → State} (hr : s.canIssue h)
    (ht : (eff (s.takes h)).toks = popTokens s.toks s.strm h) (hm : (eff (s.takes h)).strm = s.strm)
    (hu : (eff (s.takes h)).unanswered h = false) : s.issue1 h eff = (eff (s.takes h)).leaves h :=
  issue_done hr rfl ht hm hu

/-- A form whose guard is false only takes and leaves its tokens. -/
theorem issue_pass {s : State} {h : Head} {eff : State → Res} (hr : s.canPass h) :
    s.issue h eff = (s.takes h).leaves h := by
  obtain ⟨h1, h2, h3, h4, h5, h6⟩ := hr
  have h7 : (s.takes h).guardB h.g = false := by simpa using h5
  have h8 : (s.takes h).unanswered h = false := by simpa using h6
  have h9 : (s.takes h).toks = popTokens s.toks s.strm h := toks_takes s h
  have h10 : (s.takes h).strm = s.strm := strm_takes s h
  simp only [State.takes] at h7 h8 h9 h10
  simp [State.issue, State.issueG, h1, h2, h3, h7, State.finish, h8, h9, h10, h4, State.leaves, State.takes]

end Sys2Proof.Laws
end

