-- ==== Sys2Proof/Laws/PerInstr.lean ====
section
/-!
SUPPORT. Sys2Proof/Laws/PerInstr.lean: the family `Coding`: a constructor has an encoding exactly where some opcode space holds
it (R102 to R106); the rows of the opcode table that carry no encoding, the events, have none.
-/
namespace Sys2Proof.Laws
open Sys2Proof

/-- An instruction has lanes exactly where an opcode space holds it. -/
def Coding.Statement (i : Instr) : Prop := (encodeForm i).isSome = !i.spaces.isEmpty

theorem Coding.add (h : Head) (d a b : SIx) (w : Bool) : Coding.Statement (Instr.add h d a b w) := rfl
theorem Coding.sub (h : Head) (d a b : SIx) (w : Bool) : Coding.Statement (Instr.sub h d a b w) := rfl
theorem Coding.mul (h : Head) (d a b : SIx) (w : Bool) : Coding.Statement (Instr.mul h d a b w) := rfl
theorem Coding.mulh (h : Head) (d a b : SIx) (w : Bool) : Coding.Statement (Instr.mulh h d a b w) := rfl
theorem Coding.mulhn (h : Head) (d a b : SIx) (w : Bool) : Coding.Statement (Instr.mulhn h d a b w) := rfl
theorem Coding.div (h : Head) (d a b : SIx) (w : Bool) : Coding.Statement (Instr.div h d a b w) := rfl
theorem Coding.divn (h : Head) (d a b : SIx) (w : Bool) : Coding.Statement (Instr.divn h d a b w) := rfl
theorem Coding.rem (h : Head) (d a b : SIx) (w : Bool) : Coding.Statement (Instr.rem h d a b w) := rfl
theorem Coding.remn (h : Head) (d a b : SIx) (w : Bool) : Coding.Statement (Instr.remn h d a b w) := rfl
theorem Coding.and (h : Head) (d a b : SIx) (w : Bool) : Coding.Statement (Instr.and h d a b w) := rfl
theorem Coding.or (h : Head) (d a b : SIx) (w : Bool) : Coding.Statement (Instr.or h d a b w) := rfl
theorem Coding.xor (h : Head) (d a b : SIx) (w : Bool) : Coding.Statement (Instr.xor h d a b w) := rfl
theorem Coding.shl (h : Head) (d a b : SIx) (w : Bool) : Coding.Statement (Instr.shl h d a b w) := rfl
theorem Coding.shr (h : Head) (d a b : SIx) (w : Bool) : Coding.Statement (Instr.shr h d a b w) := rfl
theorem Coding.sar (h : Head) (d a b : SIx) (w : Bool) : Coding.Statement (Instr.sar h d a b w) := rfl
theorem Coding.rotl (h : Head) (d a b : SIx) (w : Bool) : Coding.Statement (Instr.rotl h d a b w) := rfl
theorem Coding.addi (h : Head) (d a : SIx) (imm : BitVec 6) : Coding.Statement (Instr.addi h d a imm) := rfl
theorem Coding.muli (h : Head) (d a : SIx) (imm : BitVec 6) : Coding.Statement (Instr.muli h d a imm) := rfl
theorem Coding.andi (h : Head) (d a : SIx) (imm : BitVec 6) : Coding.Statement (Instr.andi h d a imm) := rfl
theorem Coding.ori (h : Head) (d a : SIx) (imm : BitVec 6) : Coding.Statement (Instr.ori h d a imm) := rfl
theorem Coding.xori (h : Head) (d a : SIx) (imm : BitVec 6) : Coding.Statement (Instr.xori h d a imm) := rfl
theorem Coding.shli (h : Head) (d a : SIx) (imm : BitVec 6) : Coding.Statement (Instr.shli h d a imm) := rfl
theorem Coding.shri (h : Head) (d a : SIx) (imm : BitVec 6) : Coding.Statement (Instr.shri h d a imm) := rfl
theorem Coding.sari (h : Head) (d a : SIx) (imm : BitVec 6) : Coding.Statement (Instr.sari h d a imm) := rfl
theorem Coding.rotli (h : Head) (d a : SIx) (imm : BitVec 6) : Coding.Statement (Instr.rotli h d a imm) := rfl
theorem Coding.clz (h : Head) (d a : SIx) : Coding.Statement (Instr.clz h d a) := rfl
theorem Coding.ctz (h : Head) (d a : SIx) : Coding.Statement (Instr.ctz h d a) := rfl
theorem Coding.popc (h : Head) (d a : SIx) : Coding.Statement (Instr.popc h d a) := rfl
theorem Coding.mov (h : Head) (d a : SIx) : Coding.Statement (Instr.mov h d a) := rfl
theorem Coding.flgclr (h : Head) (code : BitVec 8) : Coding.Statement (Instr.flgclr h code) := rfl
theorem Coding.movi (h : Head) (d : SIx) (imm : BitVec 11) : Coding.Statement (Instr.movi h d imm) := rfl
theorem Coding.movil (h : Head) (d : SIx) (imm : BitVec 32) : Coding.Statement (Instr.movil h d imm) := rfl
theorem Coding.moviq (h : Head) (d : SIx) (imm : BitVec 64) : Coding.Statement (Instr.moviq h d imm) := rfl
theorem Coding.addil (h : Head) (d a : SIx) (imm : BitVec 32) : Coding.Statement (Instr.addil h d a imm) := rfl
theorem Coding.min (h : Head) (d a b : SIx) : Coding.Statement (Instr.min h d a b) := rfl
theorem Coding.max (h : Head) (d a b : SIx) : Coding.Statement (Instr.max h d a b) := rfl
theorem Coding.minn (h : Head) (d a b : SIx) : Coding.Statement (Instr.minn h d a b) := rfl
theorem Coding.maxn (h : Head) (d a b : SIx) : Coding.Statement (Instr.maxn h d a b) := rfl
theorem Coding.path (h : Head) (d a : SIx) (n : BitVec 6) : Coding.Statement (Instr.path h d a n) := rfl
theorem Coding.extr (h : Head) (d a : SIx) (pos len : BitVec 6) (sg : Bool) : Coding.Statement (Instr.extr h d a pos len sg) := rfl
theorem Coding.insr (h : Head) (d a : SIx) (pos len : BitVec 6) : Coding.Statement (Instr.insr h d a pos len) := rfl
theorem Coding.cmp (h : Head) (pd pe : PIx) (ct : CT) (cc : CC) (a : SIx) (rhs : CmpRhs) : Coding.Statement (Instr.cmp h pd pe ct cc a rhs) := by cases rhs <;> rfl
theorem Coding.tbit (h : Head) (pd pe : PIx) (ct : CT) (cc : CC) (a : SIx) (n : BitVec 6) : Coding.Statement (Instr.tbit h pd pe ct cc a n) := rfl
theorem Coding.pand (h : Head) (pd pa pb : PIx) (na nb : Bool) : Coding.Statement (Instr.pand h pd pa pb na nb) := rfl
theorem Coding.por (h : Head) (pd pa pb : PIx) (na nb : Bool) : Coding.Statement (Instr.por h pd pa pb na nb) := rfl
theorem Coding.pxor (h : Head) (pd pa pb : PIx) (na nb : Bool) : Coding.Statement (Instr.pxor h pd pa pb na nb) := rfl
theorem Coding.pget (h : Head) (d : SIx) : Coding.Statement (Instr.pget h d) := rfl
theorem Coding.pput (h : Head) (a : SIx) : Coding.Statement (Instr.pput h a) := rfl
theorem Coding.qsend (h : Head) (a : SIx) (q : Fin 32) : Coding.Statement (Instr.qsend h a q) := rfl
theorem Coding.qrecv (h : Head) (d : SIx) (q : Fin 32) : Coding.Statement (Instr.qrecv h d q) := rfl
theorem Coding.qtest (h : Head) (d : SIx) (q : Fin 32) : Coding.Statement (Instr.qtest h d q) := rfl
theorem Coding.mfsr (h : Head) (d : SIx) (r : Spr) : Coding.Statement (Instr.mfsr h d r) := rfl
theorem Coding.mtsr (h : Head) (a : SIx) (r : Spr) : Coding.Statement (Instr.mtsr h a r) := rfl
theorem Coding.nop (h : Head) : Coding.Statement (Instr.nop h) := rfl
theorem Coding.brk (h : Head) (code : BitVec 8) : Coding.Statement (Instr.brk h code) := rfl
theorem Coding.fadd (h : Head) (d a b : SIx) (rm : RM) (sat : Bool) : Coding.Statement (Instr.fadd h d a b rm sat) := rfl
theorem Coding.fsub (h : Head) (d a b : SIx) (rm : RM) (sat : Bool) : Coding.Statement (Instr.fsub h d a b rm sat) := rfl
theorem Coding.fmul (h : Head) (d a b : SIx) (rm : RM) (sat : Bool) : Coding.Statement (Instr.fmul h d a b rm sat) := rfl
theorem Coding.fdiv (h : Head) (d a b : SIx) (rm : RM) (sat : Bool) : Coding.Statement (Instr.fdiv h d a b rm sat) := rfl
theorem Coding.fma (h : Head) (d a b c : SIx) (rm : RM) (sat : Bool) : Coding.Statement (Instr.fma h d a b c rm sat) := rfl
theorem Coding.fmin (h : Head) (d a b : SIx) : Coding.Statement (Instr.fmin h d a b) := rfl
theorem Coding.fmax (h : Head) (d a b : SIx) : Coding.Statement (Instr.fmax h d a b) := rfl
theorem Coding.fsqrt (h : Head) (d a : SIx) (rm : RM) (sat : Bool) : Coding.Statement (Instr.fsqrt h d a rm sat) := rfl
theorem Coding.fcvt (h : Head) (d a : SIx) (ty tz : Ty) (rm : RM) (sat : Bool) : Coding.Statement (Instr.fcvt h d a ty tz rm sat) := rfl
theorem Coding.fcmp (h : Head) (pd pe : PIx) (ct : CT) (cc : CC) (a b : SIx) : Coding.Statement (Instr.fcmp h pd pe ct cc a b) := rfl
theorem Coding.fneg (h : Head) (d a : SIx) : Coding.Statement (Instr.fneg h d a) := rfl
theorem Coding.fabs (h : Head) (d a : SIx) : Coding.Statement (Instr.fabs h d a) := rfl
theorem Coding.trap (h : Head) (code : BitVec 8) : Coding.Statement (Instr.trap h code) := rfl
theorem Coding.inj (h : Head) (d a : SIx) (k : InjKind) : Coding.Statement (Instr.inj h d a k) := by cases k <;> rfl
theorem Coding.xlate (h : Head) (hd : HIx) (a b : SIx) : Coding.Statement (Instr.xlate h hd a b) := rfl
theorem Coding.probe (h : Head) (d a : SIx) : Coding.Statement (Instr.probe h d a) := rfl
theorem Coding.hloc (h : Head) (hd : HIx) (a b : SIx) : Coding.Statement (Instr.hloc h hd a b) := rfl
theorem Coding.hmov (h : Head) (hd hs : HIx) : Coding.Statement (Instr.hmov h hd hs) := rfl
theorem Coding.hsub (h : Head) (hd hs : HIx) (t : TIx) (i j : SIx) : Coding.Statement (Instr.hsub h hd hs t i j) := rfl
theorem Coding.hget (h : Head) (d : SIx) (hs : HIx) (f : HField) : Coding.Statement (Instr.hget h d hs f) := rfl
theorem Coding.tset (h : Head) (td : TIx) (imm : BitVec 64) : Coding.Statement (Instr.tset h td imm) := rfl
theorem Coding.tget (h : Head) (d : SIx) (ts : TIx) (f : TField) : Coding.Statement (Instr.tget h d ts f) := rfl
theorem Coding.ld (h : Head) (hs : HIx) (d b : SIx) (ty : Ty) (fe : Fe) (disp : BitVec 21) : Coding.Statement (Instr.ld h hs d b ty fe disp) := rfl
theorem Coding.st (h : Head) (hs : HIx) (a b : SIx) (ty : Ty) (fe : Fe) (disp : BitVec 21) : Coding.Statement (Instr.st h hs a b ty fe disp) := rfl
theorem Coding.ldl (h : Head) (hs : HIx) (d b : SIx) (ty : Ty) (disp : BitVec 21) : Coding.Statement (Instr.ldl h hs d b ty disp) := rfl
theorem Coding.gtest (h : Head) (hs : HIx) (d b : SIx) (disp : BitVec 21) : Coding.Statement (Instr.gtest h hs d b disp) := rfl
theorem Coding.gset (h : Head) (hs : HIx) (a b : SIx) (disp : BitVec 21) : Coding.Statement (Instr.gset h hs a b disp) := rfl
theorem Coding.amo (h : Head) (hs : HIx) (d b : SIx) (ty : Ty) (ord : Ord) (scp : Scp) (disp : BitVec 21) (v : SIx) (op : AOp) : Coding.Statement (Instr.amo h hs d b ty ord scp disp v op) := rfl
theorem Coding.acas (h : Head) (hs : HIx) (d b : SIx) (ty : Ty) (ord : Ord) (scp : Scp) (disp : BitVec 21) (v e : SIx) : Coding.Statement (Instr.acas h hs d b ty ord scp disp v e) := rfl
theorem Coding.copy (h : Head) (hd hs : HIx) (td ts : TIx) (i j : SIx) (s : Sems) (q : Fin 4) (f : CopyFlags) : Coding.Statement (Instr.copy h hd hs td ts i j s q f) := rfl
theorem Coding.fill (h : Head) (hd : HIx) (td : TIx) (i : SIx) (s : Sems) (q : Fin 4) (bpd dwe evt : Bool) : Coding.Statement (Instr.fill h hd td i s q bpd dwe evt) := rfl
theorem Coding.gather (h : Head) (hd hs : HIx) (td ts : TIx) (i j : SIx) (s : Sems) (q : Fin 4) (f : CopyFlags) : Coding.Statement (Instr.gather h hd hs td ts i j s q f) := rfl
theorem Coding.scatter (h : Head) (hd hs : HIx) (td ts : TIx) (i j : SIx) (s : Sems) (q : Fin 4) (f : CopyFlags) : Coding.Statement (Instr.scatter h hd hs td ts i j s q f) := rfl
theorem Coding.tring (h : Head) (ring : Fin 8) (hs : HIx) (ts : TIx) (i j : SIx) (s : Sems) (q : Fin 4) (f : CopyFlags) : Coding.Statement (Instr.tring h ring hs ts i j s q f) := rfl
theorem Coding.ccancel (h : Head) (q : Fin 4) : Coding.Statement (Instr.ccancel h q) := rfl
theorem Coding.evpop (h : Head) (d e : SIx) : Coding.Statement (Instr.evpop h d e) := rfl
theorem Coding.mfmt (h : Head) (a : SIx) : Coding.Statement (Instr.mfmt h a) := rfl
theorem Coding.mfmti (h : Head) (fmt : BitVec 32) : Coding.Statement (Instr.mfmti h fmt) := rfl
theorem Coding.mmul (h : Head) (ra rb : Fin 8) (sel : SetSel) (mm1 nm1 : Fin 64) (ks : Fin 1024) (s : Sems) : Coding.Statement (Instr.mmul h ra rb sel mm1 nm1 ks s) := rfl
theorem Coding.mzero (h : Head) (acc : Fin 4) : Coding.Statement (Instr.mzero h acc) := rfl
theorem Coding.accld (h : Head) (acc : Fin 4) (hs : HIx) (t : TIx) (i j : SIx) : Coding.Statement (Instr.accld h acc hs t i j) := rfl
theorem Coding.accst (h : Head) (acc : Fin 4) (hs : HIx) (t : TIx) (i j : SIx) : Coding.Statement (Instr.accst h acc hs t i j) := rfl
theorem Coding.ringcfg (h : Head) (rn : Fin 8) (a b : SIx) : Coding.Statement (Instr.ringcfg h rn a b) := rfl
theorem Coding.ringrel (h : Head) (rn : Fin 8) : Coding.Statement (Instr.ringrel h rn) := rfl
theorem Coding.ringq (h : Head) (d : SIx) (rn : Fin 8) : Coding.Statement (Instr.ringq h d rn) := rfl
theorem Coding.bar (h : Head) (n : Fin 16) : Coding.Statement (Instr.bar h n) := rfl
theorem Coding.semsig (h : Head) (n : Fin 16) (a : SIx) : Coding.Statement (Instr.semsig h n a) := rfl
theorem Coding.semwait (h : Head) (n : Fin 16) (a : SIx) : Coding.Statement (Instr.semwait h n a) := rfl
theorem Coding.semrd (h : Head) (d : SIx) (n : Fin 16) : Coding.Statement (Instr.semrd h d n) := rfl
theorem Coding.tagpub (h : Head) (slot : Fin 4) (a : SIx) : Coding.Statement (Instr.tagpub h slot a) := rfl
theorem Coding.tagpubP (h : Head) (slot : Fin 4) (a : SIx) : Coding.Statement (Instr.tagpubP h slot a) := rfl
theorem Coding.tagtest (h : Head) (d : SIx) (bn : Fin 4) (a : SIx) : Coding.Statement (Instr.tagtest h d bn a) := rfl
theorem Coding.jpatch (h : Head) (d a b : SIx) (word : Fin 32) : Coding.Statement (Instr.jpatch h d a b word) := rfl
theorem Coding.jarm (h : Head) (d a : SIx) : Coding.Statement (Instr.jarm h d a) := rfl
theorem Coding.jstat (h : Head) (d a : SIx) : Coding.Statement (Instr.jstat h d a) := rfl
theorem Coding.pool (h : Head) (a : SIx) (sig : Option (Fin 16)) : Coding.Statement (Instr.pool h a sig) := rfl
theorem Coding.poolPop (h : Head) (d : SIx) : Coding.Statement (Instr.poolPop h d) := rfl
theorem Coding.hotqLook (h : Head) (a : SIx) (sig : Option (Fin 16)) : Coding.Statement (Instr.hotqLook h a sig) := rfl
theorem Coding.hotqFill (h : Head) (a : SIx) (sig : Option (Fin 16)) : Coding.Statement (Instr.hotqFill h a sig) := rfl
theorem Coding.hotqInv (h : Head) (a : SIx) (sig : Option (Fin 16)) : Coding.Statement (Instr.hotqInv h a sig) := rfl
theorem Coding.hotqDrops (h : Head) (a : SIx) (sig : Option (Fin 16)) : Coding.Statement (Instr.hotqDrops h a sig) := rfl
theorem Coding.skqEst (h : Head) (a : SIx) (sig : Option (Fin 16)) : Coding.Statement (Instr.skqEst h a sig) := rfl
theorem Coding.skqClr (h : Head) (a : SIx) (sig : Option (Fin 16)) : Coding.Statement (Instr.skqClr h a sig) := rfl
theorem Coding.scupdSgd (h : Head) (a : SIx) (sig : Option (Fin 16)) : Coding.Statement (Instr.scupdSgd h a sig) := rfl
theorem Coding.scupdAdagrad (h : Head) (a : SIx) (sig : Option (Fin 16)) : Coding.Statement (Instr.scupdAdagrad h a sig) := rfl
theorem Coding.scupdAdam (h : Head) (a : SIx) (sig : Option (Fin 16)) : Coding.Statement (Instr.scupdAdam h a sig) := rfl
theorem Coding.nmrun (h : Head) (a : SIx) (sig : Option (Fin 16)) : Coding.Statement (Instr.nmrun h a sig) := rfl
theorem Coding.nmstat (h : Head) (d a : SIx) : Coding.Statement (Instr.nmstat h d a) := rfl
theorem Coding.ixwalk (h : Head) (a : SIx) (sig : Option (Fin 16)) : Coding.Statement (Instr.ixwalk h a sig) := rfl
theorem Coding.ixwalkPop (h : Head) (d : SIx) : Coding.Statement (Instr.ixwalkPop h d) := rfl
theorem Coding.a2aIdx (h : Head) (a : SIx) (sig : Option (Fin 16)) : Coding.Statement (Instr.a2aIdx h a sig) := rfl
theorem Coding.a2aVec (h : Head) (a : SIx) (sig : Option (Fin 16)) : Coding.Statement (Instr.a2aVec h a sig) := rfl
theorem Coding.a2aPop (h : Head) (d : SIx) : Coding.Statement (Instr.a2aPop h d) := rfl
theorem Coding.xredSum (h : Head) (a : SIx) (sig : Option (Fin 16)) : Coding.Statement (Instr.xredSum h a sig) := rfl
theorem Coding.xredMin (h : Head) (a : SIx) (sig : Option (Fin 16)) : Coding.Statement (Instr.xredMin h a sig) := rfl
theorem Coding.xredMax (h : Head) (a : SIx) (sig : Option (Fin 16)) : Coding.Statement (Instr.xredMax h a sig) := rfl
theorem Coding.xput (h : Head) (a : SIx) (sig : Option (Fin 16)) : Coding.Statement (Instr.xput h a sig) := rfl
theorem Coding.xabort (h : Head) (a : SIx) : Coding.Statement (Instr.xabort h a) := rfl
theorem Coding.ldq (h : Head) (hs : HIx) (t : TIx) (q : Fin 4) (i j : SIx) (clip : Clip) (fe : Fe) (bp : Bool) : Coding.Statement (Instr.ldq h hs t q i j clip fe bp) := rfl
theorem Coding.stq (h : Head) (hs : HIx) (t : TIx) (i j : SIx) (clip : Clip) (fe : Fe) (bp : Bool) : Coding.Statement (Instr.stq h hs t i j clip fe bp) := rfl
theorem Coding.qsplat (h : Head) (q : Fin 4) (a : SIx) (ew : Ew) : Coding.Statement (Instr.qsplat h q a ew) := rfl
theorem Coding.vadd (h : Head) (d : VDst) (a b : VSrc) (ty : Ty) (rm : RM) (sat : Bool) : Coding.Statement (Instr.vadd h d a b ty rm sat) := rfl
theorem Coding.vsub (h : Head) (d : VDst) (a b : VSrc) (ty : Ty) (rm : RM) (sat : Bool) : Coding.Statement (Instr.vsub h d a b ty rm sat) := rfl
theorem Coding.vmul (h : Head) (d : VDst) (a b : VSrc) (ty : Ty) (rm : RM) (sat : Bool) : Coding.Statement (Instr.vmul h d a b ty rm sat) := rfl
theorem Coding.vfma (h : Head) (d : VDst) (a b c : VSrc) (ty : Ty) (rm : RM) (sat : Bool) : Coding.Statement (Instr.vfma h d a b c ty rm sat) := rfl
theorem Coding.vfms (h : Head) (d : VDst) (a b c : VSrc) (ty : Ty) (rm : RM) (sat : Bool) : Coding.Statement (Instr.vfms h d a b c ty rm sat) := rfl
theorem Coding.vfnma (h : Head) (d : VDst) (a b c : VSrc) (ty : Ty) (rm : RM) (sat : Bool) : Coding.Statement (Instr.vfnma h d a b c ty rm sat) := rfl
theorem Coding.vdiv (h : Head) (d : VDst) (a b : VSrc) (ty : Ty) (rm : RM) (sat : Bool) : Coding.Statement (Instr.vdiv h d a b ty rm sat) := rfl
theorem Coding.vmin (h : Head) (d : VDst) (a b : VSrc) (ty : Ty) : Coding.Statement (Instr.vmin h d a b ty) := rfl
theorem Coding.vmax (h : Head) (d : VDst) (a b : VSrc) (ty : Ty) : Coding.Statement (Instr.vmax h d a b ty) := rfl
theorem Coding.vabs (h : Head) (d : VDst) (a : VSrc) (ty : Ty) (sat : Bool) : Coding.Statement (Instr.vabs h d a ty sat) := rfl
theorem Coding.vneg (h : Head) (d : VDst) (a : VSrc) (ty : Ty) (sat : Bool) : Coding.Statement (Instr.vneg h d a ty sat) := rfl
theorem Coding.vmulh (h : Head) (d : VDst) (a b : VSrc) (ty : Ty) : Coding.Statement (Instr.vmulh h d a b ty) := rfl
theorem Coding.vand (h : Head) (d : VDst) (a b : VSrc) (ty : Ty) : Coding.Statement (Instr.vand h d a b ty) := rfl
theorem Coding.vor (h : Head) (d : VDst) (a b : VSrc) (ty : Ty) : Coding.Statement (Instr.vor h d a b ty) := rfl
theorem Coding.vxor (h : Head) (d : VDst) (a b : VSrc) (ty : Ty) : Coding.Statement (Instr.vxor h d a b ty) := rfl
theorem Coding.vandn (h : Head) (d : VDst) (a b : VSrc) (ty : Ty) : Coding.Statement (Instr.vandn h d a b ty) := rfl
theorem Coding.vshl (h : Head) (d : VDst) (a b : VSrc) (ty : Ty) : Coding.Statement (Instr.vshl h d a b ty) := rfl
theorem Coding.vshr (h : Head) (d : VDst) (a b : VSrc) (ty : Ty) : Coding.Statement (Instr.vshr h d a b ty) := rfl
theorem Coding.vsar (h : Head) (d : VDst) (a b : VSrc) (ty : Ty) : Coding.Statement (Instr.vsar h d a b ty) := rfl
theorem Coding.vrcp (h : Head) (d : VDst) (a : VSrc) (rm : RM) (sat : Bool) : Coding.Statement (Instr.vrcp h d a rm sat) := rfl
theorem Coding.vrsq (h : Head) (d : VDst) (a : VSrc) (rm : RM) (sat : Bool) : Coding.Statement (Instr.vrsq h d a rm sat) := rfl
theorem Coding.vsqrt (h : Head) (d : VDst) (a : VSrc) (rm : RM) (sat : Bool) : Coding.Statement (Instr.vsqrt h d a rm sat) := rfl
theorem Coding.vexp2 (h : Head) (d : VDst) (a : VSrc) (rm : RM) (sat : Bool) : Coding.Statement (Instr.vexp2 h d a rm sat) := rfl
theorem Coding.vlog2 (h : Head) (d : VDst) (a : VSrc) (rm : RM) (sat : Bool) : Coding.Statement (Instr.vlog2 h d a rm sat) := rfl
theorem Coding.vcvt (h : Head) (d : VDst) (a : VSrc) (ty tz : Ty) (rm : RM) (sat : Bool) (part : BitVec 13) : Coding.Statement (Instr.vcvt h d a ty tz rm sat part) := rfl
theorem Coding.vcmp (h : Head) (pd pe : PIx) (ct : CT) (cc : CC) (a b : VSrc) (ty : Ty) : Coding.Statement (Instr.vcmp h pd pe ct cc a b ty) := rfl
theorem Coding.vsel (h : Head) (d : VDst) (s : PIx) (a b : VSrc) (ty : Ty) : Coding.Statement (Instr.vsel h d s a b ty) := rfl
theorem Coding.vmov (h : Head) (d : VDst) (a : VSrc) (ty : Ty) : Coding.Statement (Instr.vmov h d a ty) := rfl
theorem Coding.vsplat (h : Head) (d : VDst) (a : SIx) (ty : Ty) : Coding.Statement (Instr.vsplat h d a ty) := rfl
theorem Coding.vsplati (h : Head) (d : VDst) (imm : BitVec 13) (ty : Ty) : Coding.Statement (Instr.vsplati h d imm ty) := rfl
theorem Coding.vext (h : Head) (d : SIx) (a : VSrc) (ty : Ty) (idx : BitVec 13) : Coding.Statement (Instr.vext h d a ty idx) := rfl
theorem Coding.vins (h : Head) (d : Fin 16) (a : SIx) (ty : Ty) (idx : BitVec 13) : Coding.Statement (Instr.vins h d a ty idx) := rfl
theorem Coding.vrsum (h : Head) (d : VDst) (a : VSrc) (ty : Ty) (rm : RM) (sat : Bool) : Coding.Statement (Instr.vrsum h d a ty rm sat) := rfl
theorem Coding.vrmax (h : Head) (d : VDst) (a : VSrc) (ty : Ty) : Coding.Statement (Instr.vrmax h d a ty) := rfl
theorem Coding.vrmin (h : Head) (d : VDst) (a : VSrc) (ty : Ty) : Coding.Statement (Instr.vrmin h d a ty) := rfl
theorem Coding.vramax (h : Head) (d : VDst) (a : VSrc) (ty : Ty) : Coding.Statement (Instr.vramax h d a ty) := rfl
theorem Coding.vshuf (h : Head) (d : VDst) (a b : VSrc) (ty : Ty) : Coding.Statement (Instr.vshuf h d a b ty) := rfl
theorem Coding.vperm (h : Head) (d : VDst) (a b c : VSrc) (ty : Ty) : Coding.Statement (Instr.vperm h d a b c ty) := rfl
theorem Coding.vrot (h : Head) (d : VDst) (a : VSrc) (ty : Ty) (k : BitVec 13) : Coding.Statement (Instr.vrot h d a ty k) := rfl
theorem Coding.vpack (h : Head) (d : VDst) (a b : VSrc) (ty tz : Ty) (sat : Bool) : Coding.Statement (Instr.vpack h d a b ty tz sat) := rfl
theorem Coding.vunpk (h : Head) (d : VDst) (a : VSrc) (ty tz : Ty) (half : BitVec 13) : Coding.Statement (Instr.vunpk h d a ty tz half) := rfl
theorem Coding.vclass (h : Head) (d : VDst) (a : VSrc) (ty : Ty) : Coding.Statement (Instr.vclass h d a ty) := rfl
theorem Coding.vscale (h : Head) (d : VDst) (a b : VSrc) (ty : Ty) (rm : RM) (sat : Bool) : Coding.Statement (Instr.vscale h d a b ty rm sat) := rfl
theorem Coding.vrint (h : Head) (d : VDst) (a : VSrc) (ty : Ty) (rm : RM) : Coding.Statement (Instr.vrint h d a ty rm) := rfl
theorem Coding.vsgn (h : Head) (d : VDst) (a b : VSrc) (ty : Ty) : Coding.Statement (Instr.vsgn h d a b ty) := rfl
theorem Coding.vclz (h : Head) (d : VDst) (a : VSrc) (ty : Ty) : Coding.Statement (Instr.vclz h d a ty) := rfl
theorem Coding.vpopc (h : Head) (d : VDst) (a : VSrc) (ty : Ty) : Coding.Statement (Instr.vpopc h d a ty) := rfl
theorem Coding.vrsumsq (h : Head) (d : VDst) (a : VSrc) (ty : Ty) (rm : RM) (sat : Bool) : Coding.Statement (Instr.vrsumsq h d a ty rm sat) := rfl
theorem Coding.vaccrd (h : Head) (d : VDst) (acc : Fin 4) (row : Fin 64) (seg : Fin 4) (ty tz : Ty) (rm : RM) (sat : Bool) : Coding.Statement (Instr.vaccrd h d acc row seg ty tz rm sat) := rfl
theorem Coding.vaccwr (h : Head) (a : VSrc) (acc : Fin 4) (row : Fin 64) (seg : Fin 4) (ty tz : Ty) (rm : RM) (sat : Bool) : Coding.Statement (Instr.vaccwr h a acc row seg ty tz rm sat) := rfl
theorem Coding.vmaski (h : Head) (pd : PIx) (ew : Ew) (n : BitVec 7) : Coding.Statement (Instr.vmaski h pd ew n) := rfl
theorem Coding.vcntp (h : Head) (d : SIx) (pa : PIx) : Coding.Statement (Instr.vcntp h d pa) := rfl
theorem Coding.vclamp (h : Head) (d : VDst) (a b c : VSrc) (ty : Ty) : Coding.Statement (Instr.vclamp h d a b c ty) := rfl
theorem Coding.viota (h : Head) (d : VDst) (ty : Ty) : Coding.Statement (Instr.viota h d ty) := rfl
theorem Coding.vabd (h : Head) (d : VDst) (a b : VSrc) (ty : Ty) (rm : RM) (sat : Bool) : Coding.Statement (Instr.vabd h d a b ty rm sat) := rfl
theorem Coding.br (g : Guard) (off : BitVec 16) : Coding.Statement (Instr.br g off) := rfl
theorem Coding.call (g : Guard) (off : BitVec 16) : Coding.Statement (Instr.call g off) := rfl
theorem Coding.bri (g : Guard) (a : SIx) : Coding.Statement (Instr.bri g a) := rfl
theorem Coding.ret (g : Guard) : Coding.Statement (Instr.ret g) := rfl
theorem Coding.loopReg (g : Guard) (ln : Fin 8) (a : SIx) : Coding.Statement (Instr.loopReg g ln a) := rfl
theorem Coding.loopImm (g : Guard) (ln : Fin 8) (cnt : BitVec 12) : Coding.Statement (Instr.loopImm g ln cnt) := rfl
theorem Coding.endl (g : Guard) (ln : Fin 8) (off : BitVec 13) : Coding.Statement (Instr.endl g ln off) := rfl
theorem Coding.lexit (g : Guard) (ln : Fin 8) (off : BitVec 13) : Coding.Statement (Instr.lexit g ln off) := rfl
theorem Coding.phase (g : Guard) : Coding.Statement (Instr.phase g) := rfl
theorem Coding.quiet (g : Guard) : Coding.Statement (Instr.quiet g) := rfl
theorem Coding.trapf (g : Guard) : Coding.Statement (Instr.trapf g) := rfl
theorem Coding.kend (g : Guard) : Coding.Statement (Instr.kend g) := rfl
theorem Coding.fence (g : Guard) (ord : Ord) (scp : Scp) : Coding.Statement (Instr.fence g ord scp) := rfl
theorem Coding.cardWindowWrite (off len : Nat) (value : Word) : Coding.Statement (Instr.cardWindowWrite off len value) := rfl
theorem Coding.arm (ctx : Fin 8) (value : Word) : Coding.Statement (Instr.arm ctx value) := rfl
theorem Coding.cqhead (ctx : Fin 8) (value : Word) : Coding.Statement (Instr.cqhead ctx value) := rfl
theorem Coding.cstat (ctx : Fin 8) (value : Word) : Coding.Statement (Instr.cstat ctx value) := rfl
theorem Coding.cint (ctx : Fin 8) (value : Word) : Coding.Statement (Instr.cint ctx value) := rfl
theorem Coding.mint (value : Word) : Coding.Statement (Instr.mint value) := rfl
theorem Coding.vectorUnmask (vector : Fin 17) : Coding.Statement (Instr.vectorUnmask vector) := rfl
theorem Coding.wdkick (ctx : Fin 8) : Coding.Statement (Instr.wdkick ctx) := rfl
theorem Coding.halt (ctx : Fin 8) : Coding.Statement (Instr.halt ctx) := rfl
theorem Coding.resume (ctx : Fin 8) : Coding.Statement (Instr.resume ctx) := rfl
theorem Coding.step (ctx : Fin 8) (stm : Stm) : Coding.Statement (Instr.step ctx stm) := rfl
theorem Coding.stepall (ctx : Fin 8) (stm : Stm) : Coding.Statement (Instr.stepall ctx stm) := rfl
theorem Coding.bbctl (value : Word) : Coding.Statement (Instr.bbctl value) := rfl
theorem Coding.hurel (value : Word) : Coding.Statement (Instr.hurel value) := rfl
theorem Coding.mext (value : Word) : Coding.Statement (Instr.mext value) := rfl
theorem Coding.atreq (value : Word) : Coding.Statement (Instr.atreq value) := rfl
theorem Coding.attestationReportDone : Coding.Statement (Instr.attestationReportDone) := rfl
theorem Coding.registerWrite (off : Nat) (value : Word) : Coding.Statement (Instr.registerWrite off value) := rfl
theorem Coding.createContext : Coding.Statement (Instr.createContext) := rfl
theorem Coding.destroyContext : Coding.Statement (Instr.destroyContext) := rfl
theorem Coding.writeExtent : Coding.Statement (Instr.writeExtent) := rfl
theorem Coding.revokeExtent : Coding.Statement (Instr.revokeExtent) := rfl
theorem Coding.revocationComplete (ctx : Fin 8) (ext : Fin 16384) : Coding.Statement (Instr.revocationComplete ctx ext) := rfl
theorem Coding.revocationPhaseLimit (core : Nat) : Coding.Statement (Instr.revocationPhaseLimit core) := rfl
theorem Coding.translationFaultAnswer (core : Nat) (retry : Bool) : Coding.Statement (Instr.translationFaultAnswer core retry) := rfl
theorem Coding.leaseChannel : Coding.Statement (Instr.leaseChannel) := rfl
theorem Coding.endLease : Coding.Statement (Instr.endLease) := rfl
theorem Coding.leaseLapse (channel : Fin 64) : Coding.Statement (Instr.leaseLapse channel) := rfl
theorem Coding.designateNearMemoryRegion : Coding.Statement (Instr.designateNearMemoryRegion) := rfl
theorem Coding.writeTableDescriptor : Coding.Statement (Instr.writeTableDescriptor) := rfl
theorem Coding.registerExchangeGroup : Coding.Statement (Instr.registerExchangeGroup) := rfl
theorem Coding.registerInboundBuffer : Coding.Statement (Instr.registerInboundBuffer) := rfl
theorem Coding.writePeerEntry : Coding.Statement (Instr.writePeerEntry) := rfl
theorem Coding.writeMustSaveEntry : Coding.Statement (Instr.writeMustSaveEntry) := rfl
theorem Coding.withdrawMustSaveEntry : Coding.Statement (Instr.withdrawMustSaveEntry) := rfl
theorem Coding.copyRecoveryReport : Coding.Statement (Instr.copyRecoveryReport) := rfl
theorem Coding.restoreSavedEntry : Coding.Statement (Instr.restoreSavedEntry) := rfl
theorem Coding.writeBootParameters : Coding.Statement (Instr.writeBootParameters) := rfl
theorem Coding.unknownRequest : Coding.Statement (Instr.unknownRequest) := rfl
theorem Coding.hostLinkWrite (addr : Nat) (data : List Byte) : Coding.Statement (Instr.hostLinkWrite addr data) := rfl
theorem Coding.armRequest (ctx : Fin 8) (core : Option Nat) : Coding.Statement (Instr.armRequest ctx core) := rfl
theorem Coding.patchRequest (core : Nat) : Coding.Statement (Instr.patchRequest core) := rfl
theorem Coding.campionAnswer (core : Nat) : Coding.Statement (Instr.campionAnswer core) := rfl
theorem Coding.tagPublication (core : Nat) : Coding.Statement (Instr.tagPublication core) := rfl
theorem Coding.launch : Coding.Statement (Instr.launch) := rfl
theorem Coding.gangPlacement : Coding.Statement (Instr.gangPlacement) := rfl
theorem Coding.aging : Coding.Statement (Instr.aging) := rfl
theorem Coding.preemption : Coding.Statement (Instr.preemption) := rfl
theorem Coding.blockRetirement (core : Nat) : Coding.Statement (Instr.blockRetirement core) := rfl
theorem Coding.watchdogExpiry (ctx : Fin 8) : Coding.Statement (Instr.watchdogExpiry ctx) := rfl
theorem Coding.queueStarvation (core : Nat) : Coding.Statement (Instr.queueStarvation core) := rfl
theorem Coding.variantRunStart (ctx : Fin 8) (card : Fin 4096) : Coding.Statement (Instr.variantRunStart ctx card) := rfl
theorem Coding.matrixCommand (core : Nat) : Coding.Statement (Instr.matrixCommand core) := rfl
theorem Coding.kStep (core : Nat) : Coding.Statement (Instr.kStep core) := rfl
theorem Coding.matrixRetirement (core : Nat) : Coding.Statement (Instr.matrixRetirement core) := rfl
theorem Coding.accumulatorWindowWrite (core : Nat) : Coding.Statement (Instr.accumulatorWindowWrite core) := rfl
theorem Coding.copyCommand (core : Nat) (q : Fin 4) : Coding.Statement (Instr.copyCommand core q) := rfl
theorem Coding.copyCompletion (core : Nat) (q : Fin 4) : Coding.Statement (Instr.copyCompletion core q) := rfl
theorem Coding.poolUnitCommand (core : Nat) : Coding.Statement (Instr.poolUnitCommand core) := rfl
theorem Coding.poolUnitCompletion (core : Nat) : Coding.Statement (Instr.poolUnitCompletion core) := rfl
theorem Coding.sketchDecay (ctx : Fin 8) (tid : Fin 1024) : Coding.Statement (Instr.sketchDecay ctx tid) := rfl
theorem Coding.scatterUpdateCommand (core : Nat) : Coding.Statement (Instr.scatterUpdateCommand core) := rfl
theorem Coding.rowCommit (core : Nat) : Coding.Statement (Instr.rowCommit core) := rfl
theorem Coding.scatterUpdateCompletion (core : Nat) : Coding.Statement (Instr.scatterUpdateCompletion core) := rfl
theorem Coding.nearMemoryRun (unit : Fin 64) : Coding.Statement (Instr.nearMemoryRun unit) := rfl
theorem Coding.unitPause (unit : Fin 64) : Coding.Statement (Instr.unitPause unit) := rfl
theorem Coding.nearMemoryCompletion (run : Nat) : Coding.Statement (Instr.nearMemoryCompletion run) := rfl
theorem Coding.teaselSegment (core : Nat) : Coding.Statement (Instr.teaselSegment core) := rfl
theorem Coding.speedwellCommand (core : Nat) : Coding.Statement (Instr.speedwellCommand core) := rfl
theorem Coding.inboundPacket (p : Packet) : Coding.Statement (Instr.inboundPacket p) := rfl
theorem Coding.abortToken (group : Fin 64) (ctx : Fin 8) (att : BitVec 16) : Coding.Statement (Instr.abortToken group ctx att) := rfl
theorem Coding.retransmissionTimeout (packet : Nat) : Coding.Statement (Instr.retransmissionTimeout packet) := rfl
theorem Coding.collectiveTimeout (core : Nat) (seq : Nat) : Coding.Statement (Instr.collectiveTimeout core seq) := rfl
theorem Coding.speedwellCompletion (core : Nat) (seq : Nat) : Coding.Statement (Instr.speedwellCompletion core seq) := rfl
theorem Coding.correctableError (site : ErrSite) : Coding.Statement (Instr.correctableError site) := rfl
theorem Coding.uncorrectableError (site : ErrSite) : Coding.Statement (Instr.uncorrectableError site) := rfl
theorem Coding.crcError (site : CrcSite) : Coding.Statement (Instr.crcError site) := rfl
theorem Coding.counterWindowExpiry (counter : Nat) : Coding.Statement (Instr.counterWindowExpiry counter) := rfl
theorem Coding.powerFail (measured : List Nat) : Coding.Statement (Instr.powerFail measured) := rfl
theorem Coding.supplyReturn : Coding.Statement (Instr.supplyReturn) := rfl
theorem Coding.overvoltage (measured : List Nat) : Coding.Statement (Instr.overvoltage measured) := rfl
theorem Coding.thermalTrip (measured : List Nat) : Coding.Statement (Instr.thermalTrip measured) := rfl
theorem Coding.peakDetector (watts : Nat) : Coding.Statement (Instr.peakDetector watts) := rfl
theorem Coding.regularStep (watts : Nat) (seen : StepInput) : Coding.Statement (Instr.regularStep watts seen) := rfl
theorem Coding.boot (b : BootInput) : Coding.Statement (Instr.boot b) := rfl
theorem Coding.bankRecharged : Coding.Statement (Instr.bankRecharged) := rfl
theorem Coding.illegalEncoding (code detail lane : BitVec 8) : Coding.Statement (Instr.illegalEncoding code detail lane) := rfl

end Sys2Proof.Laws
end

