-- ==== Sys2Proof/Tests/Slice0.lean ====
section
/-!
SUPPORT. Sys2Proof/Tests/Slice0.lean: ill-formed terms are refused; words written out from the layouts decode to their
forms; the hypotheses of each statement hold somewhere; single steps with values worked out by hand.
-/
namespace Sys2Proof.Tests
open Sys2Proof Sys2Proof.Machine
set_option maxRecDepth 20000
set_option Elab.async false

/-! ### Small states -/

/-- No guard, no tokens. -/
def bare : Head := ⟨⟨false, 0⟩, false, false, false, false⟩
/-- A guard that does not hold: p0 inverted. -/
def never : Head := { bare with g := ⟨true, 0⟩ }
/-- Context 0 runs the probed block on core 0; stream C is at lane 1 of line 0. -/
def base : State := { State.reset with cores := [(0, probeCore Core.init)], ctxs := [(0, Ctx.init)], booted := true }
/-- The same in another stream. -/
def baseIn (m : Stm) : State := { base with strm := m }
/-- Stream A in the same, with C past it. -/
def baseA : State := baseIn .a |>.modCore 0 fun c => { c with r := { c.r with c := { c.r.c with pos := ⟨0, 2, 0⟩ } } }
/-- The same with core 0 changed. -/
def baseCore (f : Core → Core) : State := base.modCore 0 f
/-- The same with context 0 changed. -/
def baseCtx (f : Ctx → Ctx) : State := base.modCtx 0 f
/-- The same with scalars of stream C set. -/
def baseS (l : List (SIx × Word)) : State := l.foldl (fun s e => s.setS e.1 e.2) base
/-- The state an outcome holds. -/
def after (o : Out) : State := match o with
  | .next t => t
  | _ => State.reset
/-- 2 MiB of memory at 2^30, TIER t, every permission, VBASE 1. -/
def mega (t : Nat) : Extent := entryOf 1 (2 ^ 63 + 21 * 2 ^ 56 + t * 2 ^ 53 + 0xFFFFFF * 2 ^ 26) ||| BitVec.ofNat 128 (512 * 2 ^ 59)
/-- Its handle on a path, and one over local scratch. -/
def memH (path : Nat) : Handle := extHandle 3 (mega 0) path (path * 2 ^ 60 + 2 ^ 21) (2 ^ 21)
def scrH : Handle := mkHandle (2 ^ 127 + 2 ^ 124) 0 0x200000
/-- Handles and shapes 0 and 1 hold versions of the beginning of the block. -/
def withHT (h0 h1 : Handle) (t0 t1 : Word) (s : State) : State :=
  s.modCore 0 fun c => { c with r := { c.r with
    h := (c.r.h.set 0 [(0, 0, h0)]).set 1 [(0, 0, h1)]
    t := (c.r.t.set 0 [(0, 0, t0)]).set 1 [(0, 0, t1)] } }

/-! ### Ill-formed terms are refused, one or more for each check of `Instr.fieldError` and `Instr.eventOk` (R97 to R101) -/

/-- A form's check answers this error, and no space of the stream takes the form. -/
def refuses (s : Stm) (e : DecodeError) (i : Instr) : Bool :=
  i.fieldError s == some e && i.spaces.all fun sp => sp.stm != s || !i.wfIn sp
theorem test_refused_scalar :
    [Instr.path bare 0 0 6, .extr bare 0 0 63 2 true, .insr bare 0 0 1 0, .inj bare 0 0 (.accBit 0 0 0 56)].all
      (refuses .c .immediateRange) ∧
    [Instr.cmp bare 1 1 .normal .eq 0 (.reg 0), .tbit bare 2 2 .unc .eq 0 5, .tbit bare 1 2 .unc .lt 0 5, .fcmp bare 3 3 .and .lt 0 0,
      .fcmp bare 1 2 .or .ltn 0 0, .mtsr bare 0 .cycle, .mtsr bare 0 .lseq, .qsend bare 0 9, .qrecv bare 0 31, .qtest bare 0 26].all
      (refuses .c .noMeaning) ∧
    refuses .a .noMeaning (.mtsr bare 0 .win) ∧
    [Instr.qsend bare 0 1, .qsend bare 0 4, .qrecv bare 0 0, .qrecv bare 0 4, .qtest bare 0 8].all (refuses .c .queueDirection) ∧
    refuses .a .queueDirection (.qtest bare 0 10) ∧
    [Instr.fcvt bare 0 0 .f32 .bf16 .rne false, .fcvt bare 0 0 .i8 .i16 .rne false].all (refuses .c .typeNotAccepted) := by decide +kernel
/-- TSET: accumulator types and reserved codes, the reserved bits, a row stride below the row; accesses: types without an
element size, atomics of 8 bits. -/
theorem test_refused_access :
    [Instr.tset bare 0 (w64 (0x18 * 2 ^ 59)), .tset bare 0 (w64 (0x0F * 2 ^ 59)), .ld bare 0 0 0 .i4 .plain 0,
      .st bare 0 0 0 (.bx 2) .plain 0, .ldl bare 0 0 0 .a56 0, .amo bare 0 0 0 .i8 .rlx .dev 0 0 .add,
      .acas bare 0 0 0 .f32 .rlx .dev 0 0 0].all (refuses .a .typeNotAccepted) ∧
    refuses .a .reservedBits (.tset bare 0 (w64 (2 ^ 56 + 2 ^ 10))) ∧
      refuses .a .immediateRange (.tset bare 0 (w64 (0x0A * 2 ^ 59 + 15 * 2 ^ 24 + 63))) ∧
    (Instr.tset bare 0 (w64 (0x0A * 2 ^ 59 + 15 * 2 ^ 24 + 64))).wfIn .c ∧
    (let f (c : Clip) : CopyFlags := ⟨c, false, false, .plain, false, false⟩
     let m : Sems := ⟨false, 0, false, 0⟩
     [Instr.gather bare 0 1 0 1 2 3 m 0 (f .none), .scatter bare 0 1 0 1 2 3 m 0 (f .none), .scatter bare 0 1 0 1 2 3 m 0 (f .clamp),
       .tring bare 0 1 0 2 3 m 0 (f .clamp), .evpop bare 5 5].all (refuses .c .noMeaning) ∧
     [Instr.stq bare 0 0 2 3 .clamp .plain false].all (refuses .a .noMeaning) ∧
     refuses .c .noMeaning (.fence ⟨false, 0⟩ .rlx .dev)) := by decide +kernel
/-- Format words: low byte, rounding mode, types, ACCT, PFIX outside the block mode; MMUL: fields of clear enables, one ring twice. -/
theorem test_refused_matrix :
    refuses .c .reservedBits (.mfmti bare 0x42000001) ∧ refuses .c .noMeaning (.mfmti bare 0x420A0000) ∧
    refuses .c .typeNotAccepted (.mfmti bare 0x52800000) ∧ refuses .c .typeNotAccepted (.mfmti bare 0x42200000) ∧
    refuses .c .noMeaning (.mfmti bare 0x42000100) ∧
    refuses .c .reservedBits (.mmul bare 0 1 (.acc 0) 0 0 0 ⟨false, 1, false, 0⟩) ∧
    refuses .c .reservedBits (.mmul bare 0 1 (.acc 0) 0 0 0 ⟨false, 0, false, 9⟩) ∧
    refuses .c .noMeaning (.mmul bare 2 2 (.acc 0) 0 0 0 ⟨false, 0, false, 0⟩) ∧
    (Instr.mfmti bare 0x42000000).wfIn .c := by decide +kernel
/-- Vector forms: RM or SAT of an integer form that has none. -/
theorem test_refused_vector_bits :
    [Instr.vadd bare .z .z .z .i8 .rtz false, .vsub bare .z .z .z .n8 .rtz false, .vmul bare .z .z .z .i16 .rtz false,
      .vfma bare .z .z .z .z .i32 .rtz false, .vfms bare .z .z .z .z .i32 .rtz false, .vfnma bare .z .z .z .z .i32 .rtz false,
      .vabs bare .z .z .f32 true, .vneg bare .z .z .bf16 true, .vrsum bare .z .z .i8 .rtz false, .vrsumsq bare .z .z .i8 .rtz false,
      .vabd bare .z .z .z .i8 .rtz false, .vabd bare .z .z .z .i8 .rne true].all (refuses .v .reservedBits) := by decide +kernel
/-- Vector forms: types they do not take. -/
theorem test_refused_vector_types :
    [Instr.vadd bare .z .z .z .e4m3 .rne false, .vsub bare .z .z .z .i4 .rne false, .vmul bare .z .z .z .a56 .rne false,
      .vfma bare .z .z .z .z .e5m2 .rne false, .vfms bare .z .z .z .z (.bx 0) .rne false, .vfnma bare .z .z .z .z .n4 .rne false,
      .vdiv bare .z .z .z .i32 .rne false, .vmin bare .z .z .z .e4m3, .vmax bare .z .z .z .p56, .vabs bare .z .z .e4m3 false,
      .vneg bare .z .z .i4 false, .vmulh bare .z .z .z .f32, .vand bare .z .z .z .f16, .vor bare .z .z .z .bf16, .vxor bare .z .z .z .f32,
      .vandn bare .z .z .z .f32, .vshl bare .z .z .z .f32, .vshr bare .z .z .z .f32, .vsar bare .z .z .z .f32,
      .vcvt bare .z .z .f32 .f32 .rne false 0, .vcvt bare .z .z .i4 .i8 .rne false 0, .vcmp bare 1 2 .normal .eq .z .z .i4,
      .vsel bare .z 1 .z .z .i4, .vmov bare .z .z .n4, .vsplat bare .z 0 .i56, .vsplati bare .z 0 (.bx 1), .vext bare 0 .z .i4 0,
      .vins bare 0 0 .n4 0].all (refuses .v .typeNotAccepted) ∧
    [Instr.vrsum bare .z .z .e4m3 .rne false, .vrsumsq bare .z .z .e5m2 .rne false, .vrmax bare .z .z .e4m3, .vrmin bare .z .z .i4,
      .vramax bare .z .z .e5m2, .vshuf bare .z .z .z .i4, .vperm bare .z .z .z .z .n4, .vrot bare .z .z .i4 0,
      .vpack bare .z .z .z .i16 .n8 false, .vpack bare .z .z .z .i32 .i8 false, .vunpk bare .z .z .n8 .i16 0, .vunpk bare .z .z .f16 .f32 0,
      .vclass bare .z .z .i32, .vscale bare .z .z .z .i32 .rne false, .vrint bare .z .z .i8 .rne, .vsgn bare .z .z .z .i32,
      .vclz bare .z .z .f32, .vpopc bare .z .z .f16, .vaccrd bare .z 0 0 0 .f32 .f32 .rne false, .vaccrd bare .z 0 0 0 .a56 .i8 .rne false,
      .vaccwr bare .z 0 0 0 .f32 .f32 .rne false, .vaccwr bare .z 0 0 0 .i8 .i56 .rne false, .vclamp bare .z .z .z .z .i4,
      .viota bare .z .f32, .vabd bare .z .z .z .e4m3 .rne false].all (refuses .v .typeNotAccepted) := by decide +kernel
/-- Vector forms: indices beyond the lanes, parts, halves and segments, one predicate twice, condition codes of integers. -/
theorem test_refused_vector_values :
    [Instr.vcvt bare .z .z .i32 .i8 .rne true 4, .vext bare 0 .z .f32 16, .vins bare 0 0 .i8 64, .vrot bare .z .z .i64 8,
      .vunpk bare .z .z .i8 .i16 2, .vaccrd bare .z 0 0 2 .a56 .bf16 .rne false, .vaccwr bare .z 0 0 2 .bf16 .a56 .rne false,
      .vmaski bare 1 .w8 65].all (refuses .v .immediateRange) ∧
    [Instr.vcmp bare 1 1 .normal .eq .z .z .i8, .vcmp bare 1 2 .normal .ltn .z .z .f32].all (refuses .v .noMeaning) := by decide +kernel
/-- A form outside the spaces of its stream, and events that name no core, no data, no rank. -/
theorem test_refused_elsewhere :
    (Instr.vadd bare .z .z .z .i8 .rne false).wfIn .c = false ∧ (Instr.mmul bare 0 1 (.acc 0) 0 0 0 ⟨false, 0, false, 0⟩).wfIn .a = false ∧
    (Instr.cardWindowWrite 0 0 0).wf = false ∧ (Instr.registerWrite 12 0).wf = false ∧ (Instr.hostLinkWrite 0 []).wf = false ∧
    (Instr.armRequest 0 (some 128)).wf = false ∧ (Instr.inboundPacket ⟨0, 0, 0, 0, 0, 1024, 0, 0, 1, .ack⟩).wf = false := by decide +kernel
theorem test_refused_cores :
    [Instr.revocationPhaseLimit 128, .translationFaultAnswer 128 true, .patchRequest 128, .campionAnswer 128, .tagPublication 128,
      .blockRetirement 128, .queueStarvation 128, .matrixCommand 128, .kStep 128, .matrixRetirement 128,
      .accumulatorWindowWrite 128, .copyCommand 128 0, .copyCompletion 128 0, .poolUnitCommand 128, .poolUnitCompletion 128,
      .scatterUpdateCommand 128, .rowCommit 128, .scatterUpdateCompletion 128, .teaselSegment 128, .speedwellCommand 128,
      .collectiveTimeout 128 0, .speedwellCompletion 128 0].all (fun i => !i.wf) = true := by decide +kernel
/-! ### Words written out from the layouts (R94 to R106) -/

def wordHead : Head := ⟨⟨true, 5⟩, true, false, false, true⟩
def wordGuard : Guard := ⟨true, 5⟩
/-- A first lane and its continuation lanes decode to a form. -/
def reads (sp : Space) (w l m : Nat) (i : Instr) : Bool := match decodeForm sp w l m with
  | .ok j => decide (j = i)
  | .error _ => false
/-- Tables 5 to 7: the common space. -/
theorem test_words_common : [
  reads .c 0xD9001C54 0 0 (.add wordHead 3 17 10 false),
  reads .c 0xD9011C57 0 0 (.sub wordHead 3 17 11 true),
  reads .c 0xD9021C58 0 0 (.mul wordHead 3 17 12 false),
  reads .c 0xD9031C5B 0 0 (.mulh wordHead 3 17 13 true),
  reads .c 0xD9041C5C 0 0 (.mulhn wordHead 3 17 14 false),
  reads .c 0xD9051C5F 0 0 (.div wordHead 3 17 15 true),
  reads .c 0xD9061C60 0 0 (.divn wordHead 3 17 16 false),
  reads .c 0xD9071C63 0 0 (.rem wordHead 3 17 17 true),
  reads .c 0xD9081C64 0 0 (.remn wordHead 3 17 18 false),
  reads .c 0xD9091C67 0 0 (.and wordHead 3 17 19 true),
  reads .c 0xD90A1C68 0 0 (.or wordHead 3 17 20 false),
  reads .c 0xD90B1C6B 0 0 (.xor wordHead 3 17 21 true),
  reads .c 0xD90C1C6C 0 0 (.shl wordHead 3 17 22 false),
  reads .c 0xD90D1C6F 0 0 (.shr wordHead 3 17 23 true),
  reads .c 0xD90E1C70 0 0 (.sar wordHead 3 17 24 false),
  reads .c 0xD90F1C73 0 0 (.rotl wordHead 3 17 25 true),
  reads .a 0xD910F065 0 0 (.addi wordHead 30 1 37),
  reads .a 0xD911F066 0 0 (.muli wordHead 30 1 38),
  reads .a 0xD912F067 0 0 (.andi wordHead 30 1 39),
  reads .a 0xD913F068 0 0 (.ori wordHead 30 1 40),
  reads .a 0xD914F069 0 0 (.xori wordHead 30 1 41),
  reads .a 0xD915F06A 0 0 (.shli wordHead 30 1 42),
  reads .a 0xD916F06B 0 0 (.shri wordHead 30 1 43),
  reads .a 0xD917F06C 0 0 (.sari wordHead 30 1 44),
  reads .a 0xD918F06D 0 0 (.rotli wordHead 30 1 45),
  reads .v 0xD9194D80 0 0 (.clz wordHead 9 22),
  reads .v 0xD91A4D80 0 0 (.ctz wordHead 9 22),
  reads .v 0xD91B4D80 0 0 (.popc wordHead 9 22),
  reads .v 0xD91C4D80 0 0 (.mov wordHead 9 22),
  reads .c 0xD91DA500 0 0 (.flgclr wordHead 0xA5),
  reads .c 0xD9203DA3 0 0 (.movi wordHead 7 0x5A3),
  reads .c 0xD9214000 0x89ABCDEF 0 (.movil wordHead 8 0x89ABCDEF),
  reads .c 0xD9224000 0x89ABCDEF 0x01234567 (.moviq wordHead 8 0x0123456789ABCDEF),
  reads .c 0xD9234240 0xFFFFFFFE 0 (.addil wordHead 8 9 0xFFFFFFFE),
  reads .c 0xD92408BE 0 0 (.min wordHead 1 2 31),
  reads .c 0xD92508BE 0 0 (.max wordHead 1 2 31),
  reads .c 0xD92608BE 0 0 (.minn wordHead 1 2 31),
  reads .c 0xD92708BE 0 0 (.maxn wordHead 1 2 31),
  reads .c 0xD9282185 0 0 (.path wordHead 4 6 5),
  reads .c 0xD9292140 0x84C80000 0 (.extr wordHead 4 5 33 12 true),
  reads .c 0xD92A2140 0x84C00000 0 (.insr wordHead 4 5 33 12),
  reads .c 0xD9303A28 0xAB000000 0 (.cmp wordHead 1 6 .andor .gen 21 (.reg 12)),
  reads .c 0xD93039CC 0xAC000001 0 (.cmp wordHead 1 6 .or .gtn 21 (.imm 0x4000001)),
  reads .c 0xD9314E8C 0xA000002D 0 (.tbit wordHead 2 3 .orand .ne 20 45),
  reads .c 0xD9342A40 0 0 (.pand wordHead 1 2 4 true false),
  reads .c 0xD9352A40 0 0 (.por wordHead 1 2 4 true false),
  reads .c 0xD9362A40 0 0 (.pxor wordHead 1 2 4 true false),
  reads .c 0xD9379800 0 0 (.pget wordHead 19),
  reads .c 0xD9389800 0 0 (.pput wordHead 19),
  reads .c 0xD9392800 0 0 (.qsend wordHead 5 0),
  reads .c 0xD93A28C0 0 0 (.qrecv wordHead 5 3),
  reads .c 0xD93B28C0 0 0 (.qtest wordHead 5 3),
  reads .c 0xD93C303A 0 0 (.mfsr wordHead 6 (.llim 2)),
  reads .c 0xD93D3003 0 0 (.mtsr wordHead 6 .win),
  reads .c 0xD93E0000 0 0 (.nop wordHead),
  reads .c 0xD93F3C00 0 0 (.brk wordHead 0x3C)].all id = true := by decide +kernel

/-- Table 8: C's scalar, handle and access forms. -/
theorem test_words_scalar : [
  reads .c 0xD9400886 0x0280E000 0 (.fadd wordHead 1 2 3 .rup true),
  reads .c 0xD9410886 0x0280E000 0 (.fsub wordHead 1 2 3 .rup true),
  reads .c 0xD9420886 0x0280E000 0 (.fmul wordHead 1 2 3 .rup true),
  reads .c 0xD9430886 0x0280E000 0 (.fdiv wordHead 1 2 3 .rup true),
  reads .c 0xD9440886 0xE2810000 0 (.fma wordHead 1 2 3 28 .rdn false),
  reads .c 0xD9450886 0x02800000 0 (.fmin wordHead 1 2 3),
  reads .c 0xD9460886 0x02800000 0 (.fmax wordHead 1 2 3),
  reads .c 0xD9470880 0x02804000 0 (.fsqrt wordHead 1 2 .rna false),
  reads .c 0xD9480880 0x00D4A000 0 (.fcvt wordHead 1 2 .n16 .f32 .rtz true),
  reads .c 0xD94928B0 0x19000000 0 (.fcmp wordHead 1 2 .unc .le 3 4),
  reads .c 0xD94A0880 0 0 (.fneg wordHead 1 2),
  reads .c 0xD94B0880 0 0 (.fabs wordHead 1 2),
  reads .c 0xD9508100 0 0 (.trap wordHead 0x81),
  reads .c 0xD9510100 0x10000000 0 (.inj wordHead 0 4 .scratchPoison),
  reads .c 0xD9583214 0 0 (.xlate wordHead 3 4 5),
  reads .c 0xD95931C0 0 0 (.probe wordHead 6 7),
  reads .c 0xD95A3214 0 0 (.hloc wordHead 3 4 5),
  reads .c 0xD95B1200 0 0 (.hmov wordHead 1 2),
  reads .c 0xD95C1230 0x21400000 0 (.hsub wordHead 1 2 3 4 5),
  reads .c 0xD95D0950 0 0 (.hget wordHead 1 2 .base),
  reads .c 0xD95E9000 0x10000100 0x2400FE00 (.tset wordHead 9 0x2400FE0010000100),
  reads .c 0xD95F0920 0 0 (.tget wordHead 1 2 .cols),
  reads .a 0xD96093A0 0x2C1FFFFF 0 (.ld wordHead 9 7 8 .n32 .two 0x1FFFFF),
  reads .c 0xD96193A0 0x2A1FFFFF 0 (.st wordHead 9 7 8 .n32 .one 0x1FFFFF),
  reads .c 0xD96293A0 0x48000005 0 (.ldl wordHead 9 7 8 .f16 5),
  reads .c 0xD96393A0 0x00000005 0 (.gtest wordHead 9 7 8 5),
  reads .a 0xD96493A0 0x00000005 0 (.gset wordHead 9 7 8 5),
  reads .c 0xD96593A0 0x31600005 0x58200000 (.amo wordHead 9 7 8 .i64 .rel .sys 5 11 .maxn),
  reads .c 0xD96693A0 0x38A00005 0x5B000000 (.acas wordHead 9 7 8 .n64 .acq .die 5 11 12)].all id = true := by decide +kernel

/-- Table 8: the copy and matrix engines. -/
theorem test_words_engines : [
  reads .c 0xD9704567 0x08A7CA94 0 (.copy wordHead 4 5 6 7 1 2 ⟨true, 3, true, 12⟩ 2 ⟨.clamp, true, false, .one, false, true⟩),
  reads .c 0xD9724567 0x08A7C994 0 (.gather wordHead 4 5 6 7 1 2 ⟨true, 3, true, 12⟩ 2 ⟨.zero, true, false, .one, false, true⟩),
  reads .c 0xD9734567 0x08A7C994 0 (.scatter wordHead 4 5 6 7 1 2 ⟨true, 3, true, 12⟩ 2 ⟨.zero, true, false, .one, false, true⟩),
  reads .c 0xD9714060 0x0827C844 0 (.fill wordHead 4 6 1 ⟨true, 3, true, 12⟩ 2 true false true),
  reads .c 0xD9744507 0x08A7C994 0 (.tring wordHead 4 5 7 1 2 ⟨true, 3, true, 12⟩ 2 ⟨.zero, true, false, .one, false, true⟩),
  reads .c 0xD9758000 0 0 (.ccancel wordHead 2),
  reads .c 0xD9764240 0 0 (.evpop wordHead 8 9),
  reads .c 0xD980A800 0 0 (.mfmt wordHead 21),
  reads .c 0xD9810000 0x42550000 0 (.mfmti wordHead 0x42550000),
  reads .c 0xD9823A00 0xA0796260 0 (.mmul wordHead 1 6 (.acc 2) 40 7 600 ⟨true, 3, false, 0⟩),
  reads .c 0xD98238DC 0xA0796260 0 (.mmul wordHead 1 6 (.loop 5 3) 40 7 600 ⟨true, 3, false, 0⟩),
  reads .c 0xD983C000 0 0 (.mzero wordHead 3),
  reads .c 0xD984D140 0x31C00000 0 (.accld wordHead 3 4 5 6 7),
  reads .c 0xD985D140 0x31C00000 0 (.accst wordHead 3 4 5 6 7),
  reads .c 0xD9868530 0 0 (.ringcfg wordHead 4 5 6),
  reads .c 0xD9878000 0 0 (.ringrel wordHead 4),
  reads .c 0xD9888500 0 0 (.ringq wordHead 5 4),
  reads .c 0xD9907000 0 0 (.bar wordHead 7),
  reads .c 0xD9917A00 0 0 (.semsig wordHead 7 20),
  reads .c 0xD9927A00 0 0 (.semwait wordHead 7 20),
  reads .c 0xD9937A00 0 0 (.semrd wordHead 20 7),
  reads .c 0xD9949100 0 0 (.tagpub wordHead 2 17),
  reads .c 0xD994B100 0 0 (.tagpubP wordHead 2 17),
  reads .c 0xD9959190 0 0 (.tagtest wordHead 17 2 18),
  reads .c 0xD9960886 0x58000000 0 (.jpatch wordHead 1 2 3 11),
  reads .c 0xD9970880 0 0 (.jarm wordHead 1 2)].all id = true := by decide +kernel

/-- Tables 8 and 9: tags, jobs, package engines, A's queues. -/
theorem test_words_jobs : [
  reads .c 0xD9980880 0 0 (.jstat wordHead 1 2),
  reads .c 0xD9A05D80 0 0 (.pool wordHead 11 (some 6)),
  reads .c 0xD9A05801 0 0 (.poolPop wordHead 11),
  reads .c 0xD9A15D80 0 0 (.hotqLook wordHead 11 (some 6)),
  reads .c 0xD9A15D81 0 0 (.hotqFill wordHead 11 (some 6)),
  reads .c 0xD9A15D82 0 0 (.hotqInv wordHead 11 (some 6)),
  reads .c 0xD9A15D83 0 0 (.hotqDrops wordHead 11 (some 6)),
  reads .c 0xD9A25D80 0 0 (.skqEst wordHead 11 (some 6)),
  reads .c 0xD9A25D81 0 0 (.skqClr wordHead 11 (some 6)),
  reads .c 0xD9A35D80 0 0 (.scupdSgd wordHead 11 (some 6)),
  reads .c 0xD9A35D81 0 0 (.scupdAdagrad wordHead 11 (some 6)),
  reads .c 0xD9A35D82 0 0 (.scupdAdam wordHead 11 (some 6)),
  reads .c 0xD9A45D80 0 0 (.nmrun wordHead 11 (some 6)),
  reads .c 0xD9A65D80 0 0 (.ixwalk wordHead 11 (some 6)),
  reads .c 0xD9A65801 0 0 (.ixwalkPop wordHead 11),
  reads .c 0xD9A75D80 0 0 (.a2aIdx wordHead 11 (some 6)),
  reads .c 0xD9A75D81 0 0 (.a2aVec wordHead 11 (some 6)),
  reads .c 0xD9A75802 0 0 (.a2aPop wordHead 11),
  reads .c 0xD9A85D80 0 0 (.xredSum wordHead 11 (some 6)),
  reads .c 0xD9A85D81 0 0 (.xredMin wordHead 11 (some 6)),
  reads .c 0xD9A85D82 0 0 (.xredMax wordHead 11 (some 6)),
  reads .c 0xD9A95D80 0 0 (.xput wordHead 11 (some 6)),
  reads .c 0xD9A50880 0 0 (.nmstat wordHead 1 2),
  reads .c 0xD9AA1800 0 0 (.xabort wordHead 3),
  reads .a 0xD9402340 0x215A0000 0 (.ldq wordHead 2 3 1 4 5 .zero .two true),
  reads .a 0xD9412300 0x21440000 0 (.stq wordHead 2 3 4 5 .none .one false),
  reads .a 0xD942D300 0 0 (.qsplat wordHead 3 9 .w32)].all id = true := by decide +kernel

/-- Table 10: lane-wise arithmetic. -/
theorem test_words_vector : [
  reads .v 0xD94008A2 0x0280A000 0 (.vadd wordHead (.v 1) (.v 2) (.q 1) .f32 .rtz true),
  reads .v 0xD94108A2 0x0240A000 0 (.vsub wordHead (.v 1) (.v 2) (.q 1) .f16 .rtz true),
  reads .v 0xD94208A2 0x0200A000 0 (.vmul wordHead (.v 1) (.v 2) (.q 1) .bf16 .rtz true),
  reads .v 0xD94308A2 0xAA40A000 0 (.vfma wordHead (.v 1) (.v 2) (.q 1) .z .f16 .rtz true),
  reads .v 0xD94408A2 0xAA80A000 0 (.vfms wordHead (.v 1) (.v 2) (.q 1) .z .f32 .rtz true),
  reads .v 0xD94508A2 0xAA80A000 0 (.vfnma wordHead (.v 1) (.v 2) (.q 1) .z .f32 .rtz true),
  reads .v 0xD94608A2 0x0280A000 0 (.vdiv wordHead (.v 1) (.v 2) (.q 1) .f32 .rtz true),
  reads .v 0xD94708A2 0x00C00000 0 (.vmin wordHead (.v 1) (.v 2) (.q 1) .n16),
  reads .v 0xD94808A2 0x02800000 0 (.vmax wordHead (.v 1) (.v 2) (.q 1) .f32),
  reads .v 0xD9490880 0x01002000 0 (.vabs wordHead (.v 1) (.v 2) .i32 true),
  reads .v 0xD94A0880 0x00802000 0 (.vneg wordHead (.v 1) (.v 2) .i16 true),
  reads .v 0xD94B08A2 0x01400000 0 (.vmulh wordHead (.v 1) (.v 2) (.q 1) .n32),
  reads .v 0xD94C08A2 0x01800000 0 (.vand wordHead (.v 1) (.v 2) (.q 1) .i64),
  reads .v 0xD94D08A2 0x01800000 0 (.vor wordHead (.v 1) (.v 2) (.q 1) .i64),
  reads .v 0xD94E08A2 0x01800000 0 (.vxor wordHead (.v 1) (.v 2) (.q 1) .i64),
  reads .v 0xD94F08A2 0x01800000 0 (.vandn wordHead (.v 1) (.v 2) (.q 1) .i64),
  reads .v 0xD95008A2 0 0 (.vshl wordHead (.v 1) (.v 2) (.q 1) .i8),
  reads .v 0xD95108A2 0x00800000 0 (.vshr wordHead (.v 1) (.v 2) (.q 1) .i16),
  reads .v 0xD95208A2 0x01000000 0 (.vsar wordHead (.v 1) (.v 2) (.q 1) .i32),
  reads .v 0xD9530880 0x0280A000 0 (.vrcp wordHead (.v 1) (.v 2) .rtz true),
  reads .v 0xD9540880 0x0280A000 0 (.vrsq wordHead (.v 1) (.v 2) .rtz true),
  reads .v 0xD9550880 0x0280A000 0 (.vsqrt wordHead (.v 1) (.v 2) .rtz true),
  reads .v 0xD9560880 0x0280A000 0 (.vexp2 wordHead (.v 1) (.v 2) .rtz true),
  reads .v 0xD9570880 0x0280A000 0 (.vlog2 wordHead (.v 1) (.v 2) .rtz true),
  reads .v 0xD9580880 0x02906001 0 (.vcvt wordHead (.v 1) (.v 2) .f32 .bf16 .rna true 1)].all id = true := by decide +kernel

/-- Table 10: the other vector forms. -/
theorem test_words_vector_rest : [
  reads .v 0xD9592918 0x1C040000 0 (.vcmp wordHead 1 2 .and .ge (.v 3) (.q 0) .i16),
  reads .v 0xD95AA086 0x00800005 0 (.vsel wordHead .q8 5 (.v 2) (.v 3) .i16),
  reads .v 0xD95B0880 0 0 (.vmov wordHead (.v 1) (.v 2) .i8),
  reads .v 0xD95C0F80 0 0 (.vsplat wordHead (.v 1) 30 .i8),
  reads .v 0xD95D0800 0x01001ABC 0 (.vsplati wordHead (.v 1) 0x1ABC .i32),
  reads .v 0xD95EF040 0x0000003F 0 (.vext wordHead 30 (.v 1) .i8 63),
  reads .v 0xD95F0F80 0x0000003F 0 (.vins wordHead 1 30 .i8 63),
  reads .v 0xD9600880 0x0280A000 0 (.vrsum wordHead (.v 1) (.v 2) .f32 .rtz true),
  reads .v 0xD9610880 0 0 (.vrmax wordHead (.v 1) (.v 2) .i8),
  reads .v 0xD9620880 0 0 (.vrmin wordHead (.v 1) (.v 2) .i8),
  reads .v 0xD9630880 0x02800000 0 (.vramax wordHead (.v 1) (.v 2) .f32),
  reads .v 0xD96408A2 0 0 (.vshuf wordHead (.v 1) (.v 2) (.q 1) .i8),
  reads .v 0xD96508A2 0xA8000000 0 (.vperm wordHead (.v 1) (.v 2) (.q 1) .z .i8),
  reads .v 0xD9660880 0x00800009 0 (.vrot wordHead (.v 1) (.v 2) .i16 9),
  reads .v 0xD9670886 0x00802000 0 (.vpack wordHead (.v 1) (.v 2) (.v 3) .i16 .i8 true),
  reads .v 0xD9680880 0x00040001 0 (.vunpk wordHead (.v 1) (.v 2) .i8 .i16 1),
  reads .v 0xD9690880 0x02800000 0 (.vclass wordHead (.v 1) (.v 2) .f32),
  reads .v 0xD96A08A2 0x0280A000 0 (.vscale wordHead (.v 1) (.v 2) (.q 1) .f32 .rtz true),
  reads .v 0xD96B0880 0x02808000 0 (.vrint wordHead (.v 1) (.v 2) .f32 .rtz),
  reads .v 0xD96C08A2 0x02800000 0 (.vsgn wordHead (.v 1) (.v 2) (.q 1) .f32),
  reads .v 0xD96D0880 0 0 (.vclz wordHead (.v 1) (.v 2) .i8),
  reads .v 0xD96E0880 0 0 (.vpopc wordHead (.v 1) (.v 2) .i8),
  reads .v 0xD96F0880 0x0280A000 0 (.vrsumsq wordHead (.v 1) (.v 2) .f32 .rtz true),
  reads .v 0xD9700D0A 0x0648A000 0 (.vaccrd wordHead (.v 1) 2 33 1 .i56 .i32 .rtz true),
  reads .v 0xD9710D0A 0x0132A000 0 (.vaccwr wordHead (.v 1) 2 33 1 .i32 .i56 .rtz true),
  reads .v 0xD9726990 0 0 (.vmaski wordHead 3 .w16 25),
  reads .v 0xD9734C00 0 0 (.vcntp wordHead 9 4),
  reads .v 0xD97408A2 0xA8000000 0 (.vclamp wordHead (.v 1) (.v 2) (.q 1) .z .i8),
  reads .v 0xD9750800 0 0 (.viota wordHead (.v 1) .i8),
  reads .v 0xD97608A2 0x0280A000 0 (.vabd wordHead (.v 1) (.v 2) (.q 1) .f32 .rtz true)].all id = true := by decide +kernel

/-- Table 11. -/
theorem test_words_all : [
  reads .all 0xD000FFFE 0 0 (.br wordGuard 0xFFFE),
  reads .all 0xD0011234 0 0 (.call wordGuard 0x1234),
  reads .all 0xD002C800 0 0 (.bri wordGuard 25),
  reads .all 0xD0030000 0 0 (.ret wordGuard),
  reads .all 0xD004CC80 0 0 (.loopReg wordGuard 6 25),
  reads .all 0xD004DABC 0 0 (.loopImm wordGuard 6 0xABC),
  reads .all 0xD005DFFD 0 0 (.endl wordGuard 6 0x1FFD),
  reads .all 0xD006C009 0 0 (.lexit wordGuard 6 9),
  reads .all 0xD0070000 0 0 (.phase wordGuard),
  reads .all 0xD0080000 0 0 (.quiet wordGuard),
  reads .all 0xD0090000 0 0 (.trapf wordGuard),
  reads .all 0xD00A0000 0 0 (.kend wordGuard),
  reads .all 0xD00BB000 0 0 (.fence wordGuard .rel .sys)].all id = true := by decide +kernel


/-! ### Single steps with values worked out by hand from the rules -/

/-- What scalar 5 and the flags hold after a form of stream C with scalars 6 and 7 set. -/
def ran (i : Instr) (a b : Word) : Word × BitVec 8 :=
  let t := after (exec i (baseS [(6, a), (7, b)]))
  (t.st.s[5], t.st.tflags)
/-- R141: 32-bit results are sign-extended; shift counts are taken modulo 32. -/
theorem test_add_wraps : ran (.add bare 5 6 7 true) 0x7FFFFFFF 1 = (0xFFFFFFFF80000000, 0) := by decide +kernel
theorem test_sub_borrows : ran (.sub bare 5 6 7 false) 0 1 = (0xFFFFFFFFFFFFFFFF, 0) := by decide +kernel
theorem test_shl_count_wraps : ran (.shl bare 5 6 7 true) 3 33 = (6, 0) := by decide +kernel
theorem test_sar_fills : ran (.sar bare 5 6 7 false) 0x8000000000000000 63 = (0xFFFFFFFFFFFFFFFF, 0) := by decide +kernel
theorem test_rotl_low_half : ran (.rotl bare 5 6 7 true) 0xFFFFFFFF80000001 4 = (0x18, 0) := by decide +kernel
/-- R141 Table 2: division by zero, the one quotient that does not fit, and the sign of a remainder. -/
theorem test_div_zero : ran (.div bare 5 6 7 false) 9 0 = (0xFFFFFFFFFFFFFFFF, 0x80) := by decide +kernel
theorem test_div_does_not_fit : ran (.div bare 5 6 7 false) 0x8000000000000000 0xFFFFFFFFFFFFFFFF = (0x8000000000000000, 0x40) := by
  decide +kernel
theorem test_rem_sign : ran (.rem bare 5 6 7 false) 0xFFFFFFFFFFFFFFF9 2 = (0xFFFFFFFFFFFFFFFF, 0) := by decide +kernel
/-- R142, R143: an immediate of 6 bits has its sign extended; MOVIL extends 32 bits. -/
theorem test_addi_negative : ran (.addi bare 5 6 0x20) 1 0 = (0xFFFFFFFFFFFFFFE1, 0) := by decide +kernel
theorem test_movil_negative : ran (.movil bare 5 0x80000000) 0 0 = (0xFFFFFFFF80000000, 0) := by decide +kernel
/-- R144: a sign-extended field, an insertion, the top bits of a path, and the count of a zero. -/
theorem test_extr_signed : ran (.extr bare 5 6 4 4 true) 0x80 0 = (0xFFFFFFFFFFFFFFF8, 0) := by decide +kernel
theorem test_insr : (after (exec (.insr bare 6 7 8 8) (baseS [(6, 0xFFFFFF), (7, 0x1A5)]))).st.s[6] = 0xFFA5FF := by decide +kernel
theorem test_path : ran (.path bare 5 6 3) 0xF000000000000001 0 = (0x3000000000000001, 0) := by decide +kernel
theorem test_clz_zero : ran (.clz bare 5 6) 0 0 = (64, 0) := by decide +kernel
/-- R97: a false guard writes nothing and the stream goes on. -/
theorem test_false_guard :
    let t := after (exec (.movi never 6 5) (baseS [(6, 9)]))
    t.st.s[6] = 9 ∧ t.st.pos = ⟨0, 2, 0⟩ := by decide +kernel
/-- R146: −1 < 1 signed and not unsigned; both destinations are written. -/
theorem test_cmp_signs :
    let t := after (exec (.cmp bare 1 2 .normal .lt 6 (.reg 7)) (baseS [(6, 0xFFFFFFFFFFFFFFFF), (7, 1)]))
    let u := after (exec (.cmp bare 1 2 .normal .ltn 6 (.reg 7)) (baseS [(6, 0xFFFFFFFFFFFFFFFF), (7, 1)]))
    t.st.pb 1 = true ∧ t.st.pb 2 = false ∧ u.st.pb 1 = false ∧ u.st.pb 2 = true := by decide +kernel
/-- R125, R149: 1.5 × 1.5 + 0.25 is exact; 1 + 2^−24 rounds to even and is inexact. -/
theorem test_fma_exact : (after (exec (.fma bare 5 6 6 7 .rne false) (baseS [(6, 0x3FC00000), (7, 0x3E800000)]))).st.s[5] = 0x40200000 := by
  decide +kernel
theorem test_fadd_ties_to_even : ran (.fadd bare 5 6 7 .rne false) 0x3F800000 0x33800000 = (0x3F800000, 0x10) := by decide +kernel
/-- R281, R283: a signal adds its count and saturates at 65,535. -/
theorem test_semsig : ((after (exec (.semsig bare 4 6) (baseS [(6, 3)]))).core 0).sem[(4 : Fin 16)] = 3 := by decide +kernel

/-! ### The hypotheses of each statement hold somewhere -/

theorem witness_IntegerRegisterFormsComplete : base.canIssue bare := by decide +kernel
theorem witness_IntegerImmediateFormsComplete : (baseIn .a).canIssue bare := by decide +kernel
theorem witness_MoveAndBitFieldFormsComplete_moves : (baseIn .v).canIssue bare := by decide +kernel
theorem witness_MoveAndBitFieldFormsComplete_fields : base.canIssue bare ∧ (5 : BitVec 6).toNat ≤ 5 ∧ (63 : BitVec 6).toNat + 1 ≤ 64 := by decide +kernel
theorem witness_ComparesComplete : base.canIssue bare := by decide +kernel
theorem witness_CombiningTypesAsTabled : (1 : PIx) = 2 → (1 : PIx) = 0 := by decide +kernel
theorem witness_PredicateFormsComplete : base.canIssue bare := by decide +kernel
/-- Fifteen elements leave room in q1, sixteen do not; one element stands in q1 for A to take, none to wait on. -/
theorem witness_QueueFormsComplete :
    let full (n : Nat) := baseCore fun c => { c with r := { c.r with qs := c.r.qs.set 0 (List.replicate n 5) } }
    (full 15).canIssue bare ∧ (Instr.qsend bare 1 0).fieldError .c = none ∧ ((full 15).sq 0).length < 16 ∧
    (full 16).canIssue bare ∧ ((full 16).sq 0).length = 16 ∧
    (Instr.qrecv bare 1 0).fieldError .a = none ∧ ({ full 1 with strm := .a } : State).canIssue bare ∧ (full 1).sq 0 = 5 :: [] ∧
    (full 0).canIssue bare ∧ (full 0).sq 0 = [] := by decide +kernel
theorem witness_SpecialRegisterFormsComplete :
    let on := baseCtx fun x => { x with brken := true }
    base.canIssue bare ∧ (base.ctx base.cx).brken = false ∧ on.canIssue bare ∧ (on.ctx on.cx).brken = true ∧
    (on.ctx on.cx).halted = false := by decide +kernel
theorem witness_SpecialRegisterFormsComplete_reads :
    let s := base.modCore 0 fun c => { c with blk := some { probeBlock with jarg := [1, 2, 3, 4] } }
    let k := popTokens s.toks s.strm bare
    s.canIssue bare ∧ (∀ n : Fin 8, (s.res.trip[n.val]?).isSome = true) ∧ (∀ n : Fin 4, (s.res.jarg[n.val]?).isSome = true) ∧
    s.res.card < 4096 ∧ s.res.block < 2 ^ 24 ∧ s.me.r.win ≤ 1024 ∧ s.st.pos.lseq < 2 ^ 64 ∧ s.st.rstk.length ≤ 16 ∧
    k.ca < 16 ∧ k.av < 16 ∧ k.vc < 16 ∧ k.ac < 16 ∧ k.va < 16 ∧ k.cv < 16 ∧ s.cur < 128 ∧ s.me.phys < 256 := by decide +kernel
theorem witness_ScalarFloatFormsComplete : base.canIssue bare := by decide +kernel
theorem witness_TrapAndInjectionComplete :
    let on := baseCtx fun x => { x with svc := true }
    base.canIssue bare ∧ (base.ctx base.cx).svc = false ∧ on.canIssue bare ∧ (on.ctx on.cx).svc = true ∧
    (on.sr 1).toNat < scrbytes on.res.hdr ∧ on.me.q11.length + b2n on.me.mx.isSome < 16 ∧ on.me.injArm = false := by decide +kernel
/-- Address 2^21 + 8 on path 1; length 0, and one that ends with the extent; an unmapped address. -/
theorem witness_TranslationAndHandleFormsComplete_translation :
    let s := (baseS [(1, 2 ^ 60 + 2 ^ 21 + 8), (2, 2 ^ 21 - 8)]).modCtx 0 fun x => { x with exts := [(16383, mega 1)] }
    let q := s.modCore 0 fun c => { c with quietPt := true }
    s.canIssue bare ∧ (s.ctx s.cx).findExt ((s.sr 1).toNat % 2 ^ 60) = some (16383, mega 1) ∧ xRvk (mega 1) = false ∧
    s.lapsed s.cx (mega 1) = false ∧ pathAllowed ((s.sr 1).toNat / 2 ^ 60) (xTier (mega 1)) = true ∧
    (s.sr 1).toNat % 2 ^ 60 + (s.sr 2).toNat ≤ xTop (mega 1) ∧ (16383 : Nat) < 16384 ∧
    (pruneVersions s.me.r.a.pos s.me.r.v.pos s.me.r.h[(0 : Fin 16)]).length < 4 ∧
    (s.ctx s.cx).findExt ((s.sr 3).toNat % 2 ^ 60) = none ∧ s.res.card < 4096 ∧ s.res.block < 2 ^ 24 ∧ s.me.quietPt = false ∧
    (s.ctx s.cx).stopped = false ∧ q.canIssue bare ∧ (q.ctx q.cx).findExt ((q.sr 3).toNat % 2 ^ 60) = none ∧
      q.me.quietPt = true ∧ s.noError s.cx := by decide +kernel
theorem witness_TranslationAndHandleFormsComplete_handles :
    let s := (withHT (memH 1) scrH 0 0 base)
    s.canIssue bare ∧ s.strm = .c ∧ (pruneVersions s.me.r.a.pos s.me.r.v.pos s.me.r.h[(0 : Fin 16)]).length < 4 ∧
    hloc (scrbytes s.res.hdr) s.res.llc (s.sr 1).toNat (s.sr 1).toNat = .ok scrH ∧
    hsub (s.newH 1) (s.newT 0) (s.sr 1).toNat (s.sr 1).toNat = .ok scrH ∧
    (pruneVersions s.me.r.a.pos s.me.r.v.pos s.me.r.t[(0 : Fin 16)]).length < 4 := by decide +kernel
theorem witness_LoadsComplete :
    let s := withHT (memH 1) scrH 0 0 baseA
    let f := s.granSetFull (.scr 0) [0] true
    let g := hTgt 0 scrH 0
    s.canIssue bare ∧ (s.takes bare).readH 1 = some scrH ∧ Ty.isX .i64 = true ∧
    (f.takes bare).readH 1 = some scrH ∧ (f.takes bare).scalarCheck scrH (scalarAddr scrH (f.sr 1) 0) 8 true false true = none ∧
    ((f.takes bare).granBits g).1 = true ∧ ((f.takes bare).readTgt 0 g false .full 8).pois = false ∧
    ((f.takes bare).readTgt 0 g false .full 8).unc = false ∧
    (s.takes bare).scalarCheck scrH (scalarAddr scrH (s.sr 1) 0) 8 true false false = none ∧
    (∀ d ∈ [Rd.plain, .late], ((s.takes bare).readTgt 0 g false d 8).pois = false ∧
      ((s.takes bare).readTgt 0 g false d 8).unc = false) := by decide +kernel
/-- Local scratch whose first granule is poisoned. -/
def basePois : State := (withHT (memH 1) scrH 0 0 baseA).granSetPois (.scr 0) [0]
theorem witness_LoadsComplete_cancel :
    let s := basePois
    let u := s.takes bare
    let g := hTgt s.cur scrH (scalarAddr scrH (s.sr 1) 0)
    s.canIssue bare ∧ u.readH 1 = some scrH ∧ u.scalarCheck scrH (scalarAddr scrH (s.sr 1) 0) 8 true false false = none ∧
    g = .loc s.cur 0 ∧ (u.readTgt s.cur g false .plain 8).pois = true ∧ (s.ctx s.cx).halted = false ∧ s.me.early = false ∧
    s.me.trigs < 2 := by decide +kernel
theorem witness_AccessesReachNewestBytes :
    let s := (withHT (memH 1) scrH 0 0 { baseA with hist := [(2 ^ 30 + 7, [(6, 128, 1)])] }).modSt fun x => { x with hz1 := 6 }
    let a := scalarAddr (memH 1) (s.sr 1) 4
    s.canIssue bare ∧ (s.takes bare).readH 0 = some (memH 1) ∧ Ty.isX .i32 = true ∧ hTgt s.cur (memH 1) a = .mem 1 (2 ^ 30 + 4) ∧
    (2 ^ 30 + 4) % 4 = 0 ∧ (s.takes bare).scalarCheck (memH 1) a 4 true false false = none ∧ s.me.pend = [] ∧
    s.me.comm = [] ∧ s.poisoned (2 ^ 30 + 4) 4 = false ∧
    (∀ k < 4, ∀ v ∈ (mgetD s.hist (2 ^ 30 + 4 + k) []).head?, v.1 ≤ max (s.takes bare).st.hz (s.takes bare).st.hz1) ∧
      (s.takes bare).scalarCheck (memH 1) a 4 false true false = none ∧
    (pendGrans s.me.pend).length < 4096 := by decide +kernel
theorem witness_StoresComplete :
    let s := withHT (memH 1) scrH 0 0 base
    s.canIssue bare ∧ (s.takes bare).readH 1 = some scrH ∧ Ty.isX .i64 = true ∧
    (s.takes bare).scalarCheck scrH (scalarAddr scrH (s.sr 1) 0xFFFF8) 8 false true true = none ∧
    ((s.takes bare).granBits (hTgt 0 scrH (scalarAddr scrH (s.sr 1) 0))).1 = false := by decide +kernel
theorem witness_GranuleFormsComplete :
    let s := withHT (memH 1) scrH 0 0 base
    let a := scalarAddr scrH (s.sr 1) 0
    s.canIssue bare ∧ (s.takes bare).readH 1 = some scrH ∧ (s.takes bare).scalarCheck scrH a 1 true false true = none ∧
    (s.takes bare).scalarCheck scrH a 1 false true true = none ∧ hTgt s.cur scrH a = .loc s.cur 0 ∧
    risingFrom 0 s.me.scr = true := by decide +kernel
/-- An atomic of C on memory, relaxed, and one that acquires and releases at the device. -/
theorem witness_AtomicsComplete :
    let s := withHT (memH 1) scrH 0 0 base
    let u := s.takes bare
    let a := scalarAddr (memH 1) (s.sr 1) 8
    let g := hTgt 0 (memH 1) a
    s.canIssue bare ∧ u.readH 0 = some (memH 1) ∧ u.scalarCheck (memH 1) a 8 true true false = none ∧
    (u.readTgt 0 g false .newest 8).pois = false ∧ (u.readTgt 0 g false .newest 8).unc = false ∧
    Ord.rels .acqrel = true ∧ s.st.await = [] ∧ (u.atomicCommit g .rlx).atomicHeld g .rlx = false ∧ (u.atomicCommit g .acqrel).atomicHeld g .acqrel = false ∧
    u.atomicCheck (memH 1) a false true = none ∧ u.atomicCheck (memH 1) a true false = none := by decide +kernel
/-- Line 0, the image's only line, is flagged as a branch target. -/
def baseL : State := { base with mem := probeLine .all 1 0 }
/-- Its loop counter 0 holds n under limit m, its return stack line 0. -/
def baseLoop (n m : BitVec 32) : State := baseL.modSt fun x => { x with lc := x.lc.set 0 n, llim := x.llim.set 0 m, rstk := [0] }
theorem witness_ControlFormsCompleteInC :
    let s := baseLoop 0 2
    let p := s.st.pos
    s.strm = .c ∧ s.steerFull = false ∧ s.guardB bare.g = true ∧ s.targetFault s.res 0 = none ∧
    (p.line : Int) + (0 : BitVec 16).toInt = ((0 : Nat) : Int) ∧ ((s.sr 0).toNat : Int) = ((0 : Nat) : Int) ∧ s.st.rstk.length < 16 ∧
    s.st.rstk = 0 :: [] ∧ s.st.lc[(0 : Fin 8)] + 1 < s.st.llim[(0 : Fin 8)] ∧ (p.line : Int) + (0 : BitVec 13).toInt = ((0 : Nat) : Int) ∧
    ¬ (baseLoop 1 2).st.lc[(0 : Fin 8)] + 1 < (baseLoop 1 2).st.llim[(0 : Fin 8)] := by decide +kernel
theorem witness_FollowersAndTargets :
    let e : Steer := ⟨.br bare.g 0, true, 0, true, 0⟩
    let a := { baseCore (fun c => { c with r := { c.r with a := { c.r.a with steer := [e] } } }) with strm := .a }
    a.strm = .a ∧ a.st.steer = e :: [] ∧ (baseIn .v).strm = .v ∧ (baseIn .v).st.steer = [] ∧
    base.strm = .c ∧ base.steerFull = false ∧ base.guardB bare.g = true ∧ base.res.card < 4096 ∧ base.res.block < 2 ^ 24 ∧
    (base.ctx base.cx).stopped = false ∧ base.noError base.cx ∧ (base.st.pos.line : Int) + (0 : BitVec 16).toInt = (0 : Nat) ∧
    base.targetFault base.res 0 = some 0x25 ∧ (base.st.pos.line : Int) + (1 : BitVec 16).toInt = (1 : Nat) ∧
    base.targetFault base.res 1 = some 0x26 := by decide +kernel
theorem witness_FollowersAndTargets_guard :
    let e : Steer := ⟨.br bare.g 0, false, 0, false, 0⟩
    let v := { baseCore (fun c => { c with r := { c.r with v := { c.r.v with steer := [e] } } }) with strm := .v }
    v.strm = .v ∧ v.st.steer = e :: [] ∧ e.guard = false := by decide +kernel
/-- Two pending bytes of memory, and two of a publication still to be performed. -/
def basePend : State := baseCore fun c => { c with pend := [(2 ^ 30, 1), (2 ^ 30 + 17, 2)], comm := [([(2 ^ 30 + 1, 3), (2 ^ 30 + 17, 4)], [])] }
theorem witness_PhaseAndKendCommit :
    let s := basePend
    let m := s.modCore 0 fun c => { c with mark := .drain }
    s.strm = .c ∧ s.st.acted = false ∧ s.me.aligned = true ∧ s.guardB bare.g = true ∧ s.st.await = [] ∧
    s.me.accstLeft = false ∧ s.me.rvks = [] ∧ s.me.mark = .none ∧ m.me.mark = .drain ∧ s.mayPublish ∧
      (s.me.log.filter fun e => !e.done).length ≤ 32 := by decide +kernel
/-- The guards p0 and its inverse; streams that have not all arrived; a sticky flag whose policy bit is clear. -/
theorem witness_AligningFormsComplete :
    let s := base.orFlags 0xFF
    let u := base.modSt fun x => { x with pos := ⟨0, 2, 0⟩ }
    base.strm = .c ∧ base.st.acted = false ∧ base.me.aligned = true ∧ base.guardB bare.g = true ∧
      base.enginesBusy base.cur = false ∧ s.st.await = [] ∧
    s.strm = .c ∧ s.st.acted = false ∧ s.me.aligned = true ∧ s.guardB bare.g = true ∧ s.me.trapinfo.getLsbD 8 = false ∧
    (∀ n < 8, (bit s.me.allFlags n && bit (s.me.res.hw 3) (56 + n)) = false) ∧
    (baseIn .a).strm ≠ .c ∧ u.st.acted = false ∧ u.me.aligned = false ∧ base.guardB never.g = false := by decide +kernel
/-- A trap is pending; flag 3 is set and named by the policy of the header. -/
def baseTrap : State := baseCore fun c => { c with trapinfo := 0x105 }
def baseFlag : State := (baseCore fun c =>
  { c with blk := some { probeBlock with hdr := setNth probeHeader 3 (w64 ((probeHeader.getD 3 0).toNat + 2 ^ 59)) } }).orFlags 0x0F
theorem witness_AligningFormsComplete_fails :
    (∀ s ∈ [baseTrap, baseFlag], s.strm = .c ∧ s.st.acted = false ∧ s.me.aligned = true ∧ s.guardB bare.g = true ∧ s.st.await = [] ∧
      s.me.blk.isSome = true ∧ s.me.mark ≠ .dying ∧ s.res.block < 2 ^ 24 ∧ risingFrom 0 (s.ctx s.cx).cards = true ∧ s.links = []) ∧
    baseTrap.me.trapinfo.getLsbD 8 = true ∧ baseFlag.me.trapinfo.getLsbD 8 = false ∧
    (∀ m, m < 4 → (bit baseFlag.me.allFlags m && bit (baseFlag.me.res.hw 3) (56 + m)) = decide (m = 3)) := by decide +kernel
theorem witness_FenceCompletes :
    let s := basePend
    s.strm = .c ∧ s.st.acted = false ∧ s.steerFull = false ∧ s.guardB bare.g = true ∧ s.st.await = [] ∧ s.mayPublish ∧
    Ord.acqs .acqrel = true ∧ Ord.rels .acqrel = true ∧ Scp.sys ≠ .core ∧ Ord.rels .acq = false := by decide +kernel
theorem witness_FenceCompletes_followers :
    (∀ m ∈ [Stm.a, .v], ({ basePend with strm := m } : State).st.acted = false ∧ ({ basePend with strm := m } : State).st.await = [] ∧
      ({ basePend with strm := m } : State).st.steer = []) ∧
    ∀ b ∈ [true, false],
      let e : Steer := ⟨.fence bare.g .acqrel .dev, b, 0, true, 0⟩
      let s : State := { basePend with strm := .a }.modSt fun x => { x with steer := [e] }
      s.strm = .a ∧ s.st.acted = false ∧ s.st.await = [] ∧ s.st.steer = e :: [] ∧ s.mayPublish ∧ e.guard = b := by decide +kernel
/-- A gang of one passes at once; the first of two waits. -/
theorem witness_BarrierAndSemaphoreFormsComplete_barrier :
    let s := baseCtx fun x => { x with gangs := [(0, { GangSt.init with size := 2 })] }
    base.canIssue bare ∧ base.me.barWait = none ∧ (base.gangOf 0).size ≤ (base.gangOf 0).cnt[(7 : Fin 8)] + 1 + (base.gangOf 0).retired ∧
    s.canIssue bare ∧ s.me.barWait = none ∧ (s.gangOf 0).cnt[(7 : Fin 8)] + 1 + (s.gangOf 0).retired < (s.gangOf 0).size := by decide +kernel
theorem witness_BarrierAndSemaphoreFormsComplete_semaphores :
    let s := (baseS [(1, 1)]).modCore 0 fun c => { c with sem := c.sem.set 15 1 }
    s.canIssue bare ∧ s.me.semq[(15 : Fin 16)] = [] ∧ 0 < (s.sr 1).toNat % 65536 ∧ (s.sr 1).toNat % 65536 ≤ s.me.sem[(15 : Fin 16)] ∧
    s.me.sem[(14 : Fin 16)] < (s.sr 1).toNat % 65536 := by decide +kernel
theorem witness_BarrierAndSemaphoreFormsComplete_line :
    let s := (baseS [(1, 1)]).modCore 0 fun c => { c with cycle := 1, sem := c.sem.set 15 1, semq := c.semq.set 15 [(0, .matrix)] }
    s.canIssue bare ∧ s.me.semq[(15 : Fin 16)] = (0, Waiter.matrix) :: [] ∧ 0 < s.me.cycle ∧ 0 < (s.sr 1).toNat % 65536 ∧
    (s.sr 2).toNat % 65536 = 0 := by decide +kernel
/-- Tile 32,767 of grid 3, card 4,095, words 2 and 11; card 4,096. -/
theorem witness_TagAndJobFormsAsk :
    let s := baseS [(1, 32767), (2, 4095), (3, 4096)]
    s.canIssue bare ∧ (s.me.q24.filter JobReq.counts).length < 16 ∧ s.me.injArm = false ∧ s.mayPublish ∧ s.st.await = [] ∧ s.noError s.cx ∧
      s.tileBad 3 (s.sr 1).toNat = false ∧ s.me.pubs.length < 64 ∧
    (s.sr 2).toNat < 4096 ∧ 2 ≤ (2 : Fin 32).val ∧ (11 : Fin 32).val ≤ 11 ∧ 4096 ≤ (s.sr 3).toNat ∧ s.res.card < 4096 ∧
    s.res.block < 2 ^ 24 ∧ (s.ctx s.cx).stopped = false := by decide +kernel
/-- A shape of a type: rows, columns, stride in bytes. -/
def shape (t : Ty) (rows cols stride : Nat) : Word := w64 (Ty.code t * 2 ^ 59 + (rows - 1) * 2 ^ 40 + (cols - 1) * 2 ^ 24 + stride)
/-- From scratch to memory, 2 rows of 32: COPY without clipping to the whole, GATHER and SCATTER by a list at 2^21 − 8. -/
theorem witness_CopyFormsIssue :
    let t := shape .i8 2 32 32
    let s := (baseS [(3, 0x1FFFF8)]) |> withHT (memH 1) scrH t t
    let u := s.takes bare
    s.canIssue bare ∧ s.me.cqUsed 3 < 16 ∧ s.me.injArm = false ∧ u.copySide (u.newH 0) (u.newT 0) 3 true false false = none ∧
    (tType (u.newT 0)).isBx = false ∧ u.copySide (u.newH 1) (u.newT 1) 3 false false false = none ∧
    tType (u.newT 1) = tType (u.newT 0) ∧ ((tType (u.newT 0)).isBx && coord (s.sr 3) % 32 != 0) = false ∧
    0 ≤ coord (s.sr 1) ∧ coord (s.sr 1) + tRows (u.newT 0) ≤ tRows (u.newT 1) ∧
    0 ≤ coord (s.sr 2) ∧ coord (s.sr 2) + tCols (u.newT 0) ≤ tCols (u.newT 1) ∧
    u.listFault (s.sr 3) (tRows (u.newT 0)) = none ∧ u.listFault (s.sr 3) (tRows (u.newT 1)) = none := by decide +kernel
/-- A configured ring of two slots, one of them reserved, whose panel numbers are about to wrap. -/
def ring2 : Ring := { Ring.init with cfg := true, slots := 2, head := 0xFFFFFFFF, tail := 0xFFFFFFFF, rtail := 0, thead := 0xFFFFFFFF }
theorem witness_TringCancelAndEventPop :
    let t := shape .i8 64 64 64
    let s := (baseCore fun c => { c with ring := c.ring.set 7 ring2, q25 := [⟨5, 0, some (12, 1)⟩] }) |> withHT (memH 1) scrH t t
    let u := s.takes bare
    let f : CopyFlags := ⟨.zero, false, false, .plain, false, false⟩
    s.canIssue bare ∧ u.copySide (u.newH 1) (u.newT 1) 0 false f.bps (f.sfe != .plain) = none ∧ s.me.ring[(7 : Fin 8)].cfg = true ∧
    tType (u.newT 1) = s.me.ring[(7 : Fin 8)].ty ∧ ((tType (u.newT 1)).isBx && coord (s.sr 1) % 32 != 0) = false ∧
    panelDiff s.me.ring[(7 : Fin 8)].rtail s.me.ring[(7 : Fin 8)].head < s.me.ring[(7 : Fin 8)].slots ∧ s.me.cqUsed 0 < 16 ∧
      s.me.injArm = false ∧
    s.me.q25 = ⟨5, 0, some (12, 1)⟩ :: [] ∧ (1 : SIx) ≠ 2 := by decide +kernel
/-- MMUL with KS 0, 1,024 K-steps, and with KS 2. -/
theorem witness_MatrixAndRingFormsComplete_matrix :
    let big := { ring2 with slots := 1024 }
    let s := (baseCore fun c => { c with ring := ((c.ring.set 0 big).set 1 big).set 2 ring2 })
      |> withHT (memH 1) scrH (shape .f32 64 64 256) (shape .f32 64 64 256) |>.setS 1 0x42000000
    let u := s.takes bare
    s.canIssue bare ∧ s.me.injArm = false ∧ s.me.q10.length < 16 ∧ formatError ((s.sr 1).setWidth 32) = none ∧
    s.me.q11.length + b2n s.me.mx.isSome < 16 ∧ s.me.ring[(0 : Fin 8)].cfg = true ∧ s.me.ring[(1 : Fin 8)].cfg = true ∧
    1024 ≤ s.me.ring[(0 : Fin 8)].slots ∧ 1024 ≤ s.me.ring[(1 : Fin 8)].slots ∧ 2 ≤ s.me.ring[(2 : Fin 8)].slots ∧
    u.leaseFault (handleExts (u.newH 0)) = none ∧ u.leaseFault (handleExts (u.newH 1)) = none ∧
    (tType (u.newT 0)).isX = true ∧ hKind (u.newH 0) = 0 ∧ tensorCheck (u.newH 0) (u.newT 0) 6 false false = none ∧
    tensorCheck (u.newH 0) (u.newT 0) 6 true false = none ∧ hKind (u.newH 1) ≠ 0 ∧
    u.tensorScratch (u.newH 1) (u.newT 0) false = none ∧ tensorCheck (u.newH 1) (u.newT 0) 6 true false = none := by decide +kernel
theorem witness_MatrixAndRingFormsComplete_rings :
    let s := (baseS [(1, 0x1000), (2, 0x0100)]).modCore 0 fun c => { c with ring := c.ring.set 7 { ring2 with rtail := 0xFFFFFFFF } }
    s.canIssue bare ∧ s.ringFault (s.sr 1) (s.sr 2) = none ∧ s.me.ringBusy 0 = false ∧ s.me.ring[(0 : Fin 8)].cfg = false ∧
    s.me.ringBusy 7 = false ∧ s.me.ring[(7 : Fin 8)].cfg = true ∧ s.me.ring[(7 : Fin 8)].head = s.me.ring[(7 : Fin 8)].tail := by decide +kernel
/-- What an engine reads through: nothing pending, nothing known. -/
def view0 : EView := ⟨[], [], [], [], [], 0, 128, Vector.replicate 8 false⟩
/-- An MMUL of rings 0 and 1, m × n × ks, into set 0. -/
def mx0 (m n ks : Nat) : MxCmd :=
  ⟨.mmul, 0, 0, 1, m, n, ks, ⟨false, 0, true, 3⟩, 0, 0, 0, 0, Place.none, 0, 0, 0, ⟨0, 1, 0⟩, 0, view0⟩
/-- Core 0 with a matrix command running past its semaphore, at step n; rings 0 and 1 hold two panels of I8. -/
def baseMx (x : MxCmd) (n : Nat) : State :=
  let g : Ring := { ring2 with head := 0xFFFFFFFF, tail := 1, rtail := 1, base := 0x1000 }
  baseCore fun c => { c with ring := (c.ring.set 0 g).set 1 g, mx := some ⟨x, 0x02200000, true, 0xFFFFFFFF, 0xFFFFFFFF, n, 0⟩ }
theorem witness_MatrixEngineSteps :
    let x := mx0 64 1 2
    let q := baseCore fun c => { c with q11 := [x], q10 := [(0x00200000, 0)] }
    let s := baseMx x 1
    let g := (s.core 0).ring[(0 : Fin 8)]
    q.engineStarts 0 = true ∧ (q.core 0).mx = none ∧ (q.core 0).q11 = x :: [] ∧ x.op ≠ .flip ∧
    (q.core 0).q10 = (0x00200000, 0) :: [] ∧ (q.core 0).fmtFault x 0x00200000 = none ∧
    s.engineOn 0 = true ∧ 1 < x.steps ∧ (s.core 0).heldByV x = false ∧ risingFrom 0 (s.core 0).acc = true ∧ fwCk 0x02200000 = false ∧
    x.m ≤ 64 ∧ x.n ≤ 64 ∧ 1 < panelDiff g.tail 0xFFFFFFFF ∧ (∀ i, i < x.m → (s.panelRow 0 g ((0xFFFFFFFF + 1) % 2 ^ 32) i).2 = false) ∧
    ({ x with op := .mzero } : MxCmd).steps = 1 ∧ ({ x with op := .flip, bit := 55 } : MxCmd).bit < 56 := by decide +kernel
theorem witness_MatrixEngineEnds :
    let s := baseMx (mx0 64 64 2) 2
    let w := baseCore fun c => { c with aww := [(4096 * 3, 1)] }
    s.engineOn 0 = true ∧ (mx0 64 64 2).steps ≤ 2 ∧ (mx0 64 64 2).ra ≠ (mx0 64 64 2).rb ∧ (s.core 0).mark = .none ∧ s.haltedCore 0 = false ∧
    (w.core 0).aww = [(4096 * 3, 1)] ∧ (w.core 0).namesSet (4096 * 3 / 4096) = false ∧ risingFrom 0 (w.core 0).acc = true := by decide +kernel
/-- A checked MMUL at its second K-step; ACCLD at a row inside its tensor; ACCST at a row, and past its last. -/
def acx (op : MxOp) : MxCmd := { mx0 64 64 1 with op := op, place := ⟨.local, 0, 0, 0x1000, 2 ^ 20⟩, shape := shape .i8 10 20 64 }
theorem witness_MatrixAccumulatorMoves :
    let x := mx0 63 1 2
    let s := (baseMx x 1).modCore 0 fun c => { c with mx := c.mx.map fun y => { y with fw := 0x02300000 } }
    let g := (s.core 0).ring[(0 : Fin 8)]
    let row (p : Nat) := s.panelRow 0 g ((0xFFFFFFFF + 1) % 2 ^ 32) p
    s.engineOn 0 = true ∧ (s.core 0).mx = some ⟨x, 0x02300000, true, 0xFFFFFFFF, 0xFFFFFFFF, 1, 0⟩ ∧ fwCk 0x02300000 = true ∧ 1 < x.ks ∧
    x.m ≤ 63 ∧ x.n ≤ 63 ∧ (s.core 0).heldByV x = false ∧ 1 < panelDiff g.tail 0xFFFFFFFF ∧ risingFrom 0 (s.core 0).acc = true ∧
    (∀ i, i < x.m → (row i).2 = false) ∧
    (let l := baseMx (acx .accld) 5
     let js := (acx .accld).cols 5
     l.engineOn 0 = true ∧ (l.core 0).mx = some ⟨acx .accld, 0x02200000, true, 0xFFFFFFFF, 0xFFFFFFFF, 5, 0⟩ ∧
       (l.core 0).heldByV (acx .accld) = false ∧ js.length = 20 ∧
       (l.placeRead 0 view0 (acx .accld).place false ((acx .accld).off 5 0) 20).2.1 = false ∧ (acx .accld).cols 63 = []) ∧
    (let t := baseMx (acx .accst) 63
     let e := baseMx (acx .accst) 64
     t.engineOn 0 = true ∧ (t.core 0).heldByV (acx .accst) = false ∧ (acx .accst).place.kind ≠ .window ∧ e.engineOn 0 = true ∧
       e.haltedCore 0 = false ∧ (e.core 0).mark = .none ∧ bits (wd (e.core 0).res.hdr 7) 59 56 = 0 ∧
       tCols (acx .accst).shape * 1 ≤ tStride (acx .accst).shape) := by decide +kernel
/-- Stream V with C past it; q8 holds n entries, q4 one. -/
def baseV (n : Nat) : State :=
  { baseA with strm := .v }.modCore 0 fun c =>
    { c with r := { c.r with qv := (c.r.qv.set 4 (List.replicate n ⟨0, 0⟩)).set 0 [⟨7, BitVec.allOnes 64⟩] } }
/-- The head ⟨p1⟩ where p1 holds element e only. -/
def lane1 : Head := { bare with g := ⟨false, 1⟩ }
def baseLane (e n : Nat) : State := (baseV n).modSt fun x => x.setP 1 (1#64 <<< e)
/-- Only the last element is active; its sources are v1, v2 and the head of q4. -/
theorem witness_VectorLaneFormsComplete :
    let s := baseLane 15 15
    s.canIssueV lane1 ∧ Ty.isX .f32 = true ∧ (s.me.r.qv[4]).length < 16 ∧ (s.guardM lane1.g).getLsbD 15 = true ∧ (15 : Nat) < Ty.lanes .f32 ∧
    ((s.takes lane1).sources [.v 1, .v 2, .q 0]).isSome = true ∧ ((s.takes lane1).sources []).isSome = true := by decide +kernel
theorem witness_InactiveFormsLeaveAlone :
    let s := baseLane 63 0
    base.canPass never ∧ ((1 : PIx) = 2 → (1 : PIx) = 0) ∧ s.canIssueV lane1 ∧
    ∀ e, e < Ty.lanes .f32 → (s.guardM lane1.g).getLsbD e = false := by decide +kernel
theorem witness_InactiveFormsLeaveAlone_guard :
    Instr.plainHead (.add never 5 6 7 true) = some never ∧ base.canPass never ∧ Instr.plainHead (.scupdAdam never 5 (some 6)) = some never ∧
    Instr.laneHead (.vcvt lane1 (.v 1) (.v 2) .f32 .i8 .rne false 0) = some (lane1, 16) ∧ Instr.laneHead (.vpack lane1 (.v 0) (.v 1) (.v 2) .i16 .i8 false) = some (lane1, 1) ∧
    (∀ e, e < 16 → ((baseLane 63 0).guardM lane1.g).getLsbD e = false) := by decide +kernel
theorem witness_InactiveFormsLeaveAlone_lanes :
    let s := baseLane 63 0
    let z := (baseV 0).modSt fun x => x.setP 1 0
    s.canIssueV lane1 ∧ (s.guardM lane1.g).getLsbD (62 : BitVec 13).toNat = false ∧ z.canIssueV lane1 ∧ z.guardM lane1.g = 0 ∧
    (∀ e, e < 512 / Ew.bits .w16 → (s.guardM lane1.g).getLsbD e = false) ∧
    ∀ e, e < Ty.lanes .f32 → (s.guardM lane1.g).getLsbD e = false := by decide +kernel
/-- I32 to I8 in part 3, I8 to I32 in part 3, I16 packed to I8 and back, and a reduction of I32. -/
theorem witness_VectorConversionsAndCompareComplete_conversions :
    let s := baseLane 15 15
    s.canIssueV lane1 ∧ (s.me.r.qv[4]).length < 16 ∧ (Instr.vcvt lane1 .q8 (.q 0) .i32 .i8 .rne true 3).fieldError .v = none ∧
    (Instr.vcvt lane1 .q8 (.q 0) .i8 .i32 .rne true 3).fieldError .v = none ∧
    (∃ e, e < 16 ∧ (s.guardM lane1.g).getLsbD e = true) ∧ ((s.takes lane1).sources [.q 0]).isSome = true ∧
    (baseLane 0 0).canIssueV lane1 ∧ ((baseLane 0 0).guardM lane1.g).getLsbD 0 = true ∧
    (Instr.vpack lane1 (.v 0) (.v 1) (.v 2) .i16 .i8 false).fieldError .v = none ∧
    (Instr.vunpk lane1 (.v 0) (.v 1) .i8 .i16 1).fieldError .v = none ∧ (((baseLane 0 0).takes lane1).sources [.v 1, .v 2]).isSome = true ∧
    Ty.isInt .i32 = true ∧ (∃ e, e < Ty.lanes .i32 ∧ (s.guardM lane1.g).getLsbD e = true) := by decide +kernel
theorem witness_VectorConversionsAndCompareComplete_compare :
    let s := baseLane 63 0
    s.canIssueV lane1 ∧ Ty.isX .i8 = true ∧ ((1 : PIx) = 2 → (1 : PIx) = 0) ∧ (s.guardM lane1.g).getLsbD 63 = true ∧
    (63 : Nat) < Ty.lanes .i8 ∧ ((s.takes lane1).sources [.v 1, .q 0]).isSome = true := by decide +kernel
theorem witness_VectorScalarAndAccumulatorFormsComplete_scalars :
    let s := baseLane 63 0
    s.canIssueV lane1 ∧ Ty.isX .i8 = true ∧ (63 : BitVec 13).toNat < Ty.lanes .i8 ∧ (64 : BitVec 7).toNat ≤ 64 ∧
    (s.guardM lane1.g).getLsbD 63 = true ∧ ((s.takes lane1).sources [.q 0]).isSome = true ∧ s.guardM lane1.g ≠ 0 := by decide +kernel
/-- Segment 3 of a row as F32 and I32, its last element active. -/
theorem witness_VectorScalarAndAccumulatorFormsComplete_accumulators :
    let s := baseLane 15 15
    s.canIssueV lane1 ∧ s.st.sample = none ∧ s.me.q11 = [] ∧ s.me.mx = none ∧ risingFrom 0 s.me.acc = true ∧
    (Instr.vaccrd lane1 .q8 3 63 3 .i56 .f32 .rne false).fieldError .v = none ∧ (s.me.r.qv[4]).length < 16 ∧
    (∃ e, e < Ty.lanes .f32 ∧ (s.guardM lane1.g).getLsbD e = true) ∧
    (Instr.vaccwr lane1 (.q 0) 3 63 3 .i32 .i56 .rne false).fieldError .v = none ∧
      ((s.takes lane1).sources [.q 0]).isSome = true := by decide +kernel
/-- Row 0 of F32 in scratch from column 8, clipped at its end; row 1 whole, its granules full for a waiting code. -/
theorem witness_LdqStqAndQsplatComplete_ldq : ∀ c ∈ [((0 : Word), (8 : Word), Clip.zero, Fe.plain), (1, 0, .none, .one), (1, 0, .none, .two)],
    let t := shape .f32 2 16 64
    let s := (((withHT (memH 1) scrH 0 t baseA).setS 3 c.1).setS 2 c.2.1).granSetFull (.scr 0) [4, 5, 6, 7] true
    let u := s.takes bare
    let es := vqElems t (coord (s.sr 3)) (coord (s.sr 2)) c.2.2.1
    let sp := vqSpan t es
    let g := hTgt 0 scrH (hBase scrH + sp.1)
    s.canIssue bare ∧ u.readH 1 = some scrH ∧ u.readT 1 = some t ∧
    vqFault scrH t (coord (s.sr 3)) (coord (s.sr 2)) c.2.2.1 c.2.2.2 false false = none ∧ sp.2 ≠ 0 ∧ u.tgtFault g false sp.2 = none ∧
    (s.vq 0).length < 16 ∧ (c.2.2.2 ≠ .plain → ∀ w ∈ u.spanGrans scrH false sp.1 sp.2, (u.gran w.1 w.2).full = true) ∧
    (u.readTgt 0 g false (Fe.rd c.2.2.2 false) sp.2).pois = false ∧ (u.readTgt 0 g false (Fe.rd c.2.2.2 false) sp.2).unc = false := by
  decide +kernel
/-- An entry of q8 with two runs of bytes written. -/
theorem witness_LdqStqAndQsplatComplete_stq :
    let t := shape .f32 2 16 64
    let e : QEntry := ⟨7, 0xF0F⟩
    let s := (withHT (memH 1) scrH 0 t baseA).modCore 0 fun c => { c with r := { c.r with qv := c.r.qv.set 4 [e] } }
    let u := s.takes bare
    let rs := runsOf (stqBytes t (coord (s.sr 3)) (coord (s.sr 3)) e)
    s.canIssue bare ∧ u.readH 1 = some scrH ∧ u.readT 1 = some t ∧
    vqFault scrH t (coord (s.sr 3)) (coord (s.sr 3)) .none .one false true = none ∧ s.vq 4 = e :: [] ∧ rs.length = 2 ∧
    (∀ p ∈ rs, u.tgtFault (hTgt 0 scrH (hBase scrH + p.1)) false p.2.length = none) ∧
    (∀ p ∈ rs, ∀ w ∈ u.spanGrans scrH false p.1 p.2.length, (u.gran w.1 w.2).full = false) ∧
    (∀ p ∈ rs, u.pushFull 0 (hTgt 0 scrH (hBase scrH + p.1)) p.2.length = false) ∧ (s.vq 3).length < 16 := by decide +kernel
/-- Table 0: 64 rows of 16 F32 elements in extent 3; group 0 of one rank; a near-memory region on channel 0. -/
def tab0 : List Word := [w64 (2 ^ 63 + 0x0A * 2 ^ 58 + 15 * 2 ^ 40 + 64 * 2 ^ 28 + 2 ^ 21), w64 (64 * 2 ^ 32 + 3 * 2 ^ 18), 0, 0]
def nmExt0 : Extent := mega 2 ^^^ BitVec.ofNat 128 (512 * 2 ^ 59) ||| BitVec.ofNat 128 (leaseBase / 2 ^ 21 * 2 ^ 59)
def basePkg : State :=
  { withHT (memH 1) scrH (shape .f32 4 16 64) 0 base with leases := [(0, ⟨0, 1, 0, false⟩)] }.modCtx 0 fun x =>
    { x with exts := [(3, mega 0), (4, nmExt0)], tables := [(0, tab0)], groups := [(0, ⟨1, 0, [0], 4, 1000, 0, 0, 0⟩)], regions := [(0, 4)] }
/-- Scalar 1 names a parameter block at the end of scratch with these words. -/
def withParam (ws : List Word) (s : State) : State :=
  let o := 0x200000 - 8 * ws.length
  (s.granWrite [] (.scr 0) o (ws.flatMap fun w => toBytes 8 w.toNat) false).setS 1 (w64 o)
def blockIs (s : State) (n : Nat) (p : List Word) : Prop :=
  let g := (s.takes bare).readTgt s.cur (.loc s.cur (s.sr 1).toNat) false .newest n
  (s.sr 1).toNat % 16 = 0 ∧ (s.sr 1).toNat + n ≤ scrbytes s.res.hdr ∧ g.pois = false ∧ p = wordsOf (n / 8) g.data
def poolBlock : List Word := [w64 (1 * 2 ^ 50 + 0x0A * 2 ^ 41), w64 (0x1000 * 2 ^ 32 + 0x2000), w64 (64 * 2 ^ 8), w64 (0x100 * 2 ^ 32)]
def scBlock (opt : Nat) : List Word :=
  [w64 (2 ^ 50 + 2 ^ 46 + 0x0A * 2 ^ 37), w64 (0x1000 * 2 ^ 32 + 0x2000), w64 (64 * 2 ^ 40 + (if opt = 0 then 0 else 80) * 2 ^ 24), 0,
   w64 (0x3F800000 * 2 ^ 32), 0, 0, 0]
def nmBlock : List Word :=
  [w64 (2 ^ 53 + 0x0A * 2 ^ 44 + 0x0A * 2 ^ 39 + 0x0A * 2 ^ 34 + 2 ^ 31), w64 (64 * 2 ^ 32 + 128), w64 (256 * 2 ^ 32),
   w64 (2 * 2 ^ 32), w64 (2 ^ 44 + 2 ^ 24 + 2 ^ 4), w64 (3 * 2 ^ 32), w64 (2 ^ 44), w64 (2 ^ 32), 0, w64 (2 ^ 32), 0, w64 (2 ^ 32), 0, 0, 0, 0]
def walkBlock : List Word :=
  [w64 (2 ^ 60 + 2 ^ 56 + 2 ^ 52 + 4), 0, w64 (0x10000 * 2 ^ 43 + 0x20000 * 2 ^ 14), w64 (16 * 2 ^ 16)]
def spBlock (form : Nat) : List Word :=
  (match form with
  | 0 => [w64 (2 ^ 54 + 2 ^ 50 + 2 ^ 46 + 2 ^ 42 + 4), 0, 0]
  | 1 => [w64 (2 ^ 54 + 2 ^ 50 + 2 ^ 46 + 2 ^ 42 + 4), 0, w64 (16 * 2 ^ 16 + 16)]
  | 2 => [w64 (2 ^ 54 + 2 ^ 50 + 0x0A * 2 ^ 45 + 4), 0, 0]
  | _ => [w64 (2 ^ 54 + 16), 0, 0]) ++ [0, 0, 0, 0, 0]
theorem witness_PackageFormsIssue_pool :
    let s := basePkg |> withParam poolBlock
    let u := s.takes bare
    s.canIssue bare ∧ s.me.injArm = false ∧ blockIs s 32 poolBlock ∧ u.poolFault poolBlock = none ∧
    s.me.q16.length + b2n s.me.prun.isSome < 32 ∧ bits (basePkg.sr 1).toNat 63 42 = 0 ∧
    tbValid ((s.ctx s.cx).tab (bits (basePkg.sr 1).toNat 41 32)) = true ∧
    u.shardFault ((s.ctx s.cx).tab (bits (basePkg.sr 1).toNat 41 32)) = none ∧
    u.leaseFault (tbExts ((s.ctx s.cx).tab (bits (basePkg.sr 1).toNat 41 32))) = none := by unfold blockIs; decide +kernel
theorem witness_PackageFormsIssue_update : ∀ opt ∈ [0, 1, 2],
    let s := basePkg |> withParam (scBlock opt)
    s.canIssue bare ∧ s.me.injArm = false ∧ blockIs s 64 (scBlock opt) ∧ (s.takes bare).scFault opt (scBlock opt) = none ∧
    s.me.q18.length + b2n s.me.srun.isSome < 16 := by unfold blockIs; decide +kernel
theorem witness_PackageFormsIssue_run :
    let s := basePkg |> withParam nmBlock
    let c := s.ctx s.cx
    s.canIssue bare ∧ s.me.injArm = false ∧ blockIs s 128 nmBlock ∧ nmFieldsOk nmBlock false = true ∧
    c.nmFault nmBlock ((upto 0 5).map (nmTrip nmBlock)) = none ∧ (s.takes bare).leaseFault (c.nmExts nmBlock) = none ∧
    s.me.q19.length < 8 := by unfold blockIs; decide +kernel
theorem witness_PackageFormsIssue_walk :
    let s := basePkg |> withParam walkBlock
    s.canIssue bare ∧ s.me.injArm = false ∧ blockIs s 32 walkBlock ∧ (s.takes bare).walkFault walkBlock = none ∧
    s.me.q20.length + b2n s.me.wrun.isSome < 16 ∧ s.mayPublish := by unfold blockIs; decide +kernel
theorem witness_PackageFormsIssue_exchange : ∀ form ∈ [0, 1, 2, 3],
    let s := basePkg |> withParam (spBlock form)
    s.canIssue bare ∧ s.me.injArm = false ∧ blockIs s 64 (spBlock form) ∧ (s.takes bare).spFault form (spBlock form) = none ∧
    s.me.q22.length < 16 := by unfold blockIs; decide +kernel
/-- Results in the three queues; a run still queued under sequence number 7, none under 8, the seventeenth newest under 9; a
registered group. -/
theorem witness_PackageResultsComplete :
    let n : NmCmd := ⟨nmBlock, none, 7, 0, [], view0⟩
    let s := (basePkg.setS 1 7).modCore 0 fun c => { c with
      q17 := [(5, 0)], q21 := [(5, 0)], q23 := [(5, 0)], q19 := [n], nmseq := List.replicate 15 (6, 0) ++ [(9, 0)] }
    let recent := ((s.me.q19.reverse.map fun x => x.seq) ++ s.me.nmseq.map fun e => e.1).take 16
    s.canIssue bare ∧ s.me.q17 = (5, 0) :: [] ∧ s.me.q21 = (5, 0) :: [] ∧ s.me.q23 = (5, 0) :: [] ∧ base.me.q17 = [] ∧
    (∃ x ∈ s.me.q19, x.seq = (s.sr 1).toNat % 2 ^ 32) ∧ 7 ∈ recent ∧ 8 ∉ recent ∧ 9 ∉ recent ∧
    (mget (s.ctx s.cx).groups ((s.sr 2).toNat % 64)).isSome = true ∧ s.me.injArm = false ∧ s.mayPublish := by decide +kernel
/-! Engine events: core 0 runs the probed block and its phase has committed early. -/

def early (s : State) : State := s.modCore 0 fun c => { c with early := true }
def place (a : Nat) : Place := ⟨.mem, 1, 3, a, 2 ^ 20⟩
/-- A FILL of 17 I8 elements of memory, the last alone in its granule, that waits on sem1 and signals sem2. -/
def fill17 : CopyCmd :=
  ⟨.fill, 3, ⟨.none, false, false, .plain, false, true⟩, ⟨true, 1, true, 2⟩, 0, 0, 9, Place.none, 0, place (2 ^ 30), shape .i8 1 17 17,
   7, 0, true, 0, ⟨0, 1, 0⟩, 0, false, false, view0⟩
def fillRun (waited done : Bool) (n : Nat) : CopyRun := ⟨fill17, waited, n, none, false, done, [], [], [2 ^ 26], [], [(2 ^ 30, 7)]⟩
def baseCopy (r : Option CopyRun) : State := (early base).modCore 0 fun c =>
  { c with cq := c.cq.set 3 [fill17], crun := c.crun.set 3 r, sem := c.sem.set 1 1 }
theorem witness_CopyEngineEvents :
    let a := baseCopy none
    let b := baseCopy (some (fillRun false false 0))
    let c := baseCopy (some (fillRun true false 16))
    let d := baseCopy (some (fillRun true true 17))
    a.engineStarts 0 = true ∧ (a.core 0).crun[(3 : Fin 4)] = none ∧ (a.core 0).cq[(3 : Fin 4)] = fill17 :: [] ∧ (a.core 0).early = true ∧
    b.engineOn 0 = true ∧ (b.core 0).crun[(3 : Fin 4)] = some (fillRun false false 0) ∧ (b.core 0).semq[(1 : Fin 16)] = [] ∧
    1 ≤ (b.core 0).sem[(1 : Fin 16)] ∧ b.waitRival 0 1 (.copy 3) b.schedule = false ∧ c.engineOn 0 = true ∧ (c.core 0).crun[(3 : Fin 4)] = some (fillRun true false 16) ∧
    tType fill17.dshape = .i8 ∧ 16 + 1 = fill17.units ∧ (fillRun true false 16).buf = [] ∧ fill17.dst.kind = .mem ∧
      d.engineOn 0 = true ∧ (d.core 0).crun[(3 : Fin 4)] = some (fillRun true true 17) ∧
    (d.core 0).mark ≠ .dying ∧ d.haltedCore 0 = false ∧ (d.core 0).qUsed 25 < 64 ∧
      d.rowsPinned ((fillRun true true 17).out.map fun b => b.1) = false ∧
    Memory.wf d.mem = true := by decide +kernel
/-- Copies of I8 elements on their last unit, an element alone in its granule: scratch to scratch or memory, element (1, 0) of two
rows, the list naming rows −1 and 1. -/
def near (a : Nat) : Place := ⟨.local, 0, 0, a, 2 ^ 20⟩
def copy2 (op : CpOp) (clip : Clip) (d : Place) (ss ds i : Word) : CopyCmd :=
  ⟨op, 3, ⟨clip, false, false, .plain, false, false⟩, ⟨false, 0, false, 0⟩, 1, 0xFFFFFFFF, 9, near 0x1000, ss, d, ds, i, 2,
   op == .fill && d.kind == .mem, 0, ⟨0, 1, 0⟩, 0x2000, false, false, view0⟩
def baseMove (x : CopyCmd) (n : Nat) (done : Bool) : State :=
  ((early base).granWrite [] (.scr 0) 0x2000 (toBytes 4 0xFFFFFFFF ++ toBytes 4 1) false).modCore 0 fun c =>
    { c with crun := c.crun.set 3 (some ⟨x, true, n, none, false, done, [], [], [], [], []⟩),
             ring := c.ring.set 1 { ring2 with tail := 0xFFFFFFFF, rtail := 1 } }
def small : Word := shape .i8 2 1 16
def big : Word := shape .i8 4 8 16
theorem witness_CopyEngineMoves : ∀ op ∈ [CpOp.fill, .copy, .tring, .gather, .scatter], ∀ d ∈ [near 0x3000, place (2 ^ 30)],
    let x := copy2 op .zero d (if op = .scatter then small else big) (if op = .scatter then big else small) 1
    let s := baseMove x 1 false
    s.engineOn 0 = true ∧ s.haltedCore 0 = false ∧ (s.core 0).crun[(3 : Fin 4)] = some ⟨x, true, 1, none, false, false, [], [], [], [], []⟩ ∧
    1 + 1 = x.units ∧ tType x.dshape = .i8 ∧ tType x.sshape = .i8 ∧ x.src.kind = .local ∧ (d.kind = .local ∨ d.kind = .mem) ∧
    0x3000 + 16 * 2 < scrbytes (s.core 0).res.hdr ∧ clipElem .zero x.dshape (s.listAt 0 x (1 / x.perRow)) (coord x.j + 0) =
      (if op = .scatter then some (1, 2) else none) ∧
    (op = .gather → clipElem .zero x.sshape (s.listAt 0 x (1 / x.perRow)) (coord x.i + 0) = some (1, 1)) ∧
    (op = .copy → clipElem .zero x.sshape (coord x.i + 1) (coord x.j + 0) = some (2, 2)) := by decide +kernel
/-- A SCATTER whose one row is −1, which is nowhere; a TRING whose panel is next, and one whose panel is not. -/
theorem witness_CopyEngineMoves_ends :
    let x := copy2 .scatter .zero (near 0x3000) (shape .i8 1 1 16) big 1
    let y := copy2 .tring .zero (near 0x3000) big small 1
    (let s := baseMove x 0 false
     s.engineOn 0 = true ∧ 0 + 1 = x.units ∧ clipElem .zero x.dshape (s.listAt 0 x (0 / x.perRow)) (coord x.j + 0) = none) ∧
    ∀ p ∈ [(0xFFFFFFFF : Nat), 0],
      let s := baseMove { y with panel := p } 2 true
      s.engineOn 0 = true ∧ s.haltedCore 0 = false ∧ (s.core 0).mark ≠ .dying ∧ y.flags.evt = false ∧ y.outb = false ∧ y.silent = false ∧
      ((s.core 0).ring[(1 : Fin 8)]).done = [] := by decide +kernel
/-- The TRING's panel is next and nothing past it is complete. -/
theorem witness_CopyEngineMoves_tail :
    let x := copy2 .tring .zero (near 0x3000) big small 1
    let s := baseMove { x with panel := 0xFFFFFFFF } 1 false
    let g := (s.core 0).ring[x.ring]
    s.engineOn 0 = true ∧ s.haltedCore 0 = false ∧ 1 + 1 = x.units ∧ x.op = .tring ∧ g.done = [] ∧ panelDiff 0xFFFFFFFF g.tail < 512 ∧
      (0xFFFFFFFF : Nat) = g.tail := by decide +kernel
/-- A POOL of two bags, the first done; a query; a completed command. -/
def poolCmd (opc sub : Nat) (p : List Word) : PoolCmd := ⟨opc, sub, p, ⟨.local, 0, 0, 0, 0x200000⟩, place (2 ^ 30), some 3, 4, 0, [3], view0⟩
def poolRun (x : PoolCmd) (bag : Nat) (done : Bool) : PoolRun := ⟨x, bag, 0, none, none, done⟩
def twoBags : List Word := [w64 ((poolBlock.getD 0 0).toNat + 2 ^ 20)] ++ poolBlock.tail
def basePool (r : Option PoolRun) : State := (early basePkg).modCore 0 fun c => { c with q16 := [poolCmd 0 0 twoBags], prun := r }
theorem witness_PoolUnitEvents :
    let a := basePool none
    let x := poolRun (poolCmd 0 0 twoBags) 1 false
    let b := basePool (some x)
    let tb := (b.ctx (b.core 0).res.ctx.val).tab (plTid twoBags)
    let w := 63
    let z := poolRun (poolCmd 0 0 twoBags) 2 true
    let d := basePool (some z)
    a.engineStarts 0 = true ∧ (a.core 0).prun = none ∧ (a.core 0).q16 = poolCmd 0 0 twoBags :: [] ∧ (a.core 0).freed 0 = true ∧
    b.engineOn 0 = true ∧ (b.core 0).prun = some x ∧ x.cmd.res.kind = .mem ∧ Memory.wf b.mem = true ∧
    b.outPinned x.cmd.res (plRoff twoBags + plOstr twoBags * 1) (tbW tb * ((plOty twoBags).width / 8)) = false ∧
    b.outPinned x.cmd.res (plSoff twoBags + 1) 1 = false ∧
    bits w 31 0 < tbRows ((b.decaysDue.ctx 0).tab (bits w 41 32)) ∧
    d.engineOn 0 = true ∧ (d.core 0).prun = some z ∧ (d.core 0).mark ≠ .dying ∧ d.haltedCore 0 = false ∧
      (d.core 0).qUsed 17 < 32 := by decide +kernel
/-- Bag 0 of a list in local scratch: offsets o0, o1 and the rows from o0 on; table 0 has 64 rows in extent 3. -/
def bagState (o0 o1 : Nat) (rows : List Nat) : State :=
  let p := twoBags
  let s := basePool none
  let s := s.granWrite [] (.scr 0) (plLoff p) (toBytes 4 o0 ++ toBytes 4 o1) false
  s.granWrite [] (.scr 0) (plIoff p + 4 * o0) (rows.flatMap (toBytes 4)) false
def bagRun : PoolRun := poolRun (poolCmd 0 0 twoBags) 0 false
theorem witness_PoolUnitEvents_bag :
    let num (s : State) (o : Nat) : Nat := ofBytes ((upto o 4).map (s.localByte 0 view0))
    let p := twoBags
    let s := bagState 1 3 [7, 63]
    let tb := (s.ctx 0).tab (plTid p)
    let ill := bagState 3 1 []
    let far := bagState 0 1 [64]
    let bad : State := { s with poison := [((s.ctx 0).rowAddr tb 63 / 16, ())] }
    bagRun.cmd.list.kind = .local ∧ (∀ t ∈ [s, ill, far, bad], ∀ e ∈ t.me.scr, e.2.pois = false) ∧
    num s (plLoff p) = 1 ∧ num s (plLoff p + 4) = 3 ∧ num s (plIoff p + 4) = 7 ∧ num s (plIoff p + 8) = 63 ∧
    plIoff p + 4 * 3 ≤ bagRun.cmd.list.len ∧ tbRows tb = 64 ∧ num ill (plLoff p) = 3 ∧ num ill (plLoff p + 4) = 1 ∧
    num far (plIoff p) = 64 ∧ (plNohot p = true ∨ tbHot tb = false) ∧ bagRun.cmd.view.pend = [] ∧
    s.poisoned ((s.ctx 0).rowAddr tb 7) (tbBytes tb) = false ∧ s.poisoned ((s.ctx 0).rowAddr tb 63) (tbBytes tb) = false ∧
    bad.poisoned ((bad.ctx 0).rowAddr tb 63) (tbBytes tb) = true := by decide +kernel
/-- Table 1 has a sketch that decays every two time units. -/
def sketchTab : List Word := [w64 (2 ^ 63 + 0x0A * 2 ^ 58 + 15 * 2 ^ 40 + 64 * 2 ^ 28 + 2 ^ 21 + 2 ^ 19), w64 (64 * 2 ^ 32 + 3 * 2 ^ 18), w64 (2 * 2 ^ 32), 0]
def baseSketch : State := { base with rtime := 3000000 }.modCtx 0 fun x =>
  { x with tables := [(1, sketchTab)], sketch := [(5, 8), (2 ^ 18 + 5, 9), (2 * 2 ^ 18, 8)], decayAt := [(1, 3000000)] }
theorem witness_PoolUnitEvents_decay :
    let tb := (baseSketch.ctx 0).tab 1
    tbValid tb = true ∧ tbSke tb = true ∧ tbDecay tb ≠ 0 ∧ mgetD (baseSketch.ctx 0).decayAt 1 0 ≤ baseSketch.rtime ∧
    risingFrom 0 (baseSketch.ctx 0).sketch = true := by decide +kernel
/-- Table 1 is cached and has a sketch; one row's bag; queries of its last row, of the row past it, of a cold row of a full set. -/
def hotTab : List Word := [w64 ((sketchTab.getD 0 0).toNat + 2 ^ 20)] ++ sketchTab.tail
def bag1 : List Word := [w64 ((poolBlock.getD 0 0).toNat + 2 ^ 54)] ++ poolBlock.tail
def baseHot (x : PoolCmd) (f : State → State) : State :=
  let s := { basePool (some (poolRun x 0 false)) with config := (List.replicate 8 0).set 1 (w64 (80 * 2 ^ 56 + 2 ^ 24)), rtime := 3000000 }
  f (((s.granWrite [] (.scr 0) (plLoff bag1) (toBytes 4 0 ++ toBytes 4 3) false).granWrite [] (.scr 0) (plIoff bag1)
    (toBytes 4 7 ++ toBytes 4 63 ++ toBytes 4 7) false).modCtx 0 fun t => { t with tables := [(1, hotTab)], decayAt := [(1, 4000000)] })
def query (opc sub r : Nat) : PoolCmd := { poolCmd opc sub [w64 (2 ^ 32 + r), 0, 0, 0] with res := Place.none }
def hset : Nat := (baseHot (query 1 0 63) id).hotSet 0 1 63
def cached (r p : Nat) : Way := ⟨true, 0, 1, r, p, 3, [1]⟩
theorem witness_PoolCountsAndQueries :
    let s := baseHot (poolCmd 0 0 bag1) id
    let x := poolRun (poolCmd 0 0 bag1) 0 false
    let tb := (s.ctx 0).tab (plTid bag1)
    let l := s.bagRows 0 x (tbRows tb)
    s.engineOn 0 = true ∧ (s.core 0).prun = some x ∧ plNosk bag1 = false ∧ tbSke tb = true ∧ l.2.1 = false ∧
    (match l.1 with | .ok ns => ns == [7, 63, 7] | _ => false) = true ∧
    s.outPinned x.cmd.res (plRoff bag1 + plOstr bag1 * 0) (tbW tb * ((plOty bag1).width / 8)) = false ∧
    s.outPinned x.cmd.res (plSoff bag1 + 0) 1 = false ∧ risingFrom 0 (s.ctx 0).sketch = true := by decide +kernel
theorem witness_PoolCountsAndQueries_queries :
    let a := baseHot (query 1 0 64) id
    let b := baseHot (query 1 1 63) id
    let h := baseHot (query 1 2 63) fun s => { s with ways := [(8 * hset + 2, cached 63 0)] }
    let f := baseHot (query 1 1 63) fun s => { s with ways := (upto 0 8).map fun n => (8 * hset + n, cached 62 1) }
    let d := baseHot (query 2 1 63) id
    let y := h.decaysDue
    a.engineOn 0 = true ∧ (a.core 0).prun = some (poolRun (query 1 0 64) 0 false) ∧ tbRows ((a.decaysDue.ctx 0).tab 1) ≤ 64 ∧
    63 < tbRows ((a.decaysDue.ctx 0).tab 1) ∧ tbHot ((a.decaysDue.ctx 0).tab 1) = true ∧ tbHot ((basePkg.ctx 0).tab 0) = false ∧
    b.decaysDue.hotWay 0 1 63 = none ∧ b.decaysDue.hrcsz ≠ 0 ∧ b.decaysDue.victim hset = some (8 * hset, none) ∧
    f.decaysDue.hotWay 0 1 63 = none ∧ f.decaysDue.victim hset = none ∧
    (h.core 0).prun = some (poolRun (query 1 2 63) 0 false) ∧ y.hotWay 0 1 63 = some (8 * hset + 2, cached 63 0) ∧
    risingFrom 0 y.ways = true ∧ y.rowPinned 0 1 63 = false ∧
    (d.core 0).prun = some (poolRun (query 2 1 63) 0 false) ∧ tbSke ((d.decaysDue.ctx 0).tab 1) = true ∧
    risingFrom 0 (d.decaysDue.ctx 0).sketch = true := by decide +kernel
/-- An SGD update with one row left, row 63. -/
def scCmd : ScCmd := ⟨0, scBlock 0, place 0, place 0, place 0, some 3, 4, 0, [3], view0⟩
def scRun (rows : List (Nat × List (BitVec 32))) : ScRun := ⟨scCmd, rows, [], 0, 0, 0, [], []⟩
def baseSc (r : Option ScRun) : State := (early basePkg).modCore 0 fun c => { c with q18 := [scCmd], srun := r }
theorem witness_ScatterUpdateEvents :
    let g := List.replicate 16 (0x3F800000 : BitVec 32)
    let b := baseSc (some (scRun [(63, g)]))
    let tb := (b.ctx (b.core 0).res.ctx.val).tab (scTid (scBlock 0))
    let d := baseSc (some (scRun []))
    (baseSc none).engineStarts 0 = true ∧ ((baseSc none).core 0).srun = none ∧ ((baseSc none).core 0).q18 = scCmd :: [] ∧
    ((baseSc none).core 0).freed 0 = true ∧ b.engineStarts 0 = true ∧ (b.core 0).srun = some (scRun [(63, g)]) ∧ g.length = tbW tb ∧
    b.poisoned ((b.ctx 0).rowAddr tb 63) (tbBytes tb) = false ∧ b.ways = [] ∧ b.rowHold = [] ∧ Memory.wf b.mem = true ∧
    d.engineStarts 0 = true ∧ (d.core 0).srun = some (scRun []) ∧ (d.core 0).mark ≠ .dying ∧ (d.core 0).qUsed 25 < 64 := by decide +kernel
/-- Adagrad and Adam with row 63 left, its state 1 MiB on; SGD of a row that one way holds, pinned here alone or elsewhere too. -/
def optRun (o : Nat) (pins : List Nat) : ScRun :=
  ⟨{ scCmd with opt := o, param := scBlock o, st := place (2 ^ 30 + 2 ^ 20) }, [(63, List.replicate 16 0x3F800000)], [], 0, 0, 0, pins, []⟩
theorem witness_ScatterOptimisers : ∀ o ∈ [1, 2],
    let s := baseSc (some (optRun o []))
    let tb := (s.ctx 0).tab (scTid (scBlock o))
    let a := (s.ctx 0).rowAddr tb 63
    let st := 2 ^ 30 + 2 ^ 20 + scSoff (scBlock o) + 63 * scSstr (scBlock o)
    s.engineOn 0 = true ∧ s.haltedCore 0 = false ∧ (s.core 0).srun = some (optRun o []) ∧ s.rowHold = [] ∧ Memory.wf s.mem = true ∧
    tbW tb = 16 ∧ s.poisoned a (tbBytes tb) = false ∧ s.ways = [] ∧ s.poisoned st 4 = false ∧
    s.poisoned (st + 16) (4 * tbW tb) = false ∧ a + (tbTy tb).width / 8 * tbW tb ≤ st := by decide +kernel
def wayOf63 : Nat := 8 * ({ basePkg with config := (List.replicate 8 0).set 1 (w64 (80 * 2 ^ 56 + 2 ^ 24)) } : State).hotSet 0 0 63 + 3
theorem witness_ScatterOptimisers_cached : ∀ p ∈ [1, 2],
    let w : Way := ⟨true, 0, 0, 63, p, 3, []⟩
    let s := { baseSc (some (optRun 0 [wayOf63])) with
      config := (List.replicate 8 0).set 1 (w64 (80 * 2 ^ 56 + 2 ^ 24)), ways := [(wayOf63, w)] }
    s.engineOn 0 = true ∧ (s.core 0).srun = some (optRun 0 [wayOf63]) ∧ s.wayTags 0 (scTid (scBlock 0)) 63 = [(wayOf63, w)] ∧
    s.poisoned ((s.ctx 0).rowAddr ((s.ctx 0).tab 0) 63) 64 = false := by decide +kernel
/-- A run of unit 0 at iteration n of 6, three per output. -/
def nmUnit0 (n : Nat) (done : Bool) : NmUnit := ⟨0, n, 0, 0, none, false, done⟩
def nmRun0 (core card : Option Nat) (x : NmUnit) : NmRun := ⟨0, core, card, some 3, 7, nmBlock, (upto 0 5).map (nmTrip nmBlock), [x], 0, 0, none, [], view0, false⟩
def baseNm (r : NmRun) : State := { early basePkg with runs := [(5, r)], nextRun := 6, unitQ := [(0, [5])] }
theorem witness_NearMemoryEvents :
    let a := (early basePkg).modCore 0 fun c => { c with q19 := [⟨nmBlock, some 3, 7, 0, [4], view0⟩] }
    let b := baseNm (nmRun0 (some 0) none (nmUnit0 4 false))
    let c := (baseNm (nmRun0 (some 0) none (nmUnit0 3 false))).modCtx 0 fun x =>
      { x with exts := mset x.exts 4 (nmExt0 ||| BitVec.ofNat 128 (2 ^ 126)), revs := [⟨4, none, none, false, 0⟩] }
    let r := nmRun0 (some 0) none (nmUnit0 3 false)
    let q := nmRun0 (some 0) none (nmUnit0 6 true)
    let cs := nmCounters r.trips 4
    a.down = false ∧ a.nmReady 0 = [0] ∧ (a.core 0).q19 = ⟨nmBlock, some 3, 7, 0, [4], view0⟩ :: [] ∧
    b.unitHead 0 = some (5, nmRun0 (some 0) none (nmUnit0 4 false), nmUnit0 4 false) ∧ b.nmReady 0 = [] ∧
    b.pauseDue (nmRun0 (some 0) none (nmUnit0 4 false)) (nmUnit0 4 false) = false ∧ (b.ctx 0).stopped = false ∧
    (b.ctx 0).halted = false ∧ nmOlvl nmBlock ≤ 5 ∧ (∀ l, l < 5 → nmPad nmBlock l = 0) ∧
    nmInner nmBlock (fun l => cs.getD l 0 == 0) = false ∧ nmInner nmBlock (fun l => cs.getD l 0 + 1 == r.trips.getD l 1) = false ∧
    b.poisoned (b.nmAddr 0 (nmAbase nmBlock) 4 (nmIndex nmBlock nmStA cs)) 4 = false ∧
    b.poisoned (b.nmAddr 0 (nmBbase nmBlock) 4 (nmIndex nmBlock nmStB cs)) 4 = false ∧
    c.unitHead 0 = some (5, r, nmUnit0 3 false) ∧ c.pauseDue r (nmUnit0 3 false) = true ∧
    (∀ v ∈ (c.ctx 0).revs, c.rtime ≤ v.start + maxPh (c.runHdr r)) ∧ mget (baseNm q).runs 5 = some q ∧ (∀ x ∈ q.units, x.done = true) ∧
    (baseNm q).down = false ∧ q.done = false ∧ ((baseNm q).ctx 0).stopped = false ∧ ((baseNm q).core 0).mark ≠ .dying ∧
    (baseNm q).haltedCore 0 = false ∧ (baseNm q).holdFull 0 = false ∧ ((baseNm q).core 0).qUsed 25 < 64 ∧
      nmFirst (nmRun0 none (some 9) (nmUnit0 6 true)) = none ∧ ((baseNm q).ctx 0).halted = false := by decide +kernel
/-- A walk of core 0: at its end, at a complete segment of one position, and at its end record. -/
def walkCmd : WalkCmd :=
  ⟨walkBlock, ⟨.local, 0, 0, 0, 0x200000⟩, ⟨.local, 0, 0, 0, 0x200000⟩, ⟨.local, 0, 0, 0, 0x200000⟩, shape .f32 4 16 64, shape .f32 4 16 64,
   some 3, 4, 0, [], view0⟩
def walkRun (p : Nat) (seg last : Option Nat) : WalkRun := ⟨walkCmd, p, 4, 0, 0, 0, seg, 8, false, last⟩
def baseWalk (r : Option WalkRun) : State :=
  { (early basePkg).modCore 0 fun c => { c with q20 := [walkCmd], wrun := r } with teasel := [(0, 5)] }
theorem witness_TeaselEvents :
    let a := baseWalk none
    let b := baseWalk (some (walkRun 4 none none))
    let c := baseWalk (some (walkRun 0 (some 1) none))
    let d := baseWalk (some (walkRun 4 none (some 0)))
    a.engineOn 0 = true ∧ a.teaselTurn 0 = true ∧ (a.core 0).wrun = none ∧ (a.core 0).q20 = walkCmd :: [] ∧
      (b.core 0).wrun = some (walkRun 4 none none) ∧
    (c.core 0).wrun = some (walkRun 0 (some 1) none) ∧ (walkRun 0 (some 1) none).total 1 ≤ 8 ∧ c.haltedCore 0 = false ∧
      (c.core 0).qUsed 21 < 32 ∧
    (d.core 0).wrun = some (walkRun 4 none (some 0)) ∧ (d.core 0).qUsed 21 < 32 ∧
    ∀ s ∈ [b, c, d], s.engineOn 0 = true ∧ s.teaselTurn 0 = true := by decide +kernel
/-- A segment of two positions, one granule a slot, before its last granule: empty, and full. -/
def gatherCmd : WalkCmd := { walkCmd with
  param := walkBlock.take 3 ++ [w64 (16 * 2 ^ 16)], rowP := near 0x1000, colP := near 0x1000, ta := shape .i8 4 16 16, tb := shape .i8 4 16 16 }
theorem witness_TeaselGathers : ∀ full ∈ [false, true],
    let x : WalkRun := ⟨gatherCmd, 0, 4, 0, 0, 0, some 2, 2, false, none⟩
    let b := baseWalk (some x)
    let s := if full then b.granSetFull (.scr 0) [b.slotGran 0 gatherCmd (x.slotOf 2).1 0] true else b
    s.engineOn 0 = true ∧ s.haltedCore 0 = false ∧ s.teaselTurn 0 = true ∧ (s.core 0).wrun = some x ∧ 2 + 1 = x.total 2 ∧
    s.slotFull 0 x = full ∧ tType gatherCmd.ta = .i8 ∧ tType gatherCmd.tb = .i8 ∧ gatherCmd.list.kind = .local ∧
    gatherCmd.rowP.kind = .local ∧ gatherCmd.colP.kind = .local := by decide +kernel
/-- Exchange: an all-reduce of one rank, an inbound buffer of extent 3, a packet in flight, a running collective. -/
def spCmd : SpCmd := ⟨2, 0, spBlock 2, [place (2 ^ 30), place (2 ^ 30 + 64)], some 3, 4, 0, [3], view0⟩
def spRun (done : Bool) : SpRun := ⟨spCmd, 0, 0, 0, 0, 0, [], [], [], [], [], 0, 0, false, false, done⟩
def putPkt (b : PacketBody) : Packet := ⟨7, 0, 0, 1, 0, 0, 9, 0, 1, b⟩
def baseSp (l : List SpRun) : State :=
  { (early basePkg).modCtx 0 fun x => { x with bufs := [(255, 3)] } with
    rtime := 1000000, peers := [(0, [2 ^ 63, 0, 0, 0])], tx := l.map fun _ => (5, ⟨some (0, 4), 0, 0, 15, 936000, putPkt .ack⟩) }.modCore 0 fun c =>
    { c with q22 := [spCmd], sprun := l }
theorem witness_SpeedwellEvents :
    let s := baseSp []
    let r := baseSp [spRun false]
    let d := baseSp [spRun true]
    let g : Group := ⟨1, 0, [0], 4, 1000, 0, 0, 0⟩
    let body := PacketBody.put 255 (2 ^ 21 - 4) 4 [1, 2, 3, 4] none
    s.engineStarts 0 = true ∧ s.tx = [] ∧ (s.core 0).sprun = [] ∧ (s.core 0).q22 = spCmd :: [] ∧ (s.core 0).freed 0 = true ∧
    mget (s.ctx (s.core 0).res.ctx.val).groups (spGroup spCmd.param) = some g ∧ (spCmd.base 0).kind = .mem ∧ (spCmd.base 1).kind = .mem ∧
    s.poison = [] ∧ s.rxhold = [] ∧ s.rxPuts = [] ∧ s.portsUp.contains (putPkt body).port.val = true ∧
    s.reachable (g.devs.getD (putPkt body).src 0) = true ∧ s.booted = true ∧ s.down = false ∧
      mget (s.ctx (putPkt body).ctx.val).groups (putPkt body).grp.val = some g ∧
    (s.ctx 0).stopped = false ∧ (s.ctx 0).halted = false ∧ mget (s.ctx 0).bufs 255 = some 3 ∧ xValid ((s.ctx 0).ext 3) = true ∧
    xTier ((s.ctx 0).ext 3) ≠ 4 ∧ 2 ^ 21 - 4 + 4 ≤ 2 ^ xLog ((s.ctx 0).ext 3) ∧ s.ways = [] ∧ Memory.wf s.mem = true ∧
    newerAtt (putPkt body).att g.att = true ∧ mget r.tx 5 = some ⟨some (0, 4), 0, 0, 15, 936000, putPkt .ack⟩ ∧
      r.portsUp ≠ [] ∧ 936000 + 64000 ≤ s.rtime ∧
    s.reachable 0 = true ∧ (r.core 0).sprun.find? (fun y => y.cmd.seq == 4) = some (spRun false) ∧ spCmd.form < 3 ∧
    0 + g.tmo * 1000 ≤ r.rtime ∧ d.engineOn 0 = true ∧ (d.core 0).sprun.find? (fun y => y.cmd.seq == 4) = some (spRun true) ∧
    (spRun true).outq = [] ∧ d.rowHold = [] ∧ (d.core 0).mark ≠ .dying ∧ d.haltedCore 0 = false ∧ (d.core 0).qUsed 23 < 32 := by decide +kernel
/-- Groups of two ranks: XPUT to rank 1, an index exchange of nine indices, the last part of an all-reduce, a part of a vector
return whose positions 0 and 2 it names. -/
def grp2 : Group := ⟨2, 0, [0, 1], 4, 1000, 0, 0, 0⟩
def movePut : SpCmd := { spCmd with form := 3, param := [w64 (2 ^ 44 + 5 * 2 ^ 36 + 2 ^ 35 + 20), w64 (8 * 2 ^ 32), 64, 128, 5, 0, 0, 0], bases := [near 0x1000] }
def moveIdx : SpCmd := { spCmd with
  form := 0, param := [w64 (2 ^ 41 + 9), 0, w64 (64 * 2 ^ 32 + 4), 0, 0, 0, 0, 0], bases := [near 0x1000, place (2 ^ 30), place (2 ^ 29)] }
def moveRed : SpCmd := { spCmd with param := [w64 (0x0A * 2 ^ 45 + 3), 8, 0, 0, 0, 0, 0, 0] }
def moveVec : SpCmd := { spCmd with form := 1, param := [3, 8, w64 (24 * 2 ^ 16 + 16), 0, 0, 0, 0, 0] }
def baseGrp (q : List SpCmd) (r : List SpRun) : State :=
  { ((baseSp []).modCtx 0 fun t => { t with groups := [(0, grp2)] }).modCore 0 fun c => { c with q22 := q, sprun := r } with
    peers := [(0, [2 ^ 63, 0, 0, 0]), (1, [2 ^ 63, 0, 0, 0])] }
theorem witness_SpeedwellMoves : ∀ x ∈ [movePut, moveIdx],
    let s := baseGrp [x] []
    s.engineStarts 0 = true ∧ (s.core 0).sprun = [] ∧ (s.core 0).q22 = x :: [] ∧ (s.core 0).freed 0 = true ∧ s.ways = [] ∧ s.rowHold = [] ∧
    mget (s.ctx (s.core 0).res.ctx.val).groups (spGroup x.param) = some grp2 ∧ s.rxhold = [] ∧ (s.core 0).scr = [] ∧ (x.base 0).kind = .local ∧
    bits (wd movePut.param 0) 53 44 = 1 ∧ s.reachable 1 = true ∧ spN movePut.param ≤ 4096 ∧ bit (wd moveIdx.param 0) 41 = true ∧
    (moveIdx.base 1).kind = .mem ∧ (moveIdx.base 2).kind = .mem ∧ grp2.rank < grp2.nrank ∧ grp2.bcap ≤ 1024 ∧
    (moveIdx.base 2).addr + 4 + 4 * spN moveIdx.param ≤ (moveIdx.base 1).addr + 64 := by decide +kernel
theorem witness_SpeedwellMoves_parts :
    let q (x : SpCmd) (n : Nat) : Packet := ⟨7, 0, 0, 0, 0, 1, 9, 0, 1, .part x.kind x.nel (List.replicate n 5)⟩
    let red : SpRun := ⟨moveRed, 0, 0, 0, 0, 0, [(0, List.replicate 12 5)], [], [], [], [], 0, 0, false, false, false⟩
    let vec : SpRun := ⟨moveVec, 0, 0, 0, 0, 0, [(0, [])], [], [4, 0, 5], [], [], 0, 0, false, false, false⟩
    ∀ e ∈ [(moveRed, red, 12), (moveVec, vec, 32)],
      let s := baseGrp [] [e.2.1]
      let p := q e.1 e.2.2
      s.down = false ∧ s.booted = true ∧ s.portsUp.contains p.port.val = true ∧ mget (s.ctx 0).groups 0 = some grp2 ∧ p.att = grp2.att ∧
      s.findSp 0 0 p.att p.cseq = some (0, e.2.1) ∧ s.spRun 0 e.1.seq = some e.2.1 ∧ risingFrom 0 e.2.1.parts = true ∧
      mget e.2.1.parts p.src = none ∧ (e.1.base 1).kind = .mem ∧ e.2.1.fits grp2 (List.replicate e.2.2 5) = true ∧
      red.parts.length + 1 = grp2.nrank ∧ s.spUnacked 0 e.1.seq = [] ∧ vec.perm.length = spN moveVec.param ∧
      (4 : Nat) * 1 ≤ 4 ∧ (5 - 4 * 1 + 1) * 16 ≤ 32 := by decide +kernel
/-! Campion, the host and the package. -/

/-- Card words as a map: card, word, value. -/
def cardsOf (l : List (Nat × Nat × Nat)) : Map Word := l.foldl (fun m e => mset m (32 * e.1 + e.2.1) (w64 e.2.2)) []
/-- An image at 2^30 whose one line is a branch target, with this header. -/
def imageMem (hdr : List Word) : List Host.Cell :=
  Memory.setAll [] (cellsAt (2 ^ 30) (hdr.flatMap (fun w => toBytes 8 w.toNat) ++ [8]))
/-- A gang of two: one level over cores, two trips, GSIZE 2. -/
def gangHeader : List Word :=
  setNth (setNth (setNth probeHeader 3 (w64 ((probeHeader.getD 3 0).toNat + 2 ^ 44))) 7 (w64 (2 ^ 60))) 8 (w64 (2 * 2 ^ 62 + 2))
    |>.take 48 |>.append (List.replicate 16 0)
/-- A single block that may restart and is discardable; its remaining time is known. -/
def oneHeader : List Word :=
  setNth (setNth (setNth probeHeader 3 (w64 ((probeHeader.getD 3 0).toNat + 2 ^ 51))) 6 (w64 (2 ^ 32))) 7 0 |>.take 48 |>.append (List.replicate 16 0)
/-- Card 5 is LOADED at level 3 with this image; context 0 is a service context; core 1 is idle. -/
def baseJob (hdr : List Word) (lvl : Nat) : State :=
  { base with mem := imageMem hdr, cores := [(0, probeCore Core.init), (1, { Core.init with inServ := true }), (64, { Core.init with inServ := true })] }.modCtx 0
    fun x => { x with svc := true, ckslots := 4, exts := [(3, mega 0)], cards := cardsOf [(5, 0, 2 ^ 28 + lvl * 2 ^ 19 + 4 * 2 ^ 13), (5, 1, 2 ^ 21)] }
/-- Card 5 armed by the host. -/
def armed (h : List Word) (lvl : Nat) : State := after (execArmRequest 0 none { baseJob h lvl with arms := [(0, 5, 0)] })
/-- Whether an arm is accepted. -/
def armsWell (s : State) (c n : Nat) : Bool := match s.kernelCheck c n with
  | .ok j _ m => !m && blockCount j.hdr j.trips != 0
  | _ => false
def asking (q : List JobReq) (s : State) : State := s.modCore 0 fun c =>
  { c with q24 := q, r := { c.r with c := { c.r.c with await := [5], blk := .other } } }
theorem witness_CampionRequests_arm :
    let s := { baseJob oneHeader 3 with arms := [(0, 5, 7)], rowHold := [(8, [])] }
    let q := asking [.arm 5 5 []] (baseJob oneHeader 3)
    s.ctxActs 0 = true ∧ s.arms = (0, 5, 7) :: [] ∧ s.hostHeld 7 = false ∧ (baseJob oneHeader 3).armRefusal 0 5 = none ∧
    ((baseJob oneHeader 3).ctx 0).cf 5 0 27 25 = 0 ∧ (baseJob oneHeader 3).reev = [] ∧ risingFrom 0 ((baseJob oneHeader 3).ctx 0).cards = true ∧
    (∀ b, b < 4 → bindUsed (((baseJob oneHeader 3).ctx 0).card 5) b = false) ∧ armsWell (baseJob oneHeader 3) 0 5 = true ∧
    q.asks 0 = true ∧ (q.core 0).res.ctx = 0 ∧ 5 ∈ (q.core 0).r.c.await ∧ (q.core 0).q24 = .arm 5 5 [] :: [] ∧
    armsWell (q.dropReq 0) 0 5 = true := by decide +kernel
/-- A job of one block with nothing in it. -/
def job0 : Job := ⟨[], probeHeader, 0, 0, [], 0, [], [], none, [], []⟩
/-- Card 5 is LOADED, card 6 FREE, card 7 DONE with serial 9, bound whole by input 0 of card 0; card 8 is RUNNING. -/
def baseCards (q : List JobReq) : State := asking q <| base.modCtx 0 fun x => { x with
  cards := cardsOf [(0, 12, 9 * 2 ^ 32 + 7 * 2 ^ 20 + 2 ^ 19 + 2 ^ 18), (5, 0, 2 ^ 28), (7, 0, 9 * 2 ^ 32 + 4 * 2 ^ 28), (8, 0, 3 * 2 ^ 28)]
  jobs := [(0, { job0 with grids := [2 ^ 62 + 32768 * 2 ^ 46, 0, 0, 0] })] }
theorem witness_CampionRequests_answers :
    let x := (baseCards []).ctx 0
    let w := x.card 0
    (baseCards []).asks 0 = true ∧ ((baseCards []).core 0).res.card = 0 ∧ x.cstate 6 = 0 ∧ x.cstate 8 = 3 ∧ x.cstate 5 = 1 ∧
    risingFrom 0 x.cards = true ∧ ((baseCards [.patch 5 31 1 5]).core 0).q24 = .patch 5 31 1 5 :: [] ∧
    ((baseCards [.stat 7 5]).core 0).q24 = .stat 7 5 :: [] ∧ x.cstate 7 = 4 ∧
      ((baseCards [.test 0 32767 5]).core 0).q24 = .test 0 32767 5 :: [] ∧
    bindUsed w 1 = false ∧ bindUsed w 0 = true ∧ bindWhole w 0 = true ∧ x.cserial (bindCard w 0) = bindSer w 0 ∧ x.cstate (bindCard w 0) = 4 ∧
    ((mget x.jobs 0).all fun j => decide ((32767 : Word).toNat < gridSize (j.grids.getD 0 0))) = true := by decide +kernel
/-- Tile 2 of slot 1 of the running card 0. -/
def baseTile (q : List JobReq) (st : TagState) : State :=
  { asking q base with tags := [(32770, ⟨0, 0, 0, 1, st, 2, []⟩)], links := [⟨0, 0, some 32770, 0, 9, 0⟩] }.modCtx 0 fun x =>
    { x with cards := cardsOf [(0, 0, 3 * 2 ^ 28), (0, 16, 4 * 32768 * 2 ^ 27)], jobs := [(0, job0)] }
theorem witness_CampionRequests_tiles :
    let s := baseTile [.pub 1 2 []] .empty
    s.asks 0 = true ∧ s.tileEntry 0 1 2 = some 32770 ∧ mget s.tags 32770 = some ⟨0, 0, 0, 1, .empty, 2, []⟩ ∧
      (s.core 0).q24 = .pub 1 2 [] :: [] ∧
    TagState.empty ≠ .ready ∧ ((baseTile [.ready 1 2 []] .pending).core 0).q24 = .ready 1 2 [] :: [] ∧
    ((baseTile [.pending 1 2 0] .empty).core 0).q24 = .pending 1 2 0 :: [] := by decide +kernel
/-- What a placement needs of its records and of the image's entry line. -/
def placesWell (s : State) (l : Nat) (e : REntry) (ks : List Nat) (img : Nat) : Prop :=
  s.down = false ∧ s.reserve.nextPlacement = some (l, e, ks) ∧ (s.ctx e.ctx.val).stale e.card = false ∧ (s.ctx e.ctx.val).stopped = false ∧
    (mget (s.ctx e.ctx.val).jobs e.card).any (fun j => match s.imageAt e.ctx.val j with
      | .ok (ext, i) => ext == 3 && i == img && hbits j.hdr 1 39 16 == 0
      | .error _ => false) = true ∧ e.blocks.Nodup ∧ ks.Nodup ∧
    (∀ b ∈ e.blocks, (mget (s.ctx e.ctx.val).recs (gkey e.card b)).any (fun r => r.card == e.card && r.block == b && r.ckpt.isNone) = true) ∧
    s.targetFault { Resident.none with hdr := s.headerAt img, img := img } 0 = none
theorem witness_CampionPlacement_launch : placesWell (armed oneHeader 3) 3 ⟨0, 5, [0], false⟩ [1] (2 ^ 30) := by
  unfold placesWell; decide +kernel
theorem witness_CampionPlacement_gang :
    placesWell ((armed gangHeader 63).modCore 0 fun c => { c with blk := none }) 63 ⟨0, 5, [0, 1], true⟩ [0, 1] (2 ^ 30) := by
  unfold placesWell; decide +kernel
/-- The block of card 5 holds slot 2, where what core 0 has is saved. -/
def baseResume : State :=
  (armed oneHeader 3).modCtx 0 fun x => { x with
    recs := x.recs.map fun e => (e.1, { e.2 with ckpt := some 2 }), cks := [(2, (probeCore Core.init).saved)] }
theorem witness_CampionPlacement_resume :
    let s := baseResume
    let e : REntry := ⟨0, 5, [0], false⟩
    s.down = false ∧ s.reserve.nextPlacement = some (3, e, [1]) ∧ (s.ctx 0).stale 5 = false ∧ (s.ctx 0).stopped = false ∧
    (mget (s.ctx 0).jobs 5).any (fun j => match s.imageAt 0 j with
      | .ok (ext, i) => ext == 3 && i == 2 ^ 30
      | .error _ => false) = true ∧
    (mget (s.ctx 0).recs (gkey 5 0)).any (fun r => r.card == 5 && r.block == 0 && r.ckpt == some 2) = true ∧
    mget (s.ctx 0).cks 2 = some (probeCore Core.init).saved ∧ (probeCore Core.init).saved.revoked = [] ∧ (s.ctx 0).revs = [] ∧
    risingFrom 0 (s.ctx 0).cks = true := by decide +kernel
/-- A near-memory job with the descriptor its arm checked. -/
def baseVariant : State :=
  basePkg.modCtx 0 fun x =>
    { x with cards := cardsOf [(5, 0, 2 * 2 ^ 28), (5, 17, 2 ^ 21)],
             jobs := [(5, { job0 with trips := (upto 0 5).map (nmTrip nmBlock), nmdesc := nmBlock })] }
theorem witness_CampionPlacement_variant :
    let s := baseVariant
    let j : Job := { job0 with trips := (upto 0 5).map (nmTrip nmBlock), nmdesc := nmBlock }
    s.down = false ∧ mget (s.ctx 0).jobs 5 = some j ∧ s.ctxActs 0 = true ∧ (s.ctx 0).cstate 5 = 2 ∧ (s.ctx 0).cf 5 17 21 21 = 1 ∧
    j.nmrun = none ∧ s.links = [] ∧ (s.ctx 0).nmFault nmBlock j.trips = none ∧
    s.leaseFaultOf 0 ((s.ctx 0).nmExts nmBlock) = none ∧ risingFrom 0 (s.ctx 0).cards = true := by decide +kernel
/-- An entry at level 58 whose quantum of 250 time units has passed. -/
def baseAging : State := { armed oneHeader 58 with rtime := 256000 }
theorem witness_CampionPlacement_aging :
    let s := baseAging
    let e : REntry := ⟨0, 5, [0], false⟩
    s.down = false ∧ (s.entries.filter fun x => decide (x.1 ≤ 58)) = [(58, e)] ∧
    (s.entryRec e).any (fun r => decide (250 ≤ (s.enqt - r.enqt).toNat)) = true := by decide +kernel
/-- A newcomer at level 63, and one victim, to be checkpointed or drained. -/
def baseVictim (h : List Word) : State :=
  let t := (((armed oneHeader 63).modCore 64 fun c => { c with inServ := false }).modCore 1 fun c => { c with inServ := false }).modCore 0 fun c =>
    { c with blk := some { probeBlock with hdr := h } }
  t.modCtx 0 fun x => { x with recs := mset x.recs 0 { newRec 0 job0 0 0 0 [] with core := some 0 } }
theorem witness_CampionPlacement_preemption :
    let e : REntry := ⟨0, 5, [0], false⟩
    ∀ p ∈ [(probeHeader, PreAct.ckpt, 2), (oneHeader, PreAct.drain, 0)],
      let s := baseVictim p.1
      let ds := [0, 1].filter fun d => s.eligible e d
      s.down = false ∧ s.ready[(63 : Fin 64)] = e :: [] ∧ s.ready[(62 : Fin 64)] = [] ∧ s.ready[(61 : Fin 64)] = [] ∧
        s.ready[(60 : Fin 64)] = [] ∧
      s.enoughFor 63 e ds = false ∧ e.blocks.length = (s.coresFor 63 e 0).length +
        (s.cores.filter fun x => x.2.heldFor == some e.name && x.2.blk.isSome && x.1 / 64 == 0).length + 1 ∧
      s.bestVictims 63 ds ((s.ctx 0).tokens 5) = some ⟨[(0, p.2.1)], p.2.2⟩ ∧ p.2.1 ≠ .kill ∧ (s.core 0).mark = .none := by decide +kernel
/-- A victim that started a moment ago, whose time left is unknown and whose kernel may restart. -/
def killHeader : List Word := setNth oneHeader 6 0
def baseKill : State := { baseVictim killHeader with rtime := 100 }
theorem witness_CampionPlacement_kill :
    let e : REntry := ⟨0, 5, [0], false⟩
    let s := baseKill
    let ds := [0, 1].filter fun d => s.eligible e d
    s.down = false ∧ s.ready[(63 : Fin 64)] = e :: [] ∧ s.ready[(62 : Fin 64)] = [] ∧ s.ready[(61 : Fin 64)] = [] ∧
      s.ready[(60 : Fin 64)] = [] ∧
    s.enoughFor 63 e ds = false ∧ e.blocks.length = (s.coresFor 63 e 0).length +
      (s.cores.filter fun x => x.2.heldFor == some e.name && x.2.blk.isSome && x.1 / 64 == 0).length + 1 ∧
    s.bestVictims 63 ds ((s.ctx 0).tokens 5) = some ⟨[(0, .kill)], 1⟩ ∧ (s.core 0).mark = .none ∧ (s.core 0).q24 = [] ∧
    (s.core 0).pubs = [] ∧ (s.core 0).inServ = true ∧ s.resv = [] ∧
    (mget (s.ctx 0).recs (gkey (s.core 0).res.card (s.core 0).res.block)).any (fun x => decide (x.prio < 60)) = true ∧
      risingFrom 0 (s.ctx 0).recs = true := by decide +kernel
/-- The block of core 0 has ended; its job has n blocks left. -/
def baseEnd (n : Nat) : State :=
  (baseCore fun c => { c with ended := true }).modCtx 0 fun x => { x with
    cards := cardsOf [(0, 0, 3 * 2 ^ 28), (0, 22, n * 2 ^ 16)], recs := [(0, newRec 0 job0 0 0 0 [])],
    jobs := [(0, job0)] }
/-- Its streams have waited long enough. -/
def baseStarved : State := baseCore fun c => { c with
  starve := 2 ^ 20, r := { c.r with c := { c.r.c with blk := .align }, a := { c.r.a with blk := .sem }, v := { c.r.v with blk := .work } } }
theorem witness_BlocksAndContextsEnd :
    let two := baseEnd 2
    let one := baseEnd 1
    let s := baseStarved
    let w := baseCtx fun x => { x with wdlim := 5, wdcnt := 5000000, cards := cardsOf [(0, 0, 3 * 2 ^ 28)] }
    two.asks 0 = true ∧ (two.core 0).ended = true ∧ two.enginesBusy 0 = false ∧ (two.core 0).q24 = [] ∧
      (two.core 0).comm = [] ∧ (two.core 0).mark ≠ .dying ∧
    risingFrom 0 (two.ctx 0).cards = true ∧ (two.ctx 0).cf 0 22 39 16 = 2 ∧ risingFrom 0 (two.ctx 0).recs = true ∧
    one.asks 0 = true ∧ (one.ctx 0).cf 0 22 39 16 = 1 ∧ one.reev = [] ∧ risingFrom 0 (one.ctx 0).jobs = true ∧
    (∀ j ∈ (one.ctx 0).jobs, bits (wd j.2.snap 0) 27 25 ≠ 2) ∧
    w.down = false ∧ w.hasCtx 0 = true ∧ (w.ctx 0).wdlim.toNat * 1000000 ≤ (w.ctx 0).wdcnt ∧ (w.coresOf 0 fun _ => true) = [0] ∧
    (w.ctx 0).stopped = false ∧ (w.ctx 0).cstate 0 = 3 ∧
    (s.core 0).blk.isSome = true ∧ s.down = false ∧ (s.ctx 0).halted = false ∧ 2 ^ 20 ≤ (s.core 0).starve ∧
    s.noError 0 ∧ w.noError 0 ∧ (s.core 0).res.card < 4096 ∧ (s.core 0).res.block < 2 ^ 24 ∧ (7 : BitVec 8).toNat < 8 := by decide +kernel
/-- The block of core 0 owes a checkpoint, its PHASE done; four slots are free. -/
def baseCkpt : State :=
  (baseCore fun c => { c with r := { c.r with c := { c.r.c with acted := true } } }).modCtx 0 fun x =>
    { x with ckslots := 4, recs := [(0, newRec 0 job0 0 0 0 [])], jobs := [(0, job0)] }
theorem witness_PhaseAndKendCommit_checkpoint :
    let s := baseCkpt
    s.strm = .c ∧ s.st.acted = true ∧ s.me.blk.isSome = true ∧ s.enginesBusy s.cur = false ∧ s.me.q24 = [] ∧ s.me.comm = [] ∧
    (s.ctx s.cx).freeSlot = some 0 ∧ mget (s.ctx s.cx).recs (gkey s.res.card s.res.block) = some (newRec 0 job0 0 0 0 []) ∧
    risingFrom 0 (s.ctx s.cx).recs = true ∧ Memory.wf s.mem = true ∧ (∀ e ∈ s.me.scr, e.1 < 131072) ∧ ∀ e ∈ s.me.acc, e.1 < 16384 := by decide +kernel
theorem witness_BlocksAndContextsEnd_record :
    let s := baseIn .a
    s.res.card < 4096 ∧ s.res.block < 2 ^ 24 ∧ s.cur < 128 ∧ s.st.pos.line < 2 ^ 24 ∧ s.rtime < 2 ^ 64 ∧ (s.ctx s.cx).stopped = false ∧
    s.noError s.cx ∧ (7 : BitVec 8).toNat < 8 := by decide +kernel
/-- The host link is up. -/
def baseUp (f : Ctx → Ctx) : State := { baseCtx f with portstat := 1 }
theorem witness_HostRegisterWrites :
    let s := baseUp fun x => { x with cards := cardsOf [(4095, 0, 2 ^ 28), (3, 0, 2 * 2 ^ 28)] }
    let h := baseUp fun x => { x with halted := true }
    let p : State := { s with msixPend := BitVec.allOnes 17, atbuild := some [1, 2] }
    s.linkUp = true ∧ s.hasCtx 0 = true ∧ (s.ctx 0).cstate 4095 = 1 ∧ (s.ctx 0).cstate 3 = 2 ∧ risingFrom 0 (s.ctx 0).cards = true ∧
    (s.ctx 0).stopped = false ∧ (baseUp fun x => { x with stopped := true }).linkUp = true ∧ (s.ctx 0).cqheld = [] ∧ (s.ctx 0).halted = false ∧
    h.linkUp = true ∧ (h.ctx 0).halted = true ∧ (∀ m ∈ h.cores, m.2.ptrig = []) ∧ risingFrom 0 s.msixTab = true ∧ h.rxhold = [] ∧
    p.msixPend.getLsbD 16 = true ∧ p.atbuild = some [1, 2] ∧ s.atbuild = none ∧ bit 3 1 = true ∧ 4 ≤ 15 % 8 ∧ (0x13 : Nat) % 8 ≠ 0 ∧
    State.reset.linkUp = false ∧ hostBase + 2 ^ 51 - 1 + [(5 : Byte)].length ≤ hostBase + 2 ^ 51 ∧ base.ways = [] ∧
      base.rowHold = [] ∧ Memory.wf base.mem = true := by
  decide +kernel
/-- A request stands at the head of the ring: operation, operands.  The module is armed, with 80 channels of HBM4E, channel 0
leasable and lent to context 0; the budget is 1 MiB guaranteed, 2 MiB in all; extent 3 is in general memory, 4 on the channel. -/
def ringState (op : Nat) (args : List Nat) : State :=
  { basePkg with
    mem := Memory.setAll [] (cellsAt hostBase (((op * 2 ^ 56 + 7) :: args).flatMap fun w => toBytes 8 w))
    rqbase := 0, rqtail := 1, armed := true, config := (List.replicate 8 0).set 1 (w64 (80 * 2 ^ 56)) |>.set 6 1,
    hubud := w64 (2 * 2 ^ 16 + 1) }
/-- The words of a request with no operand beyond its list. -/
def ringWords (op : Nat) (args : List Nat) : List Word := (((op * 2 ^ 56 + 7) :: args) ++ List.replicate 5 0).take 6 |>.map w64
def tab2 : List Word := [w64 (2 ^ 63 + 0x0A * 2 ^ 58 + 15 * 2 ^ 40 + 64 * 2 ^ 28 + 2 ^ 21), w64 (64 * 2 ^ 32 + 4 * 2 ^ 18), 0, 0]
theorem witness_CommandProcessorRequests_contexts :
    let s := ringState 0x01 [4096 + 2 ^ 16]
    let u : State := { s with armed := false }
    let d := { ringState 0x02 [] with cores := [] }.modCtx 0 fun x => { x with jobs := [] }
    s.asked (ringWords 0x01 [4096 + 2 ^ 16]) ∧ u.asked (ringWords 0x01 [4096 + 2 ^ 16]) ∧ s.freeCtx = some 1 ∧
    (s.reserveRange (reservedLen 4096)).isSome = true ∧ bits (wd s.config 0) 63 56 = 0 ∧
    d.asked (ringWords 0x02 []) ∧ d.hasCtx 0 = true ∧ d.running 0 = false ∧ risingFrom 0 d.ctxs = true := by decide +kernel
theorem witness_CommandProcessorRequests_extents :
    let e := (mega 0).toNat
    let e := (entryOf (e % 2 ^ 64) (e / 2 ^ 64)).toNat + 4096
    let w := [16383, e % 2 ^ 64, e / 2 ^ 64]
    let s := ringState 0x10 w
    let z := ringState 0x10 [16383, 0, 0]
    let r := ringState 0x11 [3, 1]
    s.asked (ringWords 0x10 w) ∧ s.extentOk 0 16383 (entryOf (e % 2 ^ 64) (e / 2 ^ 64)) = true ∧ xValid ((s.ctx 0).ext 16383) = false ∧
    z.asked (ringWords 0x10 [16383, 0, 0]) ∧ z.extentOk 0 16383 (entryOf 0 0) = false ∧
    r.asked (ringWords 0x11 [3, 1]) ∧ xValid ((r.ctx 0).ext 3) = true ∧ xTier ((r.ctx 0).ext 3) = 0 := by decide +kernel
theorem witness_CommandProcessorRequests_leases :
    let s := { ringState 0x18 [0, 5] with leases := [] }
    let e := ringState 0x19 [0]
    let d := ringState 0x1A [0, 4]
    s.asked (ringWords 0x18 [0, 5]) ∧ s.leasable 0 = true ∧ mget s.leases 0 = none ∧
    e.asked (ringWords 0x19 [0]) ∧ mget e.leases 0 = some ⟨0, 1, 0, false⟩ ∧ d.asked (ringWords 0x1A [0, 4]) ∧
    (let x := (d.ctx 0).ext 4
     xValid x = true ∧ xTier x = 2 ∧ leaseChannel (xBase x) = some 0 ∧ d.leased 0 0 = true ∧ bits (xPerm x) 5 4 ≠ 0) := by decide +kernel
theorem witness_CommandProcessorRequests_tables :
    let w := 1023 :: tab2.map fun x => x.toNat
    let s := ringState 0x20 w
    let g := [63 + 2 ^ 16, 64, 65536, 1000]
    let m := { ringState 0x28 g with peers := [(0, [w64 (2 ^ 63), 0, 0, 0])] }
    let b := ringState 0x29 [255, 3]
    let p := ringState 0x2A [1023, 2 ^ 63, 5, 6, 0]
    s.asked (ringWords 0x20 w) ∧ s.tableOk 0 tab2 = true ∧
    m.asked (ringWords 0x28 g) ∧ (∀ v ∈ m.rankList 64 1, v < 1024 ∧ m.reachable v = true) ∧
    b.asked (ringWords 0x29 [255, 3]) ∧ xValid ((b.ctx 0).ext 3) = true ∧ bit (xPerm ((b.ctx 0).ext 3)) 0 = true ∧
    p.asked (ringWords 0x2A [1023, 2 ^ 63, 5, 6, 0]) := by decide +kernel
/-- A must-save entry over the first 4 KiB of extent 3, and a save that holds it. -/
def must3 : List Word := [w64 (2 ^ 63), w64 (2 ^ 21), 4096, 0]
theorem witness_CommandProcessorRequests_saves :
    let w := 63 :: must3.map fun x => x.toNat
    let s := ringState 0x30 w
    let d := ringState 0x31 [63] |>.modCtx 0 fun x => { x with must := [(63, must3)] }
    s.asked (ringWords 0x30 w) ∧ (s.ctx 0).mustOk 63 must3 = true ∧ mget (s.ctx 0).must 63 = none ∧ msClass must3 = 0 ∧
    s.charges.1 + msCharge must3 ≤ s.gbud ∧ d.asked (ringWords 0x31 [63]) ∧ risingFrom 0 (d.ctx 0).must = true ∧
    (ringState 0x40 [96, 3]).asked (ringWords 0x40 [96, 3]) ∧ (ringState 0x3F []).asked (ringWords 0x3F []) ∧ 0x3F ∉ knownOps := by
  decide +kernel
/-- An entry of 16 bytes in one piece, as a whole save holds it: the piece behind its header, its digest and the marker. -/
def saved63 : Saved := ⟨63, [w64 (2 ^ 63), w64 (2 ^ 21), 16, 0], saveExtents, 1, 16, 0⟩
def body63 : List Byte := List.replicate 64 0 ++ List.replicate 16 7
def store63 : List Host.Cell :=
  (upto 0 16).map (fun i => (saveExtents + 64 + i, 7)) ++
    (upto 0 64).map (fun i => (saveExtents + 96 + i, (digest64 body63).getD i 0)) ++ cellsAt (saveExtents + 200) (toBytes 8 saveSeal)
def nv63 : NonVol := { base.nv with held := true, saved := [saved63], store := store63 }
theorem saved63_whole : nv63.result saved63 = 0 := by decide +kernel
theorem witness_CommandProcessorRequests_reports :
    let r := { ringState 0x38 [8383, 1, 2 ^ 21] with repHeld := true, report := List.replicate 1048 0 }
    let v := { ringState 0x39 [63, 2 ^ 21 + 1] with nv := nv63 }
    r.asked (ringWords 0x38 [8383, 1, 2 ^ 21]) ∧ r.ways = [] ∧ r.rowHold = [] ∧ (r.ctx 0).tier0 (2 ^ 21) 1 = some (2 ^ 30) ∧ 2 ^ 30 + 1 ≤ hostBase ∧
    v.asked (ringWords 0x39 [63, 2 ^ 21 + 1]) ∧ v.ways = [] ∧ v.nv.held = true ∧
    (v.nv.saved.find? fun e => e.slot == 63) = some saved63 ∧ v.mapped 0 (2 ^ 21 + 1) saved63.body = true ∧
    v.rowHold = [] ∧ 2 ^ 30 + 1 + saved63.body ≤ hostBase ∧ xTier (mega 0) ≠ 4 ∧ ∀ i, i < saved63.body →
      (v.ctx 0).findExt (2 ^ 21 + 1 + i) = some (3, mega 0) ∧ xPhys (mega 0) (2 ^ 21 + 1 + i) = 2 ^ 30 + 1 + i := by
  decide +kernel
/-- Extent 4 of context 0 is in revocation, asked by the record at the start of the ring. -/
def baseRvk (keep : Bool) (new : Option Extent) : State := basePkg.modCtx 0 fun x => { x with
  exts := [(3, mega 0), (4, nmExt0 ||| BitVec.ofNat 128 (2 ^ 126))], revs := [⟨4, new, some (hostBase, 7), keep, 0⟩] }
/-- The block of core 0 holds it past its longest phase; a fault waits for the driver. -/
def baseHolder (h : List Word) : State := { (baseRvk false none).modCore 0 fun c =>
  { c with blk := some { probeBlock with hdr := h }, rvks := [⟨4, 0⟩], tfault := some (0x10, 255, 0x5000) } with rtime := 2 ^ 40 }.modCtx 0
    fun x => { x with recs := [(0, newRec 0 job0 0 0 0 [])] }
theorem witness_RevocationEvents :
    let s := baseRvk false (some (mega 2))
    let v : Revoc := ⟨4, some (mega 2), some (hostBase, 7), false, 0⟩
    let k := baseHolder probeHeader
    let r := baseHolder oneHeader
    let l := { basePkg with rtime := 1 }
    s.down = false ∧ ((s.ctx 0).revs.find? fun y => y.ext == 4) = some v ∧ s.unitsHold 0 4 = false ∧
    (s.cores.any fun e => (e.2.blk.any fun r => r.ctx == 0) && e.2.rvks.any fun y => y.ext == 4) = false ∧
    risingFrom 0 (s.ctx 0).exts = true ∧ Memory.wf s.mem = true ∧ (baseRvk true none).down = false ∧
    (k.core 0).rvks = [⟨4, 0⟩] ∧ k.asks 0 = true ∧ (k.core 0).mark ≠ .dying ∧ 0 + maxPh (k.core 0).res.hdr < k.rtime ∧
    k.noError 0 ∧ k.acksEarly 0 4 = false ∧ r.acksEarly 0 4 = false ∧ bit ((k.core 0).res.hw 3) 51 = false ∧ bit ((r.core 0).res.hw 3) 51 = true ∧
    (r.coresOf 0 fun z => z.card == 0 && z.gang == 0) = [0] ∧ (mget (r.ctx 0).recs (gkey 0 0)).isSome = true ∧
    risingFrom 0 (r.ctx 0).recs = true ∧ (k.core 0).tfault = some (0x10, 255, 0x5000) ∧ (k.core 0).retr = [] ∧
    mget l.leases 0 = some ⟨0, 1, 0, false⟩ ∧ l.lapseDeferred 0 0 = false ∧ (l.ctx 0).onChannel 0 ≠ [] := by decide +kernel
/-- Boot images: one that is accepted under a key that encodes the neutral point, one whose signature is not a signature. -/
def goodImage : FwImage := ⟨[1, 2, 3], digestOf [1, 2, 3], 5, (1 :: List.replicate 56 0) ++ List.replicate 57 0⟩
def badImage : FwImage := { goodImage with version := 9, sig := [] }
def nvWith (x y : Option FwImage) : NonVol :=
  { State.reset.nv with fwKey := 1 :: List.replicate 56 0, slotA := ⟨x, y⟩, slotB := ⟨some badImage, none⟩ }
theorem witness_PackageEvents :
    let hold (n : Nat) : State := { base with down := true, hold := some ⟨0, n, 0, 5, 0, false, [], saveExtents, 0, []⟩ }
    let last : State := { { base with counters := [(counterKey 1 4095, ⟨0, 15⟩)], rtime := 86399999999999 } with cores := [(0, { Core.init with inServ := true })] }
    let off := State.reset
    let flash (x y : Option FwImage) : NonVol := ({ off with nv := nvWith x y } : State).flashed ⟨[], [], [], true, 16, 60000⟩
    base.booted = true ∧ base.down = false ∧ mget base.counters (counterKey 0 (rowUnit true 63 0 0)) = none ∧
    mget last.counters (counterKey 1 (0 * 4096 + 131071 / 32 % 4096)) = some ⟨0, 15⟩ ∧ (last.core 0).blk = none ∧ base.hold = none ∧
    mget last.counters (counterKey 1 4095) = some ⟨0, 15⟩ ∧ 0 + counterWindow (counterKey 1 4095 / 2 ^ 48) ≤ last.rtime + 1 ∧
    risingFrom 0 last.counters = true ∧ ({ base with armed := true } : State).armed = true ∧ Memory.wf base.mem = true ∧
    off.booted = false ∧ off.hold = none ∧ off.power = true ∧ ({ off with power := false } : State).power = false ∧
      (hold 0).hold = some ⟨0, 0, 0, 5, 0, false, [], saveExtents, 0, []⟩ ∧
    (hold 3).hold = some ⟨0, 3, 0, 5, 0, false, [], saveExtents, 0, []⟩ ∧
    (flash none none).pickImage FwSlot.first = none ∧
    (flash (some goodImage) none).pickImage FwSlot.first = some goodImage ∧
    (flash (some goodImage) none).pickImage FwSlot.main = none ∧
    (flash (some goodImage) (some goodImage)).pickImage FwSlot.main = some goodImage := by decide +kernel
/-- FIPS 202: SHAKE256 of the empty message.  RFC 8032, 7.4: the blank message's signature verifies, and no other's. -/
theorem test_shake256_empty : (shake256 4 []).map (fun b => b.toNat) = [0x46, 0xB9, 0xDD, 0x2B] := by decide +kernel
def rfcKey : List Byte := toBytes 57
  0x806125e8afbe1afad16c0fe5f13d78d61b06c7469b7624f1ed7867e9805da70e8a1f0ea7852434a11d6ad46a61ec87e72cfd61b4599b44d75f
def rfcSig : List Byte := toBytes 114
  0x26652eff0858d9718c2663735af04911b6dbf4a013a13085dacdc7c59ab92d8504410bc08d5d925b342d1c5d6c003ef69d8ab1d428200dff8039fd1ba2d09bc528787dd4dd227afdf28182624f033f232b1f591ad423d84f07d2343e844a50fb2dae76f9880d3c021f2557e4bbf6373a53
theorem test_ed448_rfc8032 : edVerify rfcKey [] rfcSig = true ∧ edVerify rfcKey [3] rfcSig = false := by decide +kernel
theorem witness_DecodeEncode : (Instr.st bare 15 31 30 .i64 .one 0x1FFFFF).wfIn .a = true ∧
    (Instr.moviq bare 31 0xFEDCBA9876543210).wfIn .c = true ∧ (Instr.br ⟨true, 7⟩ 0x8000).wfIn .all = true := by decide +kernel
/-- A word of the table stands in line 0 of the block's image: ADD of stream C. -/
theorem witness_StepRunsDecodedForm :
    let s := State.reset.withFetchWord 32 0x00000000
    let l := s.lineOf s.res s.st.pos.line
    let g : State := { base with schedule := [⟨5, 6, .event .bankRecharged⟩] }
    let h : State := { base with schedule := [⟨0, 0, .stream 0 .v⟩] }
    let k : State := { base with schedule := [⟨5, 6, .event (.kStep 0)⟩] }
    let as := [Stm.c, .a, .v].map (Act.stream s.cur)
    let at' (t : State) := ({ t.pass 5 6 with schedule := [] } : State).holdNow.meanwhile
    let u : State := { (({ h.pass 0 0 with schedule := [] } : State).holdNow).meanwhile with cur := 0, strm := .v }
    s.schedule = [] ∧ s.hold = none ∧ s.rival [.c, .a, .v] = none ∧ s.sooner (.stream s.cur s.strm) as = none ∧
    s.clash s.cur (.stream s.cur s.strm) as = [] ∧ s.st.blk = .run ∧ s.mayIssue false = true ∧
    (s.st.begun = true ∨ s.st.pos.lseq ≤ s.me.r.minLseq + s.me.r.win ∧ lineFault l = none) ∧ s.st.pos.line < s.res.codelines ∧
    s.st.skip = none ∧ nextLane (8 - s.st.pos.lane) s.strm l s.st.pos.lane = some 1 ∧ tagSpace (tagOf l 1) = some .c ∧ s.strm = .c ∧
    decodeForm .c (l.getD 1 0) (l.getD 2 0) (l.getD 3 0) = .ok (.add bare 0 0 0 false) ∧
    g.schedule = ⟨5, 6, .event .bankRecharged⟩ :: [] ∧ Instr.isEvent .bankRecharged = true ∧ h.schedule = ⟨0, 0, .stream 0 .v⟩ :: [] ∧
    (at' g).sooner (.event .bankRecharged) (clockActs []) = none ∧ k.schedule = ⟨5, 6, .event (.kStep 0)⟩ :: [] ∧
    (at' k).clash 0 (.event (.kStep 0)) (clockActs []) = [] ∧
    u.sooner (.stream 0 .v) (clockActs []) = none ∧ u.clash 0 (.stream 0 .v) (clockActs []) = [] ∧ u.rival (streamsOf 0 (clockActs [])) = none := by
  decide +kernel
theorem witness_MemoryCanonicalStep : Memory.wf State.reset.mem = true ∧ ∃ t, Sys2Proof.Machine.step State.reset = .next t :=
  ⟨by decide +kernel, _, rfl⟩

theorem witness_KeysRiseStep : State.reset.keysRise ∧ ∃ t, Sys2Proof.Machine.step State.reset = .next t :=
  ⟨⟨rfl, fun _ h => absurd h List.not_mem_nil, fun _ h => absurd h List.not_mem_nil⟩, _, rfl⟩

end Sys2Proof.Tests
end

section
/-!
PROOFS. Host writes of card words and registers: bits, the link, registers by their offset, a context's pages (R5, R29, R39 to R42,
R346, R359, R362, R399).
-/
namespace Sys2Proof.Proofs
open Sys2Proof Sys2Proof.Machine Sys2Proof.Laws

/-! ### Bits of numbers and of bit vectors -/

theorem bit_eq_testBit (w n : Nat) : bit w n = w.testBit n := by
  rw [bit, Nat.testBit_eq_decide_div_mod_eq]; rfl

theorem getLsbD_ofNat_eq_bit {w n : Nat} (v : Nat) (h : n < w) : (BitVec.ofNat w v).getLsbD n = bit v n := by
  rw [BitVec.getLsbD_ofNat, bit_eq_testBit, decide_eq_true h, Bool.true_and]

/-- Writing 1 to clear: a bit stays where it was set and is not written with 1. -/
theorem getLsbD_and_not_ofNat {w n : Nat} (x : BitVec w) (v : Nat) (h : n < w) :
    (x &&& ~~~(BitVec.ofNat w v)).getLsbD n = (x.getLsbD n && !bit v n) := by
  rw [BitVec.getLsbD_and, BitVec.getLsbD_not, getLsbD_ofNat_eq_bit v h, decide_eq_true h, Bool.true_and]

theorem getLsbD_ofNat_two_pow_self {w n : Nat} (h : n < w) : (BitVec.ofNat w (2 ^ n)).getLsbD n = true := by
  rw [getLsbD_ofNat_eq_bit _ h, bit_eq_testBit, Nat.testBit_two_pow_self]

/-- A merge takes the bits of its mask from the new word and the others from the old one. -/
theorem bit_mergeBits {mask : Nat} (old new : Nat) {b : Nat} (hm : mask < 2 ^ 64) (hb : b < 64) :
    bit (mergeBits mask old new) b = if bit mask b then bit new b else bit old b := by
  have hnot : (2 ^ 64 - 1 - mask).testBit b = !mask.testBit b := by
    rw [show 2 ^ 64 - 1 - mask = 2 ^ 64 - (mask + 1) by omega, Nat.testBit_two_pow_sub_succ hm]
    simp [hb]
  have hor : (mergeBits mask old new).testBit b =
      ((new.testBit b && mask.testBit b) || (old.testBit b && (2 ^ 64 - 1 - mask).testBit b)) := by
    rw [← Nat.testBit_and, ← Nat.testBit_and, ← Nat.testBit_or]; rfl
  simp only [bit_eq_testBit, hor, hnot]
  cases mask.testBit b <;> simp

theorem bit_toNat_w64 (n : Nat) {b : Nat} (hb : b < 64) : bit (w64 n).toNat b = bit n b := by
  simp only [bit_eq_testBit, w64, BitVec.toNat_ofNat, Nat.testBit_mod_two_pow, hb, decide_true, Bool.true_and]

theorem w64_toNat (v : Word) : w64 v.toNat = v := by simp [w64]

/-! ### What a host write does: its outcome, and memory unchanged -/

/-- The instruction goes on to a state with a property, and every byte of memory reads as before. -/
def Does (s : State) (i : Instr) (p : State → Prop) : Prop := ∃ t, exec i s = .next t ∧ p t ∧ s.sameMemory t

theorem Does.of_mem {s t : State} {i : Instr} {p : State → Prop} (h : exec i s = .next t) (hp : p t) (hm : t.mem = s.mem) :
    Does s i p := ⟨t, h, hp, fun a => by rw [hm]⟩

theorem Does.nothing {s : State} {i : Instr} (h : exec i s = .next s) : Does s i fun t => t = s := .of_mem h rfl rfl

theorem onCtx_up {s : State} {c : Nat} (hl : s.linkUp = true) (hc : s.hasCtx c = true) (f : State → State) :
    s.onCtx c f = f s := by simp [State.onCtx, hl, hc]
theorem onCtx_down {s : State} (hl : s.linkUp = false) (c : Nat) (f : State → State) : s.onCtx c f = s := by
  simp [State.onCtx, hl]
theorem onModule_up {s : State} (hl : s.linkUp = true) (f : State → State) : s.onModule f = f s := by
  simp [State.onModule, hl]
theorem onModule_down {s : State} (hl : s.linkUp = false) (f : State → State) : s.onModule f = s := by
  simp [State.onModule, hl]

@[simp] theorem ctx_modCtx_self (s : State) (c : Nat) (f : Ctx → Ctx) : (s.modCtx c f).ctx c = f (s.ctx c) :=
  ctx_setCtx_self _ _ _

/-- A write to a register of a resident context, the link up. -/
theorem Does.onCtx {s : State} {c : Nat} {f : State → State} {i : Instr} {p : State → Prop} (hl : s.linkUp = true)
    (hc : s.hasCtx c = true) (h : exec i s = .next (s.onCtx c f)) (hp : p (f s)) (hm : (f s).mem = s.mem) : Does s i p :=
  .of_mem (h.trans (congrArg _ (onCtx_up hl hc f))) hp hm
/-- A write that changes fields of the context alone. -/
theorem Does.modCtx {s : State} {c : Nat} {f : Ctx → Ctx} {i : Instr} {p : State → Prop} (hl : s.linkUp = true)
    (hc : s.hasCtx c = true) (h : exec i s = .next (s.onCtx c fun t => t.modCtx c f)) (hp : p (s.modCtx c f)) : Does s i p :=
  .onCtx hl hc h hp rfl
/-- A write to a register of the module, the link up. -/
theorem Does.onModule {s : State} {f : State → State} {i : Instr} {p : State → Prop} (hl : s.linkUp = true)
    (h : exec i s = .next (s.onModule f)) (hp : p (f s)) (hm : (f s).mem = s.mem) : Does s i p :=
  .of_mem (h.trans (congrArg _ (onModule_up hl f))) hp hm

/-! ### Registers by their offset in BAR0 -/

theorem exec_registerWrite_odd {off : Nat} (v : Word) (s : State) (h : off % 8 ≠ 0) : exec (.registerWrite off v) s = .next s :=
  congrArg _ (if_pos h)
theorem exec_registerWrite_page (s : State) (c : Fin 8) (v : Word) {r : Nat} (h8 : r % 8 = 0) (hr : r < 4096) :
    exec (.registerWrite (0x10000 + 4096 * c.val + r) v) s = .next (s.pageWrite c.val r v) := by
  have hc := c.isLt
  have h1 : (0x10000 + 4096 * c.val + r - 0x10000) / 4096 = c.val := by omega
  have h2 : (0x10000 + 4096 * c.val + r) % 4096 = r := by omega
  change execRegisterWrite _ v s = _
  rw [execRegisterWrite, if_neg (by omega), if_pos (by omega), h1, h2]
theorem exec_registerWrite_control (s : State) (c : Fin 8) (v : Word) {r : Nat} (h8 : r % 8 = 0) (hr : r < 4096) :
    exec (.registerWrite (0x18000 + 4096 * c.val + r) v) s = .next (s.controlWrite c.val r v) := by
  have hc := c.isLt
  have h1 : (0x18000 + 4096 * c.val + r - 0x18000) / 4096 = c.val := by omega
  have h2 : (0x18000 + 4096 * c.val + r) % 4096 = r := by omega
  change execRegisterWrite _ v s = _
  rw [execRegisterWrite, if_neg (by omega), if_neg (by omega), if_pos (by omega), h1, h2]
theorem exec_registerWrite_module {off : Nat} (s : State) (v : Word) (h8 : off % 8 = 0) (h : off < 0x10000 ∨ 0x20000 ≤ off) :
    exec (.registerWrite off v) s = .next (s.moduleWrite off v) := by
  change execRegisterWrite _ v s = _
  rw [execRegisterWrite, if_neg (by omega), if_neg (by omega), if_neg (by omega)]

/-! ### With the link down (R399) -/

theorem pageWrite_down {s : State} (hl : s.linkUp = false) (c r : Nat) (v : Word) : s.pageWrite c r v = s := by
  unfold State.pageWrite
  split <;> simp [State.armReg, State.hostCqhead, State.hostCstat, State.hostCint, onCtx_down hl]
theorem controlWrite_down {s : State} (hl : s.linkUp = false) (c r : Nat) (v : Word) : s.controlWrite c r v = s := by
  unfold State.controlWrite
  split <;> simp [State.hostWdkick, State.hostDbgctl, State.hostHalt, State.hostResume, State.hostStep, State.hostStepAll,
    onCtx_down hl]
theorem moduleWrite_down {s : State} (hl : s.linkUp = false) (off : Nat) (v : Word) : s.moduleWrite off v = s := by
  unfold State.moduleWrite
  split <;> simp [State.hostMint, State.hostBbctl, State.hostHurel, State.hostMext, State.hostAtreq, onModule_down hl]
theorem exec_registerWrite_down {s : State} (hl : s.linkUp = false) (off : Nat) (v : Word) :
    exec (.registerWrite off v) s = .next s := by
  change execRegisterWrite off v s = _
  simp [execRegisterWrite, pageWrite_down hl, controlWrite_down hl, moduleWrite_down hl]

/-- The host's writes do nothing while the link is down. -/
theorem does_nothing_down {s : State} (hl : s.linkUp = false) (c : Fin 8) (v : Word) {i : Instr}
    (hi : (∃ off n, i = .cardWindowWrite off n v) ∨ i = .arm c v ∨ i = .cqhead c v ∨ i = .cstat c v ∨
      i = .cint c v ∨ i = .mint v ∨ (∃ n, i = .vectorUnmask n) ∨ i = .wdkick c ∨ i = .halt c ∨ i = .resume c ∨
      (∃ m, i = .step c m ∨ i = .stepall c m) ∨ i = .bbctl v ∨ i = .hurel v ∨ i = .mext v ∨ i = .atreq v ∨
      ∃ off, i = .registerWrite off v) : Does s i fun t => t = s := by
  have ofCtx {j : Instr} {k : Nat} {f : State → State} (h : exec j s = .next (s.onCtx k f)) : Does s j fun t => t = s :=
    .nothing (h.trans (congrArg _ (onCtx_down hl k f)))
  have ofModule {j : Instr} {f : State → State} (h : exec j s = .next (s.onModule f)) : Does s j fun t => t = s :=
    .nothing (h.trans (congrArg _ (onModule_down hl f)))
  obtain ⟨off, n, rfl⟩ | rfl | rfl | rfl | rfl | rfl | ⟨n, rfl⟩ | rfl | rfl | rfl | ⟨m, rfl | rfl⟩ | rfl | rfl | rfl | rfl |
    ⟨off, rfl⟩ := hi
  · exact ofCtx rfl
  · exact ofCtx rfl
  · exact ofCtx rfl
  · exact ofCtx rfl
  · exact ofCtx rfl
  · exact ofModule rfl
  · exact ofModule rfl
  · exact ofCtx rfl
  · exact ofCtx rfl
  · exact ofCtx rfl
  · exact ofCtx rfl
  · exact ofCtx rfl
  · exact ofModule rfl
  · exact ofModule rfl
  · exact ofModule rfl
  · exact ofModule rfl
  · exact .nothing (exec_registerWrite_down hl off v)


/-! ### The card window (R29, R39) -/

theorem hostBits_lt (k : Nat) : hostBits k < 2 ^ 64 := by
  unfold hostBits
  repeat' split
  all_goals omega

theorem cw_setCw_self {x : Ctx} (n k v : Nat) (hr : risingFrom 0 x.cards = true) : (x.setCw n k v).cw n k = (w64 v).toNat :=
  congrArg BitVec.toNat (mgetD_mput_self _ _ _ hr)
theorem cw_setCw_ne {x : Ctx} {n k m j : Nat} (v : Nat) (hr : risingFrom 0 x.cards = true) (h : 32 * m + j ≠ 32 * n + k) :
    (x.setCw n k v).cw m j = x.cw m j := congrArg BitVec.toNat (mgetD_mput_ne _ _ hr h)

/-- A write of eight bytes at a card word's place in the window. -/
theorem exec_cardWindowWrite (s : State) (c : Fin 8) (v : Word) {n k : Nat} (hn : n < 4096) (hk : k < 32) :
    exec (.cardWindowWrite (c.val * 2 ^ 20 + n * 256 + k * 8) 8 v) s =
      .next (s.onCtx c.val fun t => t.modCtx c.val fun x => x.hostCard n k v.toNat) := by
  have h1 : (c.val * 2 ^ 20 + n * 256 + k * 8) / 2 ^ 20 = c.val := by omega
  have h2 : (c.val * 2 ^ 20 + n * 256 + k * 8) / 256 % 4096 = n := by omega
  have h3 : (c.val * 2 ^ 20 + n * 256 + k * 8) / 8 % 32 = k := by omega
  have h4 : (c.val * 2 ^ 20 + n * 256 + k * 8) % 8 = 0 := by omega
  change execCardWindowWrite _ 8 v s = _
  simp only [execCardWindowWrite, h1, h2, h3, h4, and_self, if_true]

theorem hostCard_live {x : Ctx} {n : Nat} (k v : Nat) (h : x.cstate n = 2 ∨ x.cstate n = 3) :
    x.hostCard n k v = { x with cardwerr := true } := by
  rcases h with h | h <;> simp [Ctx.hostCard, h]
theorem hostCard_idle {x : Ctx} {n k v : Nat} (h2 : x.cstate n ≠ 2) (h3 : x.cstate n ≠ 3)
    (h0 : k ≠ 0 ∨ bits v 31 28 ≤ 1 ∨ bits v 31 28 = x.cstate n) :
    x.hostCard n k v = x.setCw n k (mergeBits (hostBits k) (x.cw n k) v) :=
  if_pos (by simpa [h2, h3, or_assoc] using h0)

/-- Nothing is held for the ring: nothing drains. -/
theorem cqDrain_of_none (n : Nat) {u : State} {k : Nat} (h : (u.ctx k).cqheld = []) : u.cqDrain n k = u := by
  cases n with
  | zero => rfl
  | succ n => simp [State.cqDrain, h]

section
variable {s : State} {c : Fin 8} (v : Word) (hl : s.linkUp = true) (hc : s.hasCtx c.val = true)
include hl hc

theorem does_cardWindowWrite_idle {n k : Nat} (hn : n < 4096) (hk : k < 32) (h2 : (s.ctx c).cstate n ≠ 2)
    (h3 : (s.ctx c).cstate n ≠ 3) (h0 : k ≠ 0 ∨ bits v.toNat 31 28 ≤ 1 ∨ bits v.toNat 31 28 = (s.ctx c).cstate n)
    (hr : risingFrom 0 (s.ctx c).cards = true) :
    Does s (.cardWindowWrite (c.val * 2 ^ 20 + n * 256 + k * 8) 8 v) fun t =>
      (∀ b, b < 64 → bit ((t.ctx c).cw n k) b = if bit (hostBits k) b then bit v.toNat b else bit ((s.ctx c).cw n k) b) ∧
        ∀ m j, j < 32 → ¬(m = n ∧ j = k) → (t.ctx c).cw m j = (s.ctx c).cw m j := by
  refine .modCtx hl hc (exec_cardWindowWrite s c v hn hk) ?_
  rw [ctx_modCtx_self, hostCard_idle h2 h3 h0]
  refine ⟨fun b hb => ?_, fun m j hj hne => cw_setCw_ne _ hr (by omega)⟩
  rw [cw_setCw_self _ _ _ hr, bit_toNat_w64 _ hb, bit_mergeBits _ _ (hostBits_lt k) hb]

theorem does_cardWindowWrite_live {n k : Nat} (hn : n < 4096) (hk : k < 32)
    (h : (s.ctx c).cstate n = 2 ∨ (s.ctx c).cstate n = 3) :
    Does s (.cardWindowWrite (c.val * 2 ^ 20 + n * 256 + k * 8) 8 v) fun t =>
      (t.ctx c).cards = (s.ctx c).cards ∧ (t.ctx c).cardwerr = true := by
  refine .modCtx hl hc (exec_cardWindowWrite s c v hn hk) ?_
  rw [ctx_modCtx_self, hostCard_live _ _ h]
  exact ⟨rfl, rfl⟩

/-! ### The context page (R40 to R42) -/

theorem does_arm_running (h : (s.ctx c).stopped = false) :
    Does s (.arm c v) fun t => t.arms = s.arms ++ [(c, v.toNat % 4096, s.hostN)] := by
  refine .onCtx hl hc rfl ?_ ?_ <;> simp [h]

theorem does_arm_stopped (h : (s.ctx c).stopped = true) : Does s (.arm c v) fun t => t = s := by
  refine .onCtx hl hc rfl ?_ ?_ <;> simp [h]

theorem does_cqhead (h : (s.ctx c).cqheld = []) :
    Does s (.cqhead c v) fun t => t.ctx c = { s.ctx c with cqhead := v.toNat % 65536 } := by
  refine .onCtx hl hc rfl ?_ ?_
  all_goals rw [cqDrain_of_none _ (by rw [ctx_modCtx_self]; exact h)]
  · exact ctx_modCtx_self ..
  · exact modCtx_mem ..

theorem does_cstat : Does s (.cstat c v) fun t =>
    (t.ctx c).cardwerr = ((s.ctx c).cardwerr && !bit v.toNat 0) ∧ (t.ctx c).lostBit = ((s.ctx c).lostBit && !bit v.toNat 2) ∧
      (t.ctx c).cqlost = if bit v.toNat 2 then 0 else (s.ctx c).cqlost := by
  refine .modCtx hl hc rfl ?_
  rw [ctx_modCtx_self]
  cases bit v.toNat 0 <;> cases bit v.toNat 2 <;> simp

theorem does_cint : Does s (.cint c v) fun t =>
    ∀ n, n < 3 → (t.ctx c).cint.getLsbD n = ((s.ctx c).cint.getLsbD n && !bit v.toNat n) := by
  refine .modCtx hl hc rfl fun n hn => ?_
  rw [ctx_modCtx_self]
  exact getLsbD_and_not_ofNat _ _ hn

theorem does_cqbase : Does s (.registerWrite (0x10000 + 4096 * c.val + 0x08) v) fun t =>
    t.ctx c = { s.ctx c with cqbase := w64 (v.toNat / 4096 * 4096) } :=
  .modCtx hl hc (exec_registerWrite_page s c v rfl (by decide)) (ctx_modCtx_self ..)
theorem does_ithresh : Does s (.registerWrite (0x10000 + 4096 * c.val + 0x28) v) fun t =>
    t.ctx c = { s.ctx c with ithresh := BitVec.ofNat 16 v.toNat } :=
  .modCtx hl hc (exec_registerWrite_page s c v rfl (by decide)) (ctx_modCtx_self ..)

/-! ### The control page (R346, R359) -/

theorem does_pdrain : Does s (.registerWrite (0x18000 + 4096 * c.val) v) fun t =>
    t.ctx c = { s.ctx c with pdrain := BitVec.ofNat 32 v.toNat } :=
  .modCtx hl hc (exec_registerWrite_control s c v (r := 0) rfl (by decide)) (ctx_modCtx_self ..)
theorem does_pkill : Does s (.registerWrite (0x18000 + 4096 * c.val + 0x08) v) fun t =>
    t.ctx c = { s.ctx c with pkill := BitVec.ofNat 32 v.toNat } :=
  .modCtx hl hc (exec_registerWrite_control s c v rfl (by decide)) (ctx_modCtx_self ..)
theorem does_wdlim : Does s (.registerWrite (0x18000 + 4096 * c.val + 0x20) v) fun t =>
    t.ctx c = { s.ctx c with wdlim := BitVec.ofNat 16 (max 1 (v.toNat % 65536)) } :=
  .modCtx hl hc (exec_registerWrite_control s c v rfl (by decide)) (ctx_modCtx_self ..)
theorem does_wdkick : Does s (.wdkick c) fun t => t.ctx c = { s.ctx c with wdcnt := 0 } :=
  .modCtx hl hc rfl (ctx_modCtx_self ..)

/-! ### Steps of the debugger (R362) -/

theorem does_step (m : Stm) :
    Does s (.step c m) fun t => t.schedule = ⟨0, 0, .dbg c (s.ctx c).dbgsel.toNat m⟩ :: s.schedule :=
  .onCtx hl hc rfl (by simp) rfl
theorem does_stepall_running (m : Stm) (h : (s.ctx c).halted = false) :
    Does s (.stepall c m) fun t => (t.ctx c).dbgres = 3 ∧ t.schedule = s.schedule := by
  refine .onCtx hl hc rfl ?_ ?_ <;> simp [h, modCtx_eq]
theorem does_stepall_halted (m : Stm) (h : (s.ctx c).halted = true) : Does s (.stepall c m) fun t =>
    t.schedule = (((s.coresOf c fun _ => true).filter s.haltedCore).map fun k => ⟨0, 0, .dbg c k m⟩) ++ s.schedule := by
  refine .onCtx hl hc rfl ?_ ?_ <;> simp [h]

end

end Sys2Proof.Proofs
end

section
/-!
PROOFS. Events, interrupts, and a debugger's halt and resume: what they leave alone (R41, R360, R362, R378).
-/
namespace Sys2Proof.Proofs
open Sys2Proof Sys2Proof.Machine Sys2Proof.Laws

/-! ### Events and interrupts (R41, R378): what they leave alone -/

@[simp] theorem logEv_mem (s : State) (e : Ev) : (s.logEv e).mem = s.mem := by unfold State.logEv; split <;> rfl
@[simp] theorem logEv_rxhold (s : State) (e : Ev) : (s.logEv e).rxhold = s.rxhold := by unfold State.logEv; split <;> rfl
@[simp] theorem logEv_ctx (s : State) (e : Ev) (c : Nat) : (s.logEv e).ctx c = s.ctx c := by
  unfold State.logEv; split <;> rfl
@[simp] theorem logEv_core (s : State) (e : Ev) (k : Nat) : (s.logEv e).core k = s.core k := by
  unfold State.logEv; split <;> rfl
@[simp] theorem sendVec_mem (s : State) (n : Nat) : (s.sendVec n).mem = s.mem := by unfold State.sendVec; split <;> rfl
@[simp] theorem sendVec_ctx (s : State) (n c : Nat) : (s.sendVec n).ctx c = s.ctx c := by
  unfold State.sendVec; split <;> rfl
@[simp] theorem sendVec_mint (s : State) (n : Nat) : (s.sendVec n).mint = s.mint := by unfold State.sendVec; split <;> rfl
@[simp] theorem sendVec_atbuild (s : State) (n : Nat) : (s.sendVec n).atbuild = s.atbuild := by
  unfold State.sendVec; split <;> rfl
@[simp] theorem sendVec_atdone (s : State) (n : Nat) : (s.sendVec n).atdone = s.atdone := by
  unfold State.sendVec; split <;> rfl
@[simp] theorem sendVec_atrep (s : State) (n : Nat) : (s.sendVec n).atrep = s.atrep := by
  unfold State.sendVec; split <;> rfl

@[simp] theorem raiseCtx_mem (s : State) (c n : Nat) : (s.raiseCtx c n).mem = s.mem := by
  unfold State.raiseCtx; split <;> simp
@[simp] theorem raiseCtx_halted (s : State) (c n : Nat) : ((s.raiseCtx c n).ctx c).halted = (s.ctx c).halted := by
  unfold State.raiseCtx; split <;> simp
/-- A cause raised stands in CINT. -/
theorem raiseCtx_cint (s : State) (c : Nat) {n : Nat} (hn : n < 3) : ((s.raiseCtx c n).ctx c).cint.getLsbD n = true := by
  unfold State.raiseCtx
  split
  · assumption
  · rw [sendVec_ctx, ctx_modCtx_self, BitVec.getLsbD_or, getLsbD_ofNat_two_pow_self hn, Bool.or_true]

@[simp] theorem raiseMod_mem (s : State) (n : Nat) : (s.raiseMod n).mem = s.mem := by unfold State.raiseMod; split <;> simp
@[simp] theorem raiseMod_atbuild (s : State) (n : Nat) : (s.raiseMod n).atbuild = s.atbuild := by
  unfold State.raiseMod; split <;> simp
@[simp] theorem raiseMod_atdone (s : State) (n : Nat) : (s.raiseMod n).atdone = s.atdone := by
  unfold State.raiseMod; split <;> simp
@[simp] theorem raiseMod_atrep (s : State) (n : Nat) : (s.raiseMod n).atrep = s.atrep := by
  unfold State.raiseMod; split <;> simp
/-- A cause raised stands in MINT. -/
theorem raiseMod_mint (s : State) {n : Nat} (hn : n < 4) : (s.raiseMod n).mint.getLsbD n = true := by
  unfold State.raiseMod
  split
  · assumption
  · rw [sendVec_mint, BitVec.getLsbD_or, getLsbD_ofNat_two_pow_self hn, Bool.or_true]

/-! ### A halt (R360) -/

theorem does_halt {s : State} {c : Fin 8} (hl : s.linkUp = true) (hc : s.hasCtx c.val = true)
    (hs : (s.ctx c).stopped = false) (hh : (s.ctx c).halted = false) :
    Does s (.halt c) fun t => (t.ctx c).halted = true ∧ (t.ctx c).cint.getLsbD 2 = true := by
  refine .onCtx hl hc rfl ?_ ?_
  · simp only [hs, State.haltCtx, hh]
    exact ⟨by simp, raiseCtx_cint _ _ (by decide)⟩
  · simp [hs, State.haltCtx, hh]

/-! ### A resume (R360, R362): draining the holding buffers touches neither memory nor what halts, triggers and packets wait on -/

/-- Memory, the packets held, every core's pending triggers and every context's halt are the same. -/
structure SameWaits (s t : State) : Prop where
  mem : t.mem = s.mem
  rxhold : t.rxhold = s.rxhold
  ptrig : ∀ k, (t.core k).ptrig = (s.core k).ptrig
  halted : ∀ c, (t.ctx c).halted = (s.ctx c).halted

namespace SameWaits
variable {s t u : State}

theorem refl (s : State) : SameWaits s s := ⟨rfl, rfl, fun _ => rfl, fun _ => rfl⟩
theorem trans (h : SameWaits s t) (g : SameWaits t u) : SameWaits s u :=
  ⟨g.mem.trans h.mem, g.rxhold.trans h.rxhold, fun k => (g.ptrig k).trans (h.ptrig k),
    fun c => (g.halted c).trans (h.halted c)⟩

/-- What keeps the waits at every element of a list keeps them over the list. -/
theorem foldl {α : Type} {f : State → α → State} (hf : ∀ t x, SameWaits t (f t x)) (l : List α) (s : State) :
    SameWaits s (l.foldl f s) := by
  induction l generalizing s with
  | nil => exact refl s
  | cons x r ih => exact (hf s x).trans (ih _)

theorem modCore (s : State) (k : Nat) {f : Core → Core} (hf : ∀ c, (f c).ptrig = c.ptrig := by exact fun _ => rfl) :
    SameWaits s (s.modCore k f) where
  mem := rfl
  rxhold := rfl
  halted _ := rfl
  ptrig j := by
    rw [modCore_eq]
    by_cases h : j = k
    · rw [h, core_setCore_self, hf]
    · rw [core_setCore_ne _ _ h]

theorem modCtx (s : State) (n : Nat) {f : Ctx → Ctx} (hf : ∀ x, (f x).halted = x.halted := by exact fun _ => rfl) :
    SameWaits s (s.modCtx n f) where
  mem := rfl
  rxhold := rfl
  ptrig _ := rfl
  halted c := by
    rw [modCtx_eq]
    by_cases h : c = n
    · rw [h, ctx_setCtx_self, hf]
    · rw [ctx_setCtx_ne _ _ h]

theorem logEv (s : State) (e : Ev) : SameWaits s (s.logEv e) :=
  ⟨logEv_mem s e, logEv_rxhold s e, fun k => congrArg _ (logEv_core s e k), fun c => congrArg _ (logEv_ctx s e c)⟩

theorem setGran (s : State) (w : Where) (g : Nat) (x : SGran) : SameWaits s (s.setGran w g x) := by
  cases w with
  | scr k =>
    rw [State.setGran]
    exact modCore s k
  | ela c key =>
    rw [State.setGran]
    exact modCtx s c

theorem engPut (s : State) (v : View) (w : Where) (g : Nat) (data : Gran) (mask : Nat) (pois : Bool) :
    SameWaits s (s.engPut v w g data mask pois) := by
  have put : SameWaits s (s.granPut v w g data mask true) := by
    refine trans ?_ (setGran _ w g _)
    exact ⟨rfl, rfl, fun _ => rfl, fun _ => rfl⟩
  unfold State.engPut
  split
  · exact put.trans (foldl (fun t g => setGran t w g _) _ _)
  · exact put

theorem semAdd (s : State) (k : Nat) (n : Fin 16) (v : Nat) (w : View) : SameWaits s (s.semAdd k n v w) := by
  unfold State.semAdd
  dsimp only
  split
  · exact modCore s k
  · exact trans (modCore s k) (logEv _ _)

theorem semSignal (s : State) (k : Nat) (n : Fin 16) (v ph : Nat) (w : View) : SameWaits s (s.semSignal k n v ph w) :=
  (semAdd s k n v w).trans (modCore _ k fun c => by split <;> rfl)

theorem deliver (s : State) (k : Nat) (h : Held) : SameWaits s (s.deliver k h) := by
  cases h with
  | gran w g data mask pois v => exact engPut s v w g data mask pois
  | sem n v ph w => exact semSignal s k n v ph w
  | ev e =>
    rw [State.deliver]
    refine modCore s k fun c => ?_
    dsimp only
    split <;> rfl
  | elem q x ph =>
    rw [State.deliver]
    refine modCore s k fun c => ?_
    split <;> rfl

theorem drainHeld (s : State) (k : Nat) : SameWaits s (s.drainHeld k) :=
  trans (modCore s k) (foldl (fun t h => deliver t k h) _ _)

end SameWaits

theorem takePending_of_none {s : State} {k : Nat} (h : (s.core k).ptrig = []) : s.takePending k = s := by
  simp [State.takePending, h]
theorem foldl_takePending_of_none {s : State} (h : ∀ k, (s.core k).ptrig = []) (ks : List Nat) :
    ks.foldl State.takePending s = s := by
  induction ks with
  | nil => rfl
  | cons k r ih => rw [List.foldl_cons, takePending_of_none (h k), ih]
theorem redeliver_of_none {s : State} (h : s.rxhold = []) (sel : Packet → Bool) :
    s.redeliver sel = { s with rxhold := [] } := by simp [State.redeliver, h]

theorem does_resume {s : State} {c : Fin 8} (hl : s.linkUp = true) (hc : s.hasCtx c.val = true)
    (hh : (s.ctx c).halted = true) (hp : ∀ k, (s.core k).ptrig = []) (hx : s.rxhold = []) :
    Does s (.resume c) fun t => (t.ctx c).halted = false := by
  let u := (s.modCtx c.val fun x => { x with halted := false }).logEv (Ev.of 0x09 0 c.val)
  let v := (u.coresOf c.val fun _ => true).foldl (fun (x : State) k => (x.drainHeld k).modCore k Core.retry) u
  have huv : SameWaits u v := .foldl (fun t k => (SameWaits.drainHeld t k).trans (.modCore _ k)) _ u
  have hup (k : Nat) : (u.core k).ptrig = [] := by simpa [u, modCtx_eq] using hp k
  have hvp (k : Nat) : (v.core k).ptrig = [] := (huv.ptrig k).trans (hup k)
  have hvx : v.rxhold = [] := huv.rxhold.trans (by simpa [u, modCtx_eq] using hx)
  have hend : exec (.resume c) s = .next { v with rxhold := [] } := by
    change Host.Outcome.next (s.hostResume c.val) = _
    rw [State.hostResume, onCtx_up hl hc]
    simp only [hh, Bool.not_true, Bool.false_eq_true, if_false]
    rw [foldl_takePending_of_none (s := v) hvp, redeliver_of_none hvx]
  exact .of_mem hend ((huv.halted c).trans (by simp [u])) (huv.mem.trans (by simp [u]))

end Sys2Proof.Proofs
end

section
/-!
PROOFS. The module's registers and host memory (R39, R41, R265, R303, R379, R381, R401 to R404).
-/
namespace Sys2Proof.Proofs
open Sys2Proof Sys2Proof.Machine Sys2Proof.Laws

/-! ### The module's registers (R41, R379, R381, R401 to R404) -/

theorem moduleWrite_rqbase (s : State) (v : Word) :
    s.moduleWrite 0x90000 v = s.onModule fun t => { t with rqbase := w64 (v.toNat / 4096 * 4096) } := by
  rw [State.moduleWrite]
theorem moduleWrite_rqtail (s : State) (v : Word) :
    s.moduleWrite 0x90010 v = s.onModule fun t => { t with rqtail := v.toNat % 1024 } := by
  rw [State.moduleWrite]
theorem msixWrite_address (s : State) (n v : Nat) :
    s.msixWrite (2 * n) v = { s with msixTab := mput 0 s.msixTab (2 * n) (w64 (v / 4 * 4)) } := if_pos (by omega)
theorem moduleWrite_msixAddress (s : State) (n : Fin 17) (v : Word) :
    s.moduleWrite (0xA0000 + 16 * n.val) v = s.onModule fun t => t.msixWrite (2 * n.val) v.toNat := by
  have hn := n.isLt
  have hw : (0xA0000 + 16 * n.val - 0xA0000) / 8 = 2 * n.val := by omega
  unfold State.moduleWrite
  split
  case h_10 => rw [if_neg (by omega), if_neg (by omega), if_pos (by omega), hw]
  all_goals omega
/-- A vector's address word reads back as the table holds it. -/
theorem registerRead_msixAddress (s : State) (n : Fin 17) :
    s.registerRead (0xA0000 + 16 * n.val) = mgetD s.msixTab (2 * n.val) 0 := by
  have hn := n.isLt
  have hw : (0xA0000 + 16 * n.val - 0xA0000) / 8 = 2 * n.val := by omega
  rw [State.registerRead, if_neg (by omega), if_neg (by omega), if_neg (by omega)]
  unfold State.moduleRead
  split
  case h_21 =>
    rw [if_neg (by omega), if_neg (by omega), if_neg (by omega), if_neg (by omega), if_neg (by omega), if_neg (by omega),
      if_neg (by omega), if_pos (by omega), hw]
    dsimp only
    rw [if_neg (by omega)]
    exact w64_toNat _
  all_goals omega

section
variable {s : State} (v : Word) (hl : s.linkUp = true)
include hl

theorem does_mint : Does s (.mint v) fun t => ∀ n, n < 4 → t.mint.getLsbD n = (s.mint.getLsbD n && !bit v.toNat n) :=
  .onModule hl rfl (fun _ hn => getLsbD_and_not_ofNat _ _ hn) rfl

theorem does_vectorUnmask (n : Fin 17) (h : s.msixPend.getLsbD n = true) : Does s (.vectorUnmask n) fun t =>
    t.msixSent = s.msixSent ++ [s.msixMsg n.val] ∧ t.msixMask.getLsbD n = false ∧ t.msixPend.getLsbD n = false := by
  have clear (x : BitVec 17) : (x &&& ~~~(BitVec.ofNat 17 (2 ^ n.val))).getLsbD n = false := by
    rw [getLsbD_and_not_ofNat _ _ n.isLt, bit_eq_testBit, Nat.testBit_two_pow_self, Bool.not_true, Bool.and_false]
  have hset : s.setMask n.val false = { s with
      msixMask := s.msixMask &&& ~~~(BitVec.ofNat 17 (2 ^ n.val))
      msixPend := s.msixPend &&& ~~~(BitVec.ofNat 17 (2 ^ n.val))
      msixSent := s.msixSent ++ [s.msixMsg n.val] } := by
    simp [State.setMask, h]
    rfl
  refine .onModule hl rfl ?_ ?_ <;> rw [hset]
  exact ⟨rfl, clear _, clear _⟩

theorem does_msixAddress (n : Fin 17) (hr : risingFrom 0 s.msixTab = true) :
    Does s (.registerWrite (0xA0000 + 16 * n.val) v) fun t =>
      t.registerRead (0xA0000 + 16 * n.val) = w64 (v.toNat / 4 * 4) := by
  have hw := (exec_registerWrite_module s v (off := 0xA0000 + 16 * n.val) (by omega) (by omega)).trans
    (congrArg _ (moduleWrite_msixAddress s n v))
  refine .onModule hl hw ?_ ?_ <;> rw [msixWrite_address]
  rw [registerRead_msixAddress]
  exact mgetD_mput_self _ _ _ hr

theorem does_bbctl (h : bit v.toNat 1 = true) : Does s (.bbctl v) fun t => t.frozen = false ∧ t.bblost = 0 := by
  refine .onModule hl rfl ?_ ?_ <;> simp [h]

theorem does_hurel (h : bit v.toNat 0 = true) :
    Does s (.hurel v) fun t => t.repHeld = false ∧ t.nv.held = false ∧ t.nv.saved = [] ∧ t.nv.store = [] := by
  refine .onModule hl rfl ?_ ?_ <;> simp [h]

theorem does_mext (h : 4 ≤ v.toNat % 8) : Does s (.mext v) fun t =>
    t.mr[(Fin.ofNat 8 v.toNat : Fin 8)] = extendMr s.mr[(Fin.ofNat 8 v.toNat : Fin 8)] s.mextd ∧
      ∀ n : Fin 8, n.val ≠ v.toNat % 8 → t.mr[n] = s.mr[n] := by
  have hn : Fin.ofNat 8 (v.toNat % 8) = Fin.ofNat 8 v.toNat := Fin.ext (Nat.mod_mod _ _)
  refine .onModule hl rfl ?_ ?_ <;> simp only [h, if_true, hn, State.extend]
  refine ⟨by simp, fun n hne => ?_⟩
  simp [Fin.ofNat, Ne.symm hne]

theorem does_atreq (h : bit v.toNat 0 = true) (hb : s.atbuild = none) :
    Does s (.atreq v) fun t => t.atbuild.isSome = true ∧ t.atdone = false := by
  refine .onModule hl rfl ?_ ?_ <;> cases bit v.toNat 2 <;> simp [h, hb]

theorem does_attestationReportDone {ws : List Word} (hb : s.atbuild = some ws) : Does s .attestationReportDone fun t =>
    t.atbuild = none ∧ t.atdone = true ∧ t.atrep.take ws.length = ws ∧ t.mint.getLsbD 2 = true := by
  let u : State := { s with atbuild := none, atdone := true, atrep := ws ++ packWords (sign (unpackWords ws)) }
  have hend : exec .attestationReportDone s = .next (u.raiseMod 2) := by
    change execAttestationReportDone s = _
    simp only [execAttestationReportDone, hb, hl, if_true, u]
  refine .of_mem hend ⟨raiseMod_atbuild u 2, raiseMod_atdone u 2, ?_, raiseMod_mint u (by decide)⟩ (raiseMod_mem u 2)
  rw [raiseMod_atrep, List.take_left']
  rfl

theorem does_plim (h : 900 ≤ v.toNat % 65536) (h' : v.toNat % 65536 ≤ 1800) :
    Does s (.registerWrite 0x28 v) fun t => t.plim = BitVec.ofNat 16 v.toNat := by
  refine .onModule hl (exec_registerWrite_module s v rfl (.inl (by decide))) ?_ ?_ <;> simp [h, h']
theorem does_plim_outside (h : v.toNat % 65536 < 900 ∨ 1800 < v.toNat % 65536) :
    Does s (.registerWrite 0x28 v) fun t => t = s := by
  have hn : ¬(900 ≤ v.toNat % 65536 ∧ v.toNat % 65536 ≤ 1800) := by omega
  refine .onModule hl (exec_registerWrite_module s v rfl (.inl (by decide))) ?_ ?_ <;> rw [if_neg hn]
theorem does_rqbase : Does s (.registerWrite 0x90000 v) fun t => t.rqbase = w64 (v.toNat / 4096 * 4096) :=
  .onModule hl ((exec_registerWrite_module s v rfl (.inr (by omega))).trans (congrArg _ (moduleWrite_rqbase s v))) rfl rfl
theorem does_rqtail : Does s (.registerWrite 0x90010 v) fun t => t.rqtail = v.toNat % 1024 :=
  .onModule hl ((exec_registerWrite_module s v rfl (.inr (by omega))).trans (congrArg _ (moduleWrite_rqtail s v))) rfl rfl

end

/-! ### Host memory (R39, R265, R303) -/

theorem setAll_cons (m : List Host.Cell) (c : Host.Cell) (r : List Host.Cell) :
    Memory.setAll m (c :: r) = Memory.setAll (Memory.set m c.1 c.2) r := rfl
theorem cellsAt_cons (a : Nat) (b : Byte) (bs : List Byte) : cellsAt a (b :: bs) = (a, b) :: cellsAt (a + 1) bs := rfl

/-- The bytes of a run of cells are read back at their addresses, and every other byte is left alone. -/
theorem memory_get_setAll_cellsAt {m : List Host.Cell} (a : Nat) (bs : List Byte) (h : Memory.wf m = true) (j : Nat) :
    Memory.get (Memory.setAll m (cellsAt a bs)) j =
      if a ≤ j ∧ j < a + bs.length then bs.getD (j - a) 0 else Memory.get m j := by
  induction bs generalizing m a with
  | nil => rw [if_neg (by rw [List.length_nil]; omega)]; rfl
  | cons b r ih =>
    rw [cellsAt_cons, setAll_cons, ih _ (memory_set_wf a b h), List.length_cons]
    by_cases hj : j = a
    · subst hj
      rw [if_neg (by omega), if_pos (by omega), Nat.sub_self, memory_get_set_self _ b h]
      rfl
    · rw [memory_get_set_ne b h hj]
      by_cases hin : a + 1 ≤ j ∧ j < a + 1 + r.length
      · rw [if_pos hin, if_pos (by omega), show j - a = j - (a + 1) + 1 by omega, List.getD_cons_succ]
      · rw [if_neg hin, if_neg (by omega)]

theorem mem_upto {x lo n : Nat} : x ∈ upto lo n ↔ lo ≤ x ∧ x < lo + n := by
  induction n generalizing lo with
  | zero => simp [upto]
  | succ n ih => rw [upto, List.mem_cons, ih]; omega
theorem addr_of_mem_cellsAt {a : Nat} {bs : List Byte} {e : Host.Cell} (h : e ∈ cellsAt a bs) :
    a ≤ e.1 ∧ e.1 < a + bs.length := mem_upto.1 (List.of_mem_zip h).1

/-- Nothing is cached and no host write waits: none waits now. -/
theorem hostWaits_of_none {s : State} (hw : s.ways = []) (hr : s.rowHold = []) (a : Nat) : s.hostWaits a = false := by
  simp [State.hostWaits, State.rowsPinned, State.waysOf, hw, hr]
@[simp] theorem perform_mem (s : State) (g : Nat) (v : View) (cells : List Host.Cell) :
    (s.perform g v cells).mem = Memory.setAll s.mem cells := by
  unfold State.perform
  split
  · next h => rw [List.isEmpty_iff.1 h]; rfl
  · rfl
theorem hostWrite_mem_of_none {s : State} (hw : s.ways = []) (hr : s.rowHold = []) (cells : List Host.Cell) :
    (s.hostWrite cells).mem = Memory.setAll s.mem cells := by
  have hall : cells.filter (fun c => !s.hostWaits c.1) = cells :=
    List.filter_eq_self.2 fun c _ => by rw [hostWaits_of_none hw hr]; rfl
  simp [State.hostWrite, hall]

/-- A write of the host's own memory needs no link. -/
theorem hostLinkWrite_hostMemory {s : State} {a : Nat} {data : List Byte} (ha : hostBase ≤ a)
    (hb : a + data.length ≤ hostBase + 2 ^ 51) (hw : s.ways = []) (hr : s.rowHold = []) (hm : Memory.wf s.mem = true) :
    ∃ t, exec (.hostLinkWrite a data) s = .next t ∧
      ∀ m, Memory.get t.mem m = if a ≤ m ∧ m < a + data.length then data.getD (m - a) 0 else Memory.get s.mem m := by
  have hall : (cellsAt a data).filter (fun c => s.hostReaches c.1) = cellsAt a data := by
    refine List.filter_eq_self.2 fun c hc => ?_
    obtain ⟨h1, h2⟩ := addr_of_mem_cellsAt hc
    rw [State.hostReaches, decide_eq_true (by omega), Bool.true_or]
  refine ⟨_, rfl, fun m => ?_⟩
  rw [hall, hostWrite_mem_of_none hw hr, memory_get_setAll_cellsAt _ _ hm]

end Sys2Proof.Proofs
end

section
/-!
PROOFS. The host's register writes, settled.
-/
namespace Sys2Proof.Proofs
open Sys2Proof Sys2Proof.Machine Sys2Proof.Laws

/-- Settles O51, register by register; a resume by what the holding buffers leave alone. -/
theorem hostRegisterWrites : Obligations.HostRegisterWrites := by
  unfold Obligations.HostRegisterWrites
  intro s c v
  refine ⟨fun hl hc => ⟨fun n k hn hk => ⟨?_, ?_⟩, ?_, ?_, ?_, ?_, ?_, ?_, ?_, ?_, ?_, ?_, ?_, ?_, ?_, ?_⟩, fun hl =>
    ⟨?_, ?_, ?_, ?_, ?_, ?_, ?_, ?_, ?_, ?_, ?_, ?_⟩, fun off h => ?_, fun hl i hi => ?_, fun a data => ?_⟩
  · exact does_cardWindowWrite_idle v hl hc hn hk
  · exact does_cardWindowWrite_live v hl hc hn hk
  · exact does_arm_running v hl hc
  · exact does_arm_stopped v hl hc
  · exact does_cqhead v hl hc
  · exact does_cstat v hl hc
  · exact does_cint v hl hc
  · exact does_wdkick hl hc
  · exact does_halt hl hc
  · exact does_resume hl hc
  · exact fun m => ⟨does_step hl hc m, does_stepall_running hl hc m, does_stepall_halted hl hc m⟩
  · exact does_ithresh v hl hc
  · exact does_cqbase v hl hc
  · exact does_pdrain v hl hc
  · exact does_pkill v hl hc
  · exact does_wdlim v hl hc
  · exact does_mint v hl
  · exact does_vectorUnmask hl
  · exact does_msixAddress v hl
  · exact does_bbctl v hl
  · exact does_hurel v hl
  · exact does_mext v hl
  · exact does_atreq v hl
  · exact fun ws => does_attestationReportDone hl
  · exact does_plim v hl
  · exact does_plim_outside v hl
  · exact does_rqbase v hl
  · exact does_rqtail v hl
  · exact Does.nothing (exec_registerWrite_odd v s h)
  · exact does_nothing_down hl c v hi
  · exact hostLinkWrite_hostMemory

end Sys2Proof.Proofs
end

section
/-!
PROOFS. Campion's placement: a card word's fields, what a start of a block rests on, the start of one block and of a list of them
(R17, R36, R66, R67).
-/
namespace Sys2Proof.Proofs
open Sys2Proof Sys2Proof.Machine Sys2Proof.Laws

/-! ### Card words (R28, R30) -/

theorem risingFrom_mput {α : Type} [DecidableEq α] {m : List (Nat × α)} (d : α) (k : Nat) (v : α) (h : risingFrom 0 m = true) :
    risingFrom 0 (mput d m k v) = true := by
  unfold mput
  split
  · exact risingFrom_mdel k h
  · exact risingFrom_mset v h (Nat.zero_le k)
theorem risingFrom_setCw {x : Ctx} (n w v : Nat) (h : risingFrom 0 x.cards = true) : risingFrom 0 (x.setCw n w v).cards = true :=
  risingFrom_mput _ _ _ h
theorem risingFrom_setCf {x : Ctx} (n w hi lo v : Nat) (h : risingFrom 0 x.cards = true) :
    risingFrom 0 (x.setCf n w hi lo v).cards = true := risingFrom_setCw _ _ _ h

/-- A STATE written is the card's state. -/
theorem cstate_setCf_state {x : Ctx} {n v : Nat} (h : risingFrom 0 x.cards = true) (hv : v < 16) :
    (x.setCf n 0 31 28 v).cstate n = v := by
  have hw : x.cw n 0 < 2 ^ 64 := BitVec.isLt _
  rw [Ctx.cstate, Ctx.cf, Ctx.setCf, cw_setCw_self _ _ _ h, w64, BitVec.toNat_ofNat, putBits, bits, bits]
  omega

/-! ### Contexts after a write of one of them -/

/-- What a write of a context leaves of a field that it does not name. -/
theorem field_modCtx {α : Type} (g : Ctx → α) {f : Ctx → Ctx} (s : State) (n c : Nat) (h : ∀ x, g (f x) = g x) :
    g ((s.modCtx n f).ctx c) = g (s.ctx c) := by
  by_cases hc : c = n
  · rw [hc, ctx_modCtx_self, h]
  · rw [modCtx_eq, ctx_setCtx_ne _ _ hc]

theorem core_modCore_self (s : State) (k : Nat) (f : Core → Core) : (s.modCore k f).core k = f (s.core k) :=
  core_setCore_self _ _ _
theorem core_modCore_ne (s : State) {k j : Nat} (f : Core → Core) (h : j ≠ k) : (s.modCore k f).core j = s.core j :=
  core_setCore_ne _ _ h

/-! ### What the start of a block rests on -/

/-- Memory, the leases, and of one context its extents, its jobs and that it runs: what the start of a block reads. -/
structure SameGround (c : Nat) (s t : State) : Prop where
  mem : t.mem = s.mem
  leases : t.leases = s.leases
  exts : (t.ctx c).exts = (s.ctx c).exts
  jobs : (t.ctx c).jobs = (s.ctx c).jobs
  stopped : (t.ctx c).stopped = (s.ctx c).stopped

theorem SameGround.trans {c : Nat} {s t u : State} (h : SameGround c s t) (g : SameGround c t u) : SameGround c s u :=
  ⟨g.mem.trans h.mem, g.leases.trans h.leases, g.exts.trans h.exts, g.jobs.trans h.jobs, g.stopped.trans h.stopped⟩

namespace SameGround
variable {c : Nat} {s t : State} (h : SameGround c s t)
include h

theorem lapsed (x : Extent) : t.lapsed c x = s.lapsed c x := by
  unfold State.lapsed State.leased
  rw [h.leases]
theorem imageAt (j : Job) : t.imageAt c j = s.imageAt c j := by
  simp only [State.imageAt, Ctx.findExt, h.exts, h.lapsed]
theorem peek (a n : Nat) : t.peek a n = s.peek a n := by
  unfold State.peek
  rw [h.mem]
theorem headerAt (a : Nat) : t.headerAt a = s.headerAt a := by simp only [State.headerAt, h.peek]
theorem lineOf (b : Resident) (n : Nat) : t.lineOf b n = s.lineOf b n := by simp only [State.lineOf, h.peek]
theorem targetFault (b : Resident) (n : Nat) : t.targetFault b n = s.targetFault b n := by
  unfold State.targetFault
  rw [h.lineOf]

end SameGround

/-! ### An entry leaves its queue for its cores (R59, R67) -/

/-- A reservation is all that the choice of the next placement may add. -/
theorem reserve_eq (s : State) : ∃ r, s.reserve = { s with resv := r } := by
  unfold State.reserve
  split
  · exact ⟨s.resv, rfl⟩
  · dsimp only
    split_ifs
    · exact ⟨s.resv, rfl⟩
    · exact ⟨s.resv, rfl⟩
    · exact ⟨_, rfl⟩

/-- A grant may draw a free value and changes nothing else. -/
theorem grantFor_eq (s : State) (c card gang die : Nat) : ∃ n, (s.grantFor c card gang die).2 = { s with free := n } := by
  unfold State.grantFor
  split
  · exact ⟨s.free, rfl⟩
  · exact ⟨_, rfl⟩

/-- The state in which the members of an entry start: out of its queue, its gang's grant fixed. -/
def outOfQueue (s : State) (lvl : Nat) (e : REntry) (ks : List Nat) : State :=
  (s.unqueue lvl e).placeGang e.ctx.val e.card ((s.entryRec e).elim 0 fun r => r.gang) (ks.headD 0 / 64)

theorem outOfQueue_ctx (s : State) (lvl : Nat) (e : REntry) (ks : List Nat) :
    ∃ g, (outOfQueue s lvl e ks).ctx e.ctx.val = { s.ctx e.ctx.val with gangs := g } := by
  obtain ⟨n, hn⟩ := grantFor_eq (s.unqueue lvl e) e.ctx.val e.card ((s.entryRec e).elim 0 fun r => r.gang) (ks.headD 0 / 64)
  rw [outOfQueue, State.placeGang, ctx_modCtx_self, hn]
  exact ⟨_, rfl⟩
theorem sameGround_outOfQueue (s : State) (lvl : Nat) (e : REntry) (ks : List Nat) :
    SameGround e.ctx.val s (outOfQueue s lvl e ks) := by
  obtain ⟨g, hg⟩ := outOfQueue_ctx s lvl e ks
  obtain ⟨n, hn⟩ := grantFor_eq (s.unqueue lvl e) e.ctx.val e.card ((s.entryRec e).elim 0 fun r => r.gang) (ks.headD 0 / 64)
  refine ⟨?_, ?_, by rw [hg], by rw [hg], by rw [hg]⟩ <;> rw [outOfQueue, State.placeGang, hn] <;> rfl

/-- The members of an entry start one after the other, while their context runs. -/
def startAll (s : State) (c card : Nat) (ps : List (Nat × Nat)) : State :=
  ps.foldl (fun t x => if (t.ctx c).stopped then t else t.startBlock c (gkey card x.1) x.2) s

theorem placeNext_of_fresh {s : State} {l : Nat} {e : REntry} {ks : List Nat} (h : s.reserve.nextPlacement = some (l, e, ks))
    (hs : (s.ctx e.ctx.val).stale e.card = false) :
    s.placeNext e.gang = startAll (outOfQueue s.reserve l e ks) e.ctx.val e.card (e.blocks.zip ks) := by
  obtain ⟨r, hr⟩ := reserve_eq s
  have hs' : (s.reserve.ctx e.ctx.val).stale e.card = false := by rw [hr]; exact hs
  simp only [State.placeNext, h, beq_self_eq_true, if_true, State.placeEntry, hs', Bool.false_eq_true, if_false]
  rfl

/-! ### The start of one block (R17, R36, R66) -/

/-- A card whose job is ARMED runs from now on. -/
def runCard (u : Ctx) (card time : Nat) : Ctx :=
  if u.cstate card == 2 then (u.setCw card 24 time).setCf card 0 31 28 3 else u
/-- What the start of a record's block on core k changes in its context: the record names the core, its checkpoint slot is
free, its job is RUNNING. -/
def startRec (u : Ctx) (key k time : Nat) (r : Rec) : Ctx :=
  let v := runCard u r.card time
  { v with
    recs := mset v.recs key { r with core := some k, ckpt := none }
    cks := r.ckpt.elim v.cks fun n => mdel v.cks n }

theorem runCard_eq (u : Ctx) (card time : Nat) : ∃ q, runCard u card time = { u with cards := q } := by
  unfold runCard
  split
  · exact ⟨_, rfl⟩
  · exact ⟨u.cards, rfl⟩
theorem risingFrom_runCard {u : Ctx} (card time : Nat) (h : risingFrom 0 u.cards = true) :
    risingFrom 0 (runCard u card time).cards = true := by
  unfold runCard
  split
  · exact risingFrom_setCf _ _ _ _ _ (risingFrom_setCw _ _ _ h)
  · exact h
/-- A job that is ARMED or RUNNING is RUNNING. -/
theorem cstate_runCard {u : Ctx} {card : Nat} (time : Nat) (h : risingFrom 0 u.cards = true)
    (hc : u.cstate card = 2 ∨ u.cstate card = 3) : (runCard u card time).cstate card = 3 := by
  unfold runCard
  split
  · exact cstate_setCf_state (risingFrom_setCw _ _ _ h) (by decide)
  · next hn => exact hc.resolve_left (by simpa using hn)

theorem startRec_eq (u : Ctx) (key k time : Nat) (r : Rec) : startRec u key k time r = { u with
    cards := (runCard u r.card time).cards
    recs := mset u.recs key { r with core := some k, ckpt := none }
    cks := r.ckpt.elim u.cks fun n => mdel u.cks n } := by
  obtain ⟨q, h⟩ := runCard_eq u r.card time
  rw [startRec, h]

/-- The state of a start but for the core's own: the context told, nothing of an earlier block left to read back to. -/
def startCtx (s : State) (c key k : Nat) (r : Rec) : State :=
  (s.cutHist k).modCtx c fun u => startRec u key k s.rtime r

section
variable (s : State) (c key k : Nat) (r : Rec)

theorem startCtx_ctx : (startCtx s c key k r).ctx c = startRec (s.ctx c) key k s.rtime r := ctx_modCtx_self _ _ _
theorem sameGround_startCtx : SameGround c s (startCtx s c key k r) := by
  have h' := (startCtx_ctx s c key k r).trans (startRec_eq ..)
  exact ⟨rfl, rfl, by rw [h'], by rw [h'], by rw [h']⟩

end

/-- A block without a checkpoint whose image and entry line are good starts afresh. -/
theorem startBlock_fresh {s : State} {c key k ext img : Nat} {r : Rec} {j : Job} (hr : mget (s.ctx c).recs key = some r)
    (hj : mget (s.ctx c).jobs r.card = some j) (hck : r.ckpt = none) (hi : s.imageAt c j = .ok (ext, img))
    (hf : ∀ b : Resident, b.hdr = s.headerAt img → b.img = img → s.targetFault b (hbits j.hdr 1 39 16) = none) :
    ∃ llc, s.startBlock c key k = (startCtx s c key k r).modCore k fun o =>
      o.freshStart (s.resident c j r llc (w64 (wd j.snap 6)) img ext k) j r.view s.wseq := by
  refine ⟨((mget (s.ctx c).gangs (gkey r.card r.gang)).bind fun g => g.grant).getD 0, ?_⟩
  have hf' := hf (s.resident c j r (((mget (s.ctx c).gangs (gkey r.card r.gang)).bind fun g => g.grant).getD 0)
    (w64 (wd j.snap 6)) img ext k) rfl rfl
  rw [← (sameGround_startCtx s c key k r).targetFault] at hf'
  unfold State.startBlock
  simp only [hr, hj, hck, hi, Option.bind_none, Option.elim_none]
  unfold startCtx startRec runCard at *
  simp only [hck, Option.elim_none] at *
  split
  · next code hc => exact absurd (hf'.symm.trans hc) (by simp)
  · rfl

/-! ### A core that has started a block (R17, R36) -/

/-- Core and record of a block that has started afresh on a core, by its card's snapshot. -/
def Started (s : State) (e : REntry) (j : Job) (img : Nat) (t : State) (x : Nat × Nat) : Prop :=
  ∃ b, (t.core x.2).blk = some b ∧ b.ctx = e.ctx ∧ b.card = e.card ∧ b.block = x.1 ∧
    b.hdr = s.headerAt img ∧ b.img = img ∧ b.frame = w64 (wd j.snap 6) ∧
    (∀ i, i < 4 → b.jarg[i]? = j.snap[8 + i]?) ∧ (∀ i, i < 8 → b.trip[i]? = some (BitVec.ofNat 32 (j.trips.getD i 0))) ∧
    (∀ m, ((t.core x.2).str m).pos = ⟨hbits j.hdr 1 39 16, 1, 0⟩ ∧ ∀ i : Fin 8, ((t.core x.2).str m).lc[i] =
      if loopKind j.hdr i.val < 2 then 0 else BitVec.ofNat 32 (blockCoord j.hdr j.trips x.1 i.val)) ∧
    ∃ r, mget (t.ctx e.ctx.val).recs (gkey e.card x.1) = some r ∧ r.core = some x.2

theorem Started.congr {s t u : State} {e : REntry} {j : Job} {img : Nat} {x : Nat × Nat} (h : Started s e j img t x)
    (hc : u.core x.2 = t.core x.2)
    (hr : mget (u.ctx e.ctx.val).recs (gkey e.card x.1) = mget (t.ctx e.ctx.val).recs (gkey e.card x.1)) :
    Started s e j img u x := by
  unfold Started at *
  rwa [hc, hr]

theorem freshStart_blk (c : Core) (b : Resident) (j : Job) (v : View) (n : Nat) : (c.freshStart b j v n).blk = some b := rfl
theorem freshStart_pos (c : Core) (b : Resident) (j : Job) (v : View) (n : Nat) (m : Stm) :
    ((c.freshStart b j v n).str m).pos = ⟨hbits j.hdr 1 39 16, 1, 0⟩ := by cases m <;> rfl
theorem freshStart_lc (c : Core) (b : Resident) (j : Job) (v : View) (n : Nat) (m : Stm) (i : Fin 8) :
    ((c.freshStart b j v n).str m).lc[i] =
      if loopKind j.hdr i.val < 2 then 0 else BitVec.ofNat 32 (blockCoord j.hdr j.trips b.block i.val) := by
  have h : ((c.freshStart b j v n).str m).lc = (startStream j b.block).lc := by cases m <;> rfl
  rw [h, startStream]
  simp

theorem resident_jarg (s : State) (c : Nat) (j : Job) (r : Rec) (llc : Nat) (f : Word) (img ext k : Nat) {i : Nat} (hi : i < 4) :
    (s.resident c j r llc f img ext k).jarg[i]? = j.snap[8 + i]? := by
  simp [State.resident, hi]
theorem resident_trip (s : State) (c : Nat) (j : Job) (r : Rec) (llc : Nat) (f : Word) (img ext k : Nat) {i : Nat} (hi : i < 8) :
    (s.resident c j r llc f img ext k).trip[i]? = some (BitVec.ofNat 32 (j.trips.getD i 0)) := by
  have h : (upto 0 8)[i]? = some i := by interval_cases i <;> rfl
  rw [State.resident, List.getElem?_map, h, Option.map_some]

/-- The key of a block's record tells the blocks of a card apart. -/
theorem gkey_ne {card a b : Nat} (h : a ≠ b) : gkey card a ≠ gkey card b := by
  unfold gkey
  omega

/-- The blocks of a list of blocks and cores have records without checkpoints. -/
def Waiting (t : State) (e : REntry) (ps : List (Nat × Nat)) : Prop :=
  ∀ p ∈ ps, ∃ r, mget (t.ctx e.ctx.val).recs (gkey e.card p.1) = some r ∧ r.card = e.card ∧ r.block = p.1 ∧ r.ckpt = none

/-- What the starts of blocks on cores, in turn, have made of state u: they rest on what they did, each core has its block, the
other cores and the other blocks' records are as they were, and the job runs. -/
structure Starts (s : State) (e : REntry) (j : Job) (img : Nat) (ps : List (Nat × Nat)) (u t : State) : Prop where
  ground : SameGround e.ctx.val u t
  started : ∀ p ∈ ps, Started s e j img t p
  cores : ∀ k, k ∉ ps.map Prod.snd → t.core k = u.core k
  recs : ∀ b, b ∉ ps.map Prod.fst → mget (t.ctx e.ctx.val).recs (gkey e.card b) = mget (u.ctx e.ctx.val).recs (gkey e.card b)
  cards : risingFrom 0 (u.ctx e.ctx.val).cards = true → risingFrom 0 (t.ctx e.ctx.val).cards = true ∧
    ((u.ctx e.ctx.val).cstate e.card = 3 ∨ ps ≠ [] ∧ (u.ctx e.ctx.val).cstate e.card = 2 → (t.ctx e.ctx.val).cstate e.card = 3)

theorem Starts.nil (s : State) (e : REntry) (j : Job) (img : Nat) (u : State) : Starts s e j img [] u u where
  ground := ⟨rfl, rfl, rfl, rfl, rfl⟩
  started := by simp
  cores _ _ := rfl
  recs _ _ := rfl
  cards h := ⟨h, fun hc => hc.resolve_right (by simp)⟩

theorem Starts.cons {s u v t : State} {e : REntry} {j : Job} {img : Nat} {p : Nat × Nat} {ps : List (Nat × Nat)}
    (h : Starts s e j img [p] u v) (g : Starts s e j img ps v t) (hb : p.1 ∉ ps.map Prod.fst) (hk : p.2 ∉ ps.map Prod.snd) :
    Starts s e j img (p :: ps) u t where
  ground := h.ground.trans g.ground
  started q hq := by
    rcases List.mem_cons.1 hq with rfl | hq
    · exact (h.started q List.mem_cons_self).congr (g.cores q.2 hk) (g.recs q.1 hb)
    · exact g.started q hq
  cores k hn := by
    rw [List.map_cons, List.mem_cons, not_or] at hn
    rw [g.cores k hn.2, h.cores k (by simpa using hn.1)]
  recs b hn := by
    rw [List.map_cons, List.mem_cons, not_or] at hn
    rw [g.recs b hn.2, h.recs b (by simpa using hn.1)]
  cards hr := by
    obtain ⟨hv, h3⟩ := h.cards hr
    exact ⟨(g.cards hv).1, fun hc => (g.cards hv).2 (.inl (h3 (hc.imp_right fun x => ⟨by simp, x.2⟩)))⟩

section
variable {s u : State} {e : REntry} {j : Job} {ext img : Nat}
  (hj : mget (s.ctx e.ctx.val).jobs e.card = some j) (hi : s.imageAt e.ctx.val j = .ok (ext, img))
  (hf : ∀ b : Resident, b.hdr = s.headerAt img → b.img = img → s.targetFault b (hbits j.hdr 1 39 16) = none)
include hj hi hf

theorem startBlock_starts {b k : Nat} {r : Rec} (hg : SameGround e.ctx.val s u)
    (hr : mget (u.ctx e.ctx.val).recs (gkey e.card b) = some r) (hc : r.card = e.card) (hb : r.block = b)
    (hck : r.ckpt = none) : Starts s e j img [(b, k)] u (u.startBlock e.ctx.val (gkey e.card b) k) := by
  obtain ⟨llc, hv⟩ := startBlock_fresh (s := u) (k := k) (ext := ext) (img := img) hr (by rw [hg.jobs, hc]; exact hj) hck
    (by rw [hg.imageAt]; exact hi) (by rw [hg.headerAt]; simpa only [hg.targetFault] using hf)
  rw [hv]
  have hctx := (startCtx_ctx u e.ctx.val (gkey e.card b) k r).trans (startRec_eq ..)
  obtain ⟨h1, h2, h3, h4, h5⟩ := sameGround_startCtx u e.ctx.val (gkey e.card b) k r
  refine ⟨⟨h1, h2, h3, h4, h5⟩, fun p hp => ?_, fun n hn => ?_, fun a ha => ?_, fun hrise => ?_⟩
  · cases List.mem_singleton.1 hp
    refine ⟨u.resident e.ctx.val j r llc (w64 (wd j.snap 6)) img ext k, ?_, ?_, hc, hb, hg.headerAt img, rfl, rfl,
      fun i hi => resident_jarg _ _ _ _ _ _ _ _ _ hi, fun i hi => resident_trip _ _ _ _ _ _ _ _ _ hi, fun m => ?_,
      { r with core := some k, ckpt := none }, ?_, rfl⟩
    · rw [core_modCore_self, freshStart_blk]
    · simp [State.resident]
    · rw [core_modCore_self]
      refine ⟨freshStart_pos .., fun i => (freshStart_lc ..).trans ?_⟩
      rw [← hb]
      rfl
    · rw [State.modCore, ctx_setCore, hctx]
      exact mget_mset_self ..
  · rw [core_modCore_ne _ _ (by simpa using hn)]
    rfl
  · rw [State.modCore, ctx_setCore, hctx]
    exact mget_mset_ne _ _ (gkey_ne (by simpa using ha))
  · rw [State.modCore, ctx_setCore, hctx]
    refine ⟨risingFrom_runCard _ _ hrise, fun h => ?_⟩
    rw [← hc] at h ⊢
    exact cstate_runCard _ hrise (h.symm.imp_left And.right)

theorem startAll_starts (hs : (s.ctx e.ctx.val).stopped = false) {ps : List (Nat × Nat)} (hg : SameGround e.ctx.val s u)
    (hb : (ps.map Prod.fst).Nodup) (hk : (ps.map Prod.snd).Nodup) (hw : Waiting u e ps) :
    Starts s e j img ps u (startAll u e.ctx.val e.card ps) := by
  induction ps generalizing u with
  | nil => exact .nil ..
  | cons p ps ih =>
    rw [List.map_cons, List.nodup_cons] at hb hk
    obtain ⟨r, hr, hrc, hrb, hrk⟩ := hw p List.mem_cons_self
    have h := startBlock_starts hj hi hf (k := p.2) hg hr hrc hrb hrk
    have hstep : startAll u e.ctx.val e.card (p :: ps) =
        startAll (u.startBlock e.ctx.val (gkey e.card p.1) p.2) e.ctx.val e.card ps := by
      rw [startAll, List.foldl_cons, hg.stopped, hs]
      rfl
    rw [hstep]
    refine h.cons (ih (hg.trans h.ground) hb.2 hk.2 fun q hq => ?_) hb.1 hk.1
    rw [h.recs q.1 fun hqp => hb.1 (List.mem_singleton.1 hqp ▸ List.mem_map_of_mem hq)]
    exact hw q (List.mem_cons_of_mem _ hq)

end

theorem nodup_map_fst_zip {α β : Type} {l : List α} (k : List β) (h : l.Nodup) : ((l.zip k).map Prod.fst).Nodup := by
  rw [List.zip_eq_zip_take_min, List.map_fst_zip (by simp)]
  exact h.sublist (List.take_sublist ..)
theorem nodup_map_snd_zip {α β : Type} (l : List α) {k : List β} (h : k.Nodup) : ((l.zip k).map Prod.snd).Nodup := by
  rw [List.zip_eq_zip_take_min, List.map_snd_zip (by simp)]
  exact h.sublist (List.take_sublist ..)

theorem exec_placement {s : State} (h : s.down = false) (g : Bool) :
    exec (if g then .gangPlacement else .launch) s = .next (s.placeNext g) := by
  cases g
  · change execLaunch s = _
    simp [execLaunch, h]
  · change execGangPlacement s = _
    simp [execGangPlacement, h]

/-- The state in which an entry's blocks start rests on the same ground as the state before the placement. -/
theorem sameGround_placed (s : State) (l : Nat) (e : REntry) (ks : List Nat) :
    SameGround e.ctx.val s (outOfQueue s.reserve l e ks) := by
  obtain ⟨r, hr⟩ := reserve_eq s
  obtain ⟨h1, h2, h3, h4, h5⟩ := sameGround_outOfQueue s.reserve l e ks
  rw [hr] at *
  exact ⟨h1, h2, h3, h4, h5⟩
theorem placed_ctx (s : State) (l : Nat) (e : REntry) (ks : List Nat) :
    ∃ g, (outOfQueue s.reserve l e ks).ctx e.ctx.val = { s.ctx e.ctx.val with gangs := g } := by
  obtain ⟨r, hr⟩ := reserve_eq s
  obtain ⟨g, hg⟩ := outOfQueue_ctx s.reserve l e ks
  rw [hr] at *
  exact ⟨g, hg⟩

/-- Campion's next placement, of one block or of a gang without checkpoints (R17, R36, R66, R67). -/
theorem placement_starts {s : State} (hd : s.down = false) {l : Nat} {e : REntry} {ks : List Nat} {j : Job} {ext img : Nat}
    (hn : s.reserve.nextPlacement = some (l, e, ks)) (hst : (s.ctx e.ctx.val).stale e.card = false)
    (hs : (s.ctx e.ctx.val).stopped = false) (hj : mget (s.ctx e.ctx.val).jobs e.card = some j)
    (hi : s.imageAt e.ctx.val j = .ok (ext, img)) (hb : e.blocks.Nodup) (hk : ks.Nodup)
    (hr : ∀ b ∈ e.blocks, ∃ r, mget (s.ctx e.ctx.val).recs (gkey e.card b) = some r ∧ r.card = e.card ∧ r.block = b ∧
      r.ckpt = none)
    (hf : ∀ b : Resident, b.hdr = s.headerAt img → b.img = img → s.targetFault b (hbits j.hdr 1 39 16) = none) :
    ∃ t, exec (if e.gang then .gangPlacement else .launch) s = .next t ∧ s.sameMemory t ∧
      (∀ x ∈ e.blocks.zip ks, Started s e j img t x) ∧
      (risingFrom 0 (s.ctx e.ctx.val).cards = true → e.blocks.zip ks ≠ [] → (s.ctx e.ctx.val).cstate e.card = 2 →
        (t.ctx e.ctx.val).cstate e.card = 3) := by
  obtain ⟨g, hu⟩ := placed_ctx s l e ks
  have hw : Waiting (outOfQueue s.reserve l e ks) e (e.blocks.zip ks) := fun p hp => by
    rw [hu]
    exact hr p.1 (List.of_mem_zip hp).1
  have h := startAll_starts hj hi hf hs (sameGround_placed s l e ks) (nodup_map_fst_zip ks hb) (nodup_map_snd_zip e.blocks hk) hw
  refine ⟨_, (exec_placement hd e.gang).trans (congrArg _ (placeNext_of_fresh hn hst)), fun a => ?_, h.started, fun h1 h2 h3 => ?_⟩
  · rw [((sameGround_placed s l e ks).trans h.ground).mem]
  · have hc := h.cards
    rw [hu] at hc
    exact (hc h1).2 (.inr ⟨h2, h3⟩)

end Sys2Proof.Proofs
end

section
/-!
PROOFS. A block resumes from its checkpoint, a job's near-memory run starts, an entry ages (R37, R68, R327, R353, R356, R357).
-/
namespace Sys2Proof.Proofs
open Sys2Proof Sys2Proof.Machine Sys2Proof.Laws

/-! ### The resume of a block (R353, R356, R357) -/

theorem retranslate_of_none (s : State) (c : Nat) (h : Handle) : s.retranslate c [] h = .ok h := by
  simp [State.retranslate]
/-- With no extent revoked since the checkpoint the handles stay as saved. -/
theorem retranslateAll_of_none {s : State} {k : Nat} (h : (s.core k).retr = []) :
    ∃ p, s.retranslateAll k = s.modCore k fun c => { c with prec := p, retr := [], tfault := none } := by
  have hf : s.resumeFault k = none := by
    simp only [State.resumeFault, h, retranslate_of_none, List.findSome?_eq_none_iff]
    exact fun _ _ _ _ => trivial
  refine ⟨{ (s.core k).prec with regs := { (s.core k).prec.regs with h := (s.core k).r.h } }, ?_⟩
  simp only [State.retranslateAll, hf, modCore_eq, h, retranslate_of_none]
  simp

/-- The core of a block that has resumed, but for its phase record. -/
def resumedCore (o : Core) (b : Resident) (ck : Ckpt) (v : View) (wseq : Nat) (p : PhaseRec) : Core :=
  { o.resume b ck v wseq with prec := p, retr := [], tfault := none }

/-- A block with a checkpoint, no extent revoked since, resumes from it. -/
theorem startBlock_resume {s : State} {c key k n ext img : Nat} {r : Rec} {j : Job} {ck : Ckpt}
    (hr : mget (s.ctx c).recs key = some r) (hj : mget (s.ctx c).jobs r.card = some j) (hck : r.ckpt = some n)
    (hn : mget (s.ctx c).cks n = some ck) (hi : s.imageAt c j = .ok (ext, img)) (hv : ck.revoked = [])
    (hrev : (s.ctx c).revs = []) :
    ∃ llc p, s.startBlock c key k = (startCtx s c key k r).modCore k fun o =>
      resumedCore o (s.resident c j r llc ck.frame img ext k) ck r.view s.wseq p := by
  have hro : ck.revoked ++ (s.ctx c).revoking = [] := by simp [hv, Ctx.revoking, hrev]
  let llc := ((mget (s.ctx c).gangs (gkey r.card r.gang)).bind fun g => g.grant).getD 0
  let s2 := (startCtx s c key k r).modCore k fun o =>
    { o.resume (s.resident c j r llc ck.frame img ext k) ck r.view s.wseq with retr := [] }
  let s3 := s2.modCore k fun o => { o with prec := { o.prec with efp := s2.efpOf k } }
  obtain ⟨p, hp⟩ := retranslateAll_of_none (s := s3) (k := k) (by simp only [s3, s2, core_modCore_self])
  have hstart : s.startBlock c key k = s3.retranslateAll k := by
    unfold State.startBlock
    simp only [hr, hj, hck, hi, Option.bind_some, hn, Option.elim_some, hro]
    simp only [s3, s2, startCtx, startRec, runCard, hck, Option.elim_some]
    rfl
  refine ⟨llc, p, ?_⟩
  rw [hstart, hp]
  simp only [s3, s2, modCore_eq, core_setCore_self, setCore_setCore]
  rfl

theorem resumedCore_str (o : Core) (b : Resident) (ck : Ckpt) (u : View) (wseq : Nat) (p : PhaseRec) (m : Stm) :
    let v := (resumedCore o b ck u wseq p).str m
    let w := ck.regs.str m
    v.pos = w.pos ∧ v.s = w.s ∧ v.p = w.p ∧ v.lc = w.lc ∧ v.llim = w.llim ∧ v.rstk = w.rstk ∧ v.tflags = w.tflags := by
  cases m <;> exact ⟨rfl, rfl, rfl, rfl, rfl, rfl, rfl⟩

/-- What a resume leaves of its core, its record and its slot. -/
theorem launch_resumes {s : State} (hd : s.down = false) {l : Nat} {e : REntry} {k b n : Nat} {ck : Ckpt} {j : Job} {r : Rec}
    {ext img : Nat} (hn : s.reserve.nextPlacement = some (l, e, [k])) (hg : e.gang = false) (hb : e.blocks = [b])
    (hst : (s.ctx e.ctx.val).stale e.card = false) (hs : (s.ctx e.ctx.val).stopped = false)
    (hj : mget (s.ctx e.ctx.val).jobs e.card = some j) (hi : s.imageAt e.ctx.val j = .ok (ext, img))
    (hr : mget (s.ctx e.ctx.val).recs (gkey e.card b) = some r) (hc : r.card = e.card) (hck : r.ckpt = some n)
    (hk : mget (s.ctx e.ctx.val).cks n = some ck) (hv : ck.revoked = []) (hrev : (s.ctx e.ctx.val).revs = []) :
    ∃ t o w wseq p, exec .launch s = .next t ∧ t.mem = s.mem ∧ t.core k = resumedCore o w ck r.view wseq p ∧
      w.ctx = e.ctx ∧ w.card = e.card ∧ w.block = r.block ∧ w.frame = ck.frame ∧
      (t.ctx e.ctx.val).recs = mset (s.ctx e.ctx.val).recs (gkey e.card b) { r with core := some k, ckpt := none } ∧
      (t.ctx e.ctx.val).cks = mdel (s.ctx e.ctx.val).cks n := by
  obtain ⟨g, hu⟩ := placed_ctx s l e [k]
  have hground := sameGround_placed s l e [k]
  obtain ⟨llc, p, hstart⟩ := startBlock_resume (s := outOfQueue s.reserve l e [k]) (c := e.ctx.val) (key := gkey e.card b)
    (k := k) (by rw [hu]; exact hr) (by rw [hu, hc]; exact hj) hck (by rw [hu]; exact hk) (by rw [hground.imageAt]; exact hi) hv
    (by rw [hu]; exact hrev)
  have hall : startAll (outOfQueue s.reserve l e [k]) e.ctx.val e.card [(b, k)] =
      (outOfQueue s.reserve l e [k]).startBlock e.ctx.val (gkey e.card b) k := by
    rw [startAll, List.foldl_cons, hground.stopped, hs]
    rfl
  have hctx := (startCtx_ctx (outOfQueue s.reserve l e [k]) e.ctx.val (gkey e.card b) k r).trans (startRec_eq ..)
  have hexec := (exec_placement hd e.gang).trans (congrArg Host.Outcome.next (placeNext_of_fresh hn hst))
  rw [hg, hb, List.zip_cons_cons, List.zip_nil_left, hall, hstart] at hexec
  refine ⟨_, _, _, _, _, hexec, ?_, core_modCore_self .., Fin.ofNat_val_eq_self _, hc, rfl, rfl, ?_, ?_⟩
  · exact (hground.trans (sameGround_startCtx _ _ (gkey e.card b) k r)).mem
  · rw [modCore_eq, ctx_setCore, hctx, hu]
  · rw [modCore_eq, ctx_setCore, hctx, hu, hck]
    rfl

/-! ### The start of a job's near-memory run (R37, R327) -/

theorem startRun_ctx (s : State) (x : NmRun) (c : Nat) : (s.startRun x).ctx c = s.ctx c := rfl

theorem exec_variantRunStart {s : State} {c : Fin 8} {n : Fin 4096} {j : Job} (hj : mget (s.ctx c.val).jobs n.val = some j)
    (ha : s.ctxActs c.val = true) (hs : (s.ctx c.val).cstate n.val = 2) (hv : (s.ctx c.val).cf n.val 17 21 21 = 1)
    (hr : j.nmrun = none) (hl : (s.links.any fun l => l.ctx == c && l.card == n.val) = false)
    (hf : (s.ctx c.val).nmFault j.nmdesc j.trips = none)
    (he : s.leaseFaultOf c.val ((s.ctx c.val).nmExts j.nmdesc) = none) :
    ∃ t e, exec (.variantRunStart c n) s = .next t ∧ t.nextRun = s.nextRun + 1 ∧ t.mem = s.mem ∧
      t.runs = mset s.runs s.nextRun (newRun c none (some n.val) none 0 j.nmdesc j.trips e) ∧
      (t.ctx c.val).cards = (((s.ctx c.val).setCw n.val 24 s.rtime).setCf n.val 0 31 28 3).cards := by
  have hexec : exec (.variantRunStart c n) s = execVariantRunStart c n s := rfl
  simp only [execVariantRunStart, hj, ha, Bool.not_true, Bool.false_eq_true, hs, ne_eq, not_true_eq_false, hv, one_ne_zero,
    hr, Option.isSome_none, hl, or_self, if_false, hf, he, Option.orElse_eq_orElse, Option.orElse_eq_or, Option.or_self] at hexec
  refine ⟨_, _, hexec, rfl, rfl, rfl, ?_⟩
  rw [startRun_ctx, ctx_modCtx_self]
  dsimp only [State.newAgent, State.ctx]

/-! ### Aging (R68) -/

/-- A record that has risen to a level at a time. -/
def aged (lvl : Nat) (time : BitVec 32) (x : Rec) : Rec := { x with prio := lvl, enqt := time }
/-- The records of a card after some of its blocks have risen. -/
def ageRecs (card lvl : Nat) (time : BitVec 32) (bs : List Nat) (m : Map Rec) : Map Rec :=
  bs.foldl (fun m b => match mget m (gkey card b) with
    | some x => mset m (gkey card b) (aged lvl time x)
    | none => m) m

theorem mget_ageRecs {card lvl : Nat} {time : BitVec 32} (bs : List Nat) {m : Map Rec} {b : Nat} {x : Rec}
    (h : mget m (gkey card b) = some x) :
    mget (ageRecs card lvl time bs m) (gkey card b) = some (if b ∈ bs then aged lvl time x else x) := by
  induction bs generalizing m x with
  | nil => simpa [ageRecs] using h
  | cons a bs ih =>
    rw [ageRecs, List.foldl_cons]
    by_cases hab : b = a
    · subst hab
      rw [h]
      refine (ih (mget_mset_self ..)).trans ?_
      simp only [List.mem_cons, true_or, if_true]
      split <;> rfl
    · have hm : mget (match mget m (gkey card a) with
          | some y => mset m (gkey card a) (aged lvl time y)
          | none => m) (gkey card b) = some x := by
        split
        · rw [mget_mset_ne _ _ (gkey_ne hab), h]
        · exact h
      refine (ih hm).trans ?_
      simp [hab]

@[simp] theorem appendReady_ctx (s : State) (l : Nat) (e : REntry) (c : Nat) : (s.appendReady l e).ctx c = s.ctx c := rfl

section
variable (s : State) (l : Nat) (e : REntry)

theorem ageEntry_mem : (s.ageEntry l e).mem = s.mem := rfl
theorem ageEntry_recs :
    ((s.ageEntry l e).ctx e.ctx.val).recs = ageRecs e.card (l + 1) s.enqt e.blocks (s.ctx e.ctx.val).recs := by
  rw [State.ageEntry, appendReady_ctx, ctx_modCtx_self]
  rfl
theorem ageEntry_leaves : (s.ageEntry l e).ready[Fin.ofNat 64 l] = s.ready[Fin.ofNat 64 l].erase e := by
  have hne : ¬ (l + 1) % 64 = l % 64 := by omega
  simp [State.ageEntry, State.appendReady, modCtx_eq, Fin.ofNat, hne]
theorem ageEntry_joins : (s.ageEntry l e).ready[Fin.ofNat 64 (l + 1)] = s.ready[Fin.ofNat 64 (l + 1)] ++ [e] := by
  have hne : ¬ l % 64 = (l + 1) % 64 := by omega
  simp [State.ageEntry, State.appendReady, modCtx_eq, Fin.ofNat, hne]

end

/-- The one entry that is due is the one that rises. -/
theorem exec_aging {s : State} (hd : s.down = false) {l : Nat} {e : REntry} {r : Rec}
    (h : (s.entries.filter fun x => decide (x.1 ≤ 58)) = [(l, e)]) (hr : s.entryRec e = some r)
    (hq : 250 ≤ (s.enqt - r.enqt).toNat) : exec .aging s = .next (s.ageEntry l e) := by
  have hl : l ≤ 58 := by
    have hmem : (l, e) ∈ s.entries.filter fun x => decide (x.1 ≤ 58) := by simp [h]
    simpa using (List.mem_filter.1 hmem).2
  have hdue : s.entries.filter s.ageDue = [(l, e)] := by
    have hsplit : s.ageDue = fun x => decide (x.1 ≤ 58) && s.ageDue x := by
      funext x
      rw [State.ageDue, ← Bool.and_assoc, Bool.and_self]
    have hthis : s.ageDue (l, e) = true := by
      simp only [State.ageDue, hr, decide_eq_true hl, Option.any_some, decide_eq_true hq, Bool.and_self]
    rw [hsplit, ← List.filter_filter, List.filter_comm, h]
    simp [hthis]
  change execAging s = _
  simp only [execAging, hd, hdue]
  rfl

end Sys2Proof.Proofs
end

section
/-!
PROOFS. Pre-emption, the count of cores: the victim that is taken, and that a core held or idle for the newcomer is enough (R66, R67,
R351).
-/
namespace Sys2Proof.Proofs
open Sys2Proof Sys2Proof.Machine Sys2Proof.Laws

/-! ### Sparse maps, cut at a key -/

/-- A write at a key that a map holds replaces the entry in its place. -/
theorem mset_split {α : Type} {m : List (Nat × α)} {k : Nat} {x : α} (h : mget m k = some x) :
    ∃ l r, m = l ++ (k, x) :: r ∧ ∀ v, mset m k v = l ++ (k, v) :: r := by
  induction m with
  | nil => simp at h
  | cons a m ih =>
    obtain ⟨i, y⟩ := a
    simp only [mget] at h
    split at h
    · next hi =>
      cases h
      exact ⟨[], m, by rw [hi]; rfl, fun v => by rw [mset, if_pos hi, hi]; rfl⟩
    · next hi =>
      split at h
      · cases h
      · next hlt =>
        obtain ⟨l, r, hm, hv⟩ := ih h
        exact ⟨(i, y) :: l, r, by rw [hm]; rfl, fun v => by rw [mset, if_neg hi, if_neg hlt, hv]; rfl⟩

/-- A core with a block stands in the map of cores. -/
theorem mget_core_of_blk {s : State} {k : Nat} (h : (s.core k).blk.isSome = true) : mget s.cores k = some (s.core k) := by
  unfold State.core mgetD at *
  cases hm : mget s.cores k with
  | none => simp [hm, Core.init] at h
  | some c => rfl

/-! ### The victim that is chosen (R351) -/

/-- The better of the best so far and the next. -/
def keepBest {α : Type} (p : α → α → Bool) (best : Option α) (v : α) : Option α :=
  match best with
  | none => some v
  | some b => if p b v then some b else some v

theorem keepBest_eq {α : Type} {p : α → α → Bool} {a : Option α} {x : α} : keepBest p a x = some x ∨ keepBest p a x = a := by
  cases a with
  | none => exact .inl rfl
  | some b =>
    rw [keepBest]
    split
    · exact .inr rfl
    · exact .inl rfl
theorem mem_of_foldl_keepBest {α : Type} (p : α → α → Bool) (l : List α) {a : Option α} {v : α}
    (h : l.foldl (keepBest p) a = some v) : v ∈ l ∨ a = some v := by
  induction l generalizing a with
  | nil => exact .inr h
  | cons x l ih =>
    rw [List.foldl_cons] at h
    rcases ih h with h | h
    · exact .inl (List.mem_cons_of_mem _ h)
    · rcases keepBest_eq (p := p) (a := a) (x := x) with hx | hx <;> rw [hx] at h
      · cases h
        exact .inl List.mem_cons_self
      · exact .inr h

/-- The group chosen is that of a core which may be taken. -/
theorem exists_of_bestVictims {s : State} {lvl tokens : Nat} {ds : List Nat} {v : Victims}
    (h : s.bestVictims lvl ds tokens = some v) : ∃ j, s.mayTake lvl ds j = true ∧ s.victimsOf lvl ds j = some v := by
  have h' : ((s.cores.filterMap fun e => if s.mayTake lvl ds e.1 then s.victimsOf lvl ds e.1 else none).filter fun v =>
      decide (v.cost ≤ tokens)).foldl (keepBest s.victimBefore) none = some v := by
    rw [← h, State.bestVictims]
    congr 1
    funext best v
    cases best <;> rfl
  have hmem := (mem_of_foldl_keepBest _ _ h').resolve_right (by simp)
  obtain ⟨x, -, hx⟩ := List.mem_filterMap.1 (List.mem_filter.1 hmem).1
  exact ⟨x.1, (Option.ite_none_right_eq_some.1 hx).1, (Option.ite_none_right_eq_some.1 hx).2⟩

/-- The cores of the gang whose member runs on core k. -/
def gangCoresOf (s : State) (k : Nat) : List Nat :=
  s.coresOf (s.core k).res.ctx.val fun x => x.card == (s.core k).res.card && x.gang == (s.core k).res.gang

/-- The actions that are available on its members. -/
def actionsOf (s : State) (k : Nat) : List (Nat × PreAct) :=
  (gangCoresOf s k).filterMap fun j => (s.preAct j).map fun a => (j, a)
/-- A kill of one is a kill of all (R185). -/
def together (acts : List (Nat × PreAct)) : List (Nat × PreAct) :=
  if acts.any fun a => a.2 == .kill then acts.map fun a => (a.1, PreAct.kill) else acts

theorem victimsOf_eq_some {s : State} {lvl j : Nat} {ds : List Nat} {v : Victims} (h : s.victimsOf lvl ds j = some v) :
    (∀ i ∈ gangCoresOf s j, s.mayTake lvl ds i = true) ∧ (actionsOf s j).length = (gangCoresOf s j).length ∧
      v.cores = together (actionsOf s j) := by
  have h' : (if !((gangCoresOf s j).all fun i => s.mayTake lvl ds i) ∨
        (gangCoresOf s j).length ≠ ((s.ctx (s.core j).res.ctx.val).gangRecs (s.core j).res.card (s.core j).res.gang).length ∨
        (actionsOf s j).length ≠ (gangCoresOf s j).length then none
      else if (s.ctx (s.core j).res.ctx.val).ckfree < ((together (actionsOf s j)).filter fun a => a.2 == .ckpt).length then none
      else some ⟨together (actionsOf s j), ((together (actionsOf s j)).map fun a => a.2.code).sum⟩) = some v := h
  obtain ⟨hok, h'⟩ := Option.ite_none_left_eq_some.1 h'
  obtain ⟨-, h'⟩ := Option.ite_none_left_eq_some.1 h'
  cases h'
  simp only [not_or, Bool.not_eq_true', Bool.not_eq_false, not_not, List.all_eq_true] at hok
  exact ⟨hok.1, hok.2.2, rfl⟩

theorem together_map_fst (acts : List (Nat × PreAct)) : (together acts).map Prod.fst = acts.map Prod.fst := by
  unfold together
  split
  · rw [List.map_map]
    rfl
  · rfl
theorem actionsOf_map_fst {s : State} {k : Nat} (h : (actionsOf s k).length = (gangCoresOf s k).length) :
    (actionsOf s k).map Prod.fst = gangCoresOf s k := by
  have hsub : (actionsOf s k).map Prod.fst = (gangCoresOf s k).filter fun j => (s.preAct j).isSome := by
    unfold actionsOf
    induction gangCoresOf s k with
    | nil => rfl
    | cons j l ih => cases hj : s.preAct j <;> simp [hj, ih]
  rw [hsub]
  exact List.filter_sublist.eq_of_length (by rw [← hsub, List.length_map, h])

/-- A group that is one core is that core's whole gang, the core in a gang of its own. -/
theorem bestVictims_single {s : State} {lvl tokens k n : Nat} {ds : List Nat} {a : PreAct}
    (h : s.bestVictims lvl ds tokens = some ⟨[(k, a)], n⟩) : s.mayTake lvl ds k = true ∧ gangCoresOf s k = [k] := by
  obtain ⟨j, hj, hv⟩ := exists_of_bestVictims h
  obtain ⟨hall, hlen, hcores⟩ := victimsOf_eq_some hv
  have hks : gangCoresOf s j = [k] := by
    rw [← actionsOf_map_fst hlen, ← together_map_fst, ← hcores]
    rfl
  have hjk : j ∈ gangCoresOf s j := by
    simp only [State.mayTake, Bool.and_eq_true] at hj
    obtain ⟨⟨⟨⟨⟨-, hfree⟩, -⟩, -⟩, hblk⟩, -⟩ := hj
    obtain ⟨l, r, hm, -⟩ := mset_split (mget_core_of_blk hblk)
    refine List.mem_filterMap.2 ⟨(j, s.core j), by simp [hm], if_pos ?_⟩
    obtain ⟨b, hb⟩ := Option.isSome_iff_exists.1 hblk
    have hmark : (s.core j).mark ≠ .dying := fun hd => by rw [hd] at hfree; cases hfree
    simp [hmark, hb, Core.res]
  rw [hks, List.mem_singleton] at hjk
  subst hjk
  exact ⟨hj, hks⟩

/-! ### Levels and reservations (R67) -/

/-- Whether an entry of a name stands at level 63 or above is a matter of the queue of level 63. -/
theorem levelOf_any_top (s : State) (n : Nat × Nat × Nat) :
    ((s.levelOf n).any fun l => decide (63 ≤ l)) = s.ready[(63 : Fin 64)].any fun e => e.name == n := by
  have hsplit : s.entries = (s.ready[(63 : Fin 64)].map fun e => (63, e)) ++
      (upto 1 63).flatMap fun k => (s.ready[63 - k]!).map fun e => (63 - k, e) := rfl
  have hlow : ∀ x ∈ (upto 1 63).flatMap fun k => (s.ready[63 - k]!).map fun e => (63 - k, e), x.1 < 63 := fun x hx => by
    obtain ⟨k, hk, hx⟩ := List.mem_flatMap.1 hx
    obtain ⟨e, -, rfl⟩ := List.mem_map.1 hx
    have := (mem_upto.1 hk).1
    dsimp only
    omega
  rw [State.levelOf, hsplit, List.find?_append, List.find?_map]
  cases hf : s.ready[(63 : Fin 64)].find? fun e => e.name == n with
  | some e =>
    have he := List.find?_some hf
    have hm := List.mem_of_find?_eq_some hf
    simp only [Function.comp_def, hf, Option.map_some, Option.some_or, Option.any_some, le_refl, decide_true]
    exact (List.any_eq_true.2 ⟨e, hm, he⟩).symm
  | none =>
    simp only [Function.comp_def, hf, Option.map_none, Option.none_or, Option.any_map]
    rw [List.find?_eq_none] at hf
    rw [List.any_eq_false.2 hf]
    cases hg : List.find? (fun e => e.2.name == n) ((upto 1 63).flatMap fun k => (s.ready[63 - k]!).map fun e => (63 - k, e)) with
    | none => rfl
    | some x => simpa using hlow x (List.mem_of_find?_eq_some hg)

/-! ### Cores free or held for the newcomer (R351) -/

/-- The cores of a die held for an entry whose victims still run. -/
def heldOn (s : State) (e : REntry) (d : Nat) : Nat :=
  (s.cores.filter fun x => x.2.heldFor == some e.name && x.2.blk.isSome && x.1 / 64 == d).length

theorem enoughFor_of_on {s : State} {lvl d : Nat} {e : REntry} {ds : List Nat} (hd : d ∈ ds)
    (h : e.blocks.length ≤ (s.coresFor lvl e d).length + heldOn s e d) : s.enoughFor lvl e ds = true :=
  List.any_eq_true.2 ⟨d, hd, decide_eq_true h⟩

/-- Cores held for others come last, and count all the same. -/
theorem coresFor_length (s : State) (lvl : Nat) (e : REntry) (d : Nat) :
    (s.coresFor lvl e d).length = ((s.idleCores d).filter fun j => !s.heldFrom j lvl e).length := by
  rw [State.coresFor, List.length_append, Nat.add_comm]
  exact (List.length_eq_length_filter_add fun j => s.heldOther j e).symm

theorem die_of_mem_idleCores {s : State} {d j : Nat} (h : j ∈ s.idleCores d) : j / 64 = d := by
  obtain ⟨x, -, hx⟩ := List.mem_filterMap.1 h
  obtain ⟨⟨hd, -⟩, hj⟩ := Option.ite_none_right_eq_some.1 hx
  cases hj
  exact hd

/-- State t is state s but for core k, taken for the newcomer e of level 63: what its count of cores turns on. -/
structure Taken (e : REntry) (k : Nat) (s t : State) (c : Core) : Prop where
  blk : (s.core k).blk.isSome = true
  unheld : (s.core k).heldFor = none
  cores : t.cores = mset s.cores k c
  held : c.heldFor = some e.name
  top : t.ready[(63 : Fin 64)] = s.ready[(63 : Fin 64)]

namespace Taken
variable {e : REntry} {k : Nat} {s t : State} {c : Core} (h : Taken e k s t c)
include h

theorem core_self : t.core k = c := by
  unfold State.core
  rw [h.cores, mgetD_mset_self]
theorem core_ne {j : Nat} (hj : j ≠ k) : t.core j = s.core j := by
  unfold State.core
  rw [h.cores, mgetD_mset_ne _ _ _ hj]

/-- A core keeps from the newcomer what others hold. -/
theorem heldFrom {j : Nat} (hr : t.reservedCores (j / 64) = s.reservedCores (j / 64)) :
    t.heldFrom j 63 e = s.heldFrom j 63 e := by
  unfold State.heldFrom
  rw [hr]
  congr 1
  by_cases hj : j = k
  · simp [hj, h.core_self, h.held, h.unheld]
  · simp only [h.core_ne hj, levelOf_any_top, h.top]

theorem idle_old : (s.core k).idle = false := by
  rw [Core.idle, Option.isNone_eq_false_iff.2 h.blk, Bool.and_false]

/-- A core whose victim still runs is held for the newcomer. -/
theorem held_of_blk (hb : c.blk.isSome = true) :
    t.idleCores (k / 64) = s.idleCores (k / 64) ∧ heldOn t e (k / 64) = heldOn s e (k / 64) + 1 := by
  obtain ⟨l, r, hs, hv⟩ := mset_split (mget_core_of_blk h.blk)
  have ht := h.cores.trans (hv c)
  have hi : c.idle = false := by rw [Core.idle, Option.isNone_eq_false_iff.2 hb, Bool.and_false]
  constructor
  · simp only [State.idleCores, ht, hs, List.filterMap_append, List.filterMap_cons, hi, h.idle_old, Bool.false_eq_true,
      and_false, if_false]
  · simp only [heldOn, ht, hs, List.filter_append, List.filter_cons, h.held, h.unheld, hb, h.blk]
    simp only [beq_self_eq_true, Bool.and_self, Option.none_beq_some, Bool.false_and, Bool.false_eq_true, if_true, if_false,
      List.length_append, List.length_cons]
    omega

/-- A core that its victim has left is idle. -/
theorem idle_of_left (hb : c.blk = none) (hi : c.inServ = true) (p : Nat → Bool) (hp : p k = true) :
    ((t.idleCores (k / 64)).filter p).length = ((s.idleCores (k / 64)).filter p).length + 1 ∧
      heldOn t e (k / 64) = heldOn s e (k / 64) := by
  obtain ⟨l, r, hs, hv⟩ := mset_split (mget_core_of_blk h.blk)
  have ht := h.cores.trans (hv c)
  have hi : c.idle = true := by rw [Core.idle, hb, hi]; rfl
  constructor
  · simp only [State.idleCores, ht, hs, List.filterMap_append, List.filterMap_cons, hi, h.idle_old, Bool.false_eq_true,
      and_false, and_true, if_false, if_true, List.filter_append, List.filter_cons, hp, List.length_append, List.length_cons]
    omega
  · simp only [heldOn, ht, hs, List.filter_append, List.filter_cons, h.unheld, hb]
    simp

/-- One core less was missing: with it there are enough. -/
theorem enough_of_blk {ds : List Nat} (hd : k / 64 ∈ ds) (hb : c.blk.isSome = true)
    (hr : t.ready = s.ready ∧ t.resv = s.resv ∨ t.resv = [] ∧ s.resv = [])
    (hn : e.blocks.length = (s.coresFor 63 e (k / 64)).length + heldOn s e (k / 64) + 1) : t.enoughFor 63 e ds = true := by
  obtain ⟨hidle, hheld⟩ := h.held_of_blk hb
  have hres : t.reservedCores (k / 64) = s.reservedCores (k / 64) := by
    rcases hr with ⟨hready, hresv⟩ | ⟨ht, hs⟩
    · simp only [State.reservedCores, State.entries, hready, hresv, hidle]
    · simp only [State.reservedCores, ht, hs, mget_nil, Option.bind_none]
  refine enoughFor_of_on hd ?_
  rw [coresFor_length, hidle, hheld, List.filter_congr fun j hj => ?_, ← coresFor_length, hn, Nat.add_assoc]
  rw [h.heldFrom (by rw [die_of_mem_idleCores hj, hres])]

theorem enough_of_left {ds : List Nat} (hd : k / 64 ∈ ds) (hb : c.blk = none) (hi : c.inServ = true)
    (ht : t.resv = []) (hs : s.resv = [])
    (hn : e.blocks.length = (s.coresFor 63 e (k / 64)).length + heldOn s e (k / 64) + 1) : t.enoughFor 63 e ds = true := by
  have hfrom (j : Nat) : t.heldFrom j 63 e = s.heldFrom j 63 e :=
    h.heldFrom (by simp only [State.reservedCores, ht, hs, mget_nil, Option.bind_none])
  have hk : (!s.heldFrom k 63 e) = true := by
    simp [State.heldFrom, h.unheld, State.reservedCores, hs]
  obtain ⟨hidle, hheld⟩ := h.idle_of_left hb hi (fun j => !s.heldFrom j 63 e) hk
  refine enoughFor_of_on hd ?_
  rw [coresFor_length, hheld]
  simp only [hfrom]
  rw [hidle, ← coresFor_length, hn]
  omega

end Taken

end Sys2Proof.Proofs
end

section
/-!
PROOFS. Pre-emption, the victim: what a choice, a kill and a requeue change (R185, R271, R351, R352).
-/
namespace Sys2Proof.Proofs
open Sys2Proof Sys2Proof.Machine Sys2Proof.Laws

/-! ### What the bookkeeping of a kill leaves alone -/

section
variable (x : Ctx) (n w hi lo v : Nat)

@[simp] theorem setCw_jobs : (x.setCw n w v).jobs = x.jobs := by rw [Ctx.setCw]
@[simp] theorem setCw_recs : (x.setCw n w v).recs = x.recs := by rw [Ctx.setCw]
@[simp] theorem addCf_jobs : (x.addCf n w hi lo v).jobs = x.jobs := by
  rw [Ctx.addCf, Ctx.setCf, setCw_jobs]
@[simp] theorem addCf_recs : (x.addCf n w hi lo v).recs = x.recs := by
  rw [Ctx.addCf, Ctx.setCf, setCw_recs]

end

/-- Memory, the cores, the queues, the reservations, and every context's jobs and records are the same. -/
structure SameBlocks (s t : State) : Prop where
  mem : t.mem = s.mem
  cores : t.cores = s.cores
  ready : t.ready = s.ready
  resv : t.resv = s.resv
  jobs : ∀ c, (t.ctx c).jobs = (s.ctx c).jobs
  recs : ∀ c, (t.ctx c).recs = (s.ctx c).recs

namespace SameBlocks
variable {s t u : State}

theorem refl (s : State) : SameBlocks s s := ⟨rfl, rfl, rfl, rfl, fun _ => rfl, fun _ => rfl⟩
theorem trans (h : SameBlocks s t) (g : SameBlocks t u) : SameBlocks s u :=
  ⟨g.mem.trans h.mem, g.cores.trans h.cores, g.ready.trans h.ready, g.resv.trans h.resv,
    fun c => (g.jobs c).trans (h.jobs c), fun c => (g.recs c).trans (h.recs c)⟩
theorem core (h : SameBlocks s t) (k : Nat) : t.core k = s.core k := congrArg (fun m => mgetD m k Core.init) h.cores

theorem logEv (s : State) (e : Ev) : SameBlocks s (s.logEv e) := by
  refine ⟨logEv_mem s e, ?_, ?_, ?_, fun c => by rw [logEv_ctx], fun c => by rw [logEv_ctx]⟩ <;>
    (unfold State.logEv; split <;> rfl)
theorem modCtx (s : State) (n : Nat) {f : Ctx → Ctx} (hj : ∀ x, (f x).jobs = x.jobs) (hr : ∀ x, (f x).recs = x.recs) :
    SameBlocks s (s.modCtx n f) :=
  ⟨rfl, rfl, rfl, rfl, fun c => field_modCtx Ctx.jobs s n c hj, fun c => field_modCtx Ctx.recs s n c hr⟩
theorem foldl {α : Type} {f : State → α → State} (hf : ∀ t x, SameBlocks t (f t x)) (l : List α) (s : State) :
    SameBlocks s (l.foldl f s) := by
  induction l generalizing s with
  | nil => exact refl s
  | cons x l ih => exact (hf s x).trans (ih _)

theorem addStats (s : State) (k : Nat) : SameBlocks s (s.addStats k) := by
  unfold State.addStats
  exact modCtx s _ (fun _ => by simp) fun _ => by simp
theorem ackRvks (s : State) (k : Nat) : SameBlocks s (s.ackRvks k) := foldl (fun t _ => logEv t _) _ s

end SameBlocks

/-! ### A requeued record (R63, R64) -/

theorem mem_sortIn {α : Type} {le : α → α → Bool} {x y : α} {l : List α} (h : y ∈ sortIn le x l) : y = x ∨ y ∈ l := by
  induction l with
  | nil => exact .inl (List.mem_singleton.1 h)
  | cons z l ih =>
    rw [sortIn] at h
    split at h
    · exact List.mem_cons.1 h
    · rcases List.mem_cons.1 h with rfl | h
      · exact .inr List.mem_cons_self
      · exact (ih h).imp_right (List.mem_cons_of_mem _)
theorem mem_sortBy {α : Type} {le : α → α → Bool} {y : α} {l : List α} (h : y ∈ sortBy le l) : y ∈ l := by
  induction l with
  | nil => exact h
  | cons x l ih =>
    rcases mem_sortIn (l := sortBy le l) h with rfl | h
    · exact List.mem_cons_self
    · exact List.mem_cons_of_mem _ (ih h)

theorem mget_of_mem {α : Type} {m : List (Nat × α)} {lo k : Nat} {x : α} (hm : risingFrom lo m = true) (h : (k, x) ∈ m) :
    mget m k = some x := by
  induction m generalizing lo with
  | nil => cases h
  | cons a m ih =>
    obtain ⟨i, y⟩ := a
    simp only [risingFrom, Bool.and_eq_true] at hm
    rw [mget]
    rcases List.mem_cons.1 h with h | h
    · cases h
      rw [if_pos rfl]
    · have hk := ih hm.2 h
      have hlt : ¬ k < i + 1 := fun hlt => by
        rw [mget_none_of_lt hm.2 hlt] at hk
        cases hk
      rw [if_neg (by omega), if_neg (by omega), hk]

/-- The records of some entries take a time of joining. -/
def stampRecs (time : BitVec 32) (es : List (Nat × Rec)) (m : Map Rec) : Map Rec :=
  es.foldl (fun q x => mset q x.1 { x.2 with enqt := time }) m
theorem mget_stampRecs {time : BitVec 32} {key : Nat} {z : Rec} (es : List (Nat × Rec)) {m : Map Rec}
    (h : ∃ q, mget m key = some { z with enqt := q }) (he : ∀ x ∈ es, x.1 = key → x.2 = z) :
    ∃ q, mget (stampRecs time es m) key = some { z with enqt := q } := by
  induction es generalizing m with
  | nil => exact h
  | cons x es ih =>
    refine ih ?_ fun y hy => he y (List.mem_cons_of_mem _ hy)
    dsimp only
    by_cases hk : x.1 = key
    · exact ⟨time, by rw [hk, mget_mset_self, he x List.mem_cons_self hk]⟩
    · rwa [mget_mset_ne _ _ (Ne.symm hk)]

/-- Records join the queue of a level as one entry. -/
def joinQueue (s : State) (c : Nat) (r : Rec) (es : List (Nat × Rec)) (gang : Bool) : State :=
  (s.modCtx c fun t => { t with recs := stampRecs s.enqt es t.recs }).appendReady r.prio
    ⟨Fin.ofNat 8 c, r.card, es.map fun m => m.2.block, gang⟩

/-- A record stays out of the queue, or joins it, alone or with its gang. -/
theorem enqueue_cases {s : State} {c key : Nat} {r : Rec} (h : mget (s.ctx c).recs key = some r) :
    s.enqueue c key = s ∨ ∃ es g, (∀ x ∈ es, x = (key, r) ∨ x ∈ (s.ctx c).recs) ∧ s.enqueue c key = joinQueue s c r es g := by
  rw [State.enqueue, h]
  dsimp only
  split
  · exact .inl rfl
  · split
    · exact .inr ⟨[(key, r)], false, fun x hx => .inl (List.mem_singleton.1 hx), rfl⟩
    · split
      · exact .inr ⟨_, true, fun x hx => .inr (List.mem_filter.1 (mem_sortBy hx)).1, rfl⟩
      · exact .inl rfl

/-- What a record's return to its queue below level 60 changes: its time of joining, and that queue. -/
structure Requeued (c key : Nat) (r : Rec) (s t : State) : Prop where
  mem : t.mem = s.mem
  cores : t.cores = s.cores
  resv : t.resv = s.resv
  ready : ∀ i : Fin 64, 60 ≤ i.val → t.ready[i] = s.ready[i]
  jobs : ∀ d, (t.ctx d).jobs = (s.ctx d).jobs
  record : ∃ q, mget (t.ctx c).recs key = some { r with enqt := q }

theorem requeued_enqueue {s : State} {c key : Nat} {r : Rec} (h : mget (s.ctx c).recs key = some r) (hp : r.prio < 60)
    (hr : risingFrom 0 (s.ctx c).recs = true) : Requeued c key r s (s.enqueue c key) := by
  rcases enqueue_cases h with he | ⟨es, g, hes, he⟩ <;> rw [he]
  · exact ⟨rfl, rfl, rfl, fun _ _ => rfl, fun _ => rfl, r.enqt, h⟩
  · refine ⟨rfl, rfl, rfl, fun i hi => ?_, fun d => ?_, ?_⟩
    · have hne : ¬ r.prio % 64 = i.val := by omega
      simp [joinQueue, State.appendReady, modCtx_eq, Fin.ofNat, hne]
    · rw [joinQueue, appendReady_ctx]
      exact field_modCtx Ctx.jobs s c d fun _ => rfl
    · rw [joinQueue, appendReady_ctx, ctx_modCtx_self]
      refine mget_stampRecs es ⟨r.enqt, h⟩ fun x hx hk => ?_
      rcases hes x hx with rfl | hm
      · rfl
      · have hg := mget_of_mem hr (k := x.1) (x := x.2) hm
        rw [hk, h] at hg
        exact (Option.some.inj hg).symm

/-! ### A killed block leaves its core (R352) -/

/-- The core of a killed block: left, or dying with what its committed phases still do. -/
theorem vacate_core (s : State) (k : Nat) : ∃ t c, SameBlocks s t ∧ s.vacate k = t.setCore k c ∧
    c.heldFor = (s.core k).heldFor ∧ c.pend = [] ∧
    (c.blk = none ∧ c.inServ = (s.core k).inServ ∨ c.mark = .dying ∧ c.blk = (s.core k).blk) := by
  unfold State.vacate
  let u : State := { s with runs := s.runs.filter fun r => !(((s.core k).nmseq.map fun e => e.2).contains r.1 && r.2.done) }
  have hu : SameBlocks s u := ⟨rfl, rfl, rfl, rfl, fun _ => rfl, fun _ => rfl⟩
  dsimp only
  split
  · exact ⟨u, (s.core k).cutDown, hu, rfl, rfl, rfl, .inr ⟨rfl, rfl⟩⟩
  · have ht := hu.trans (SameBlocks.ackRvks u k)
    exact ⟨u.ackRvks k, (s.core k).leave, ht, congrArg (fun c : Core => (u.ackRvks k).setCore k c.leave) (ht.core k), rfl, rfl,
      .inl ⟨rfl, rfl⟩⟩

/-- A killed block's record: requeued, to run again from its start. -/
def killedRec (code : Nat) (x : Rec) : Rec :=
  { x with core := none, rerun := true, ckpt := none, escal := if code = 0x43 then x.escal else 0 }

/-- Nothing that a killed block has sent to Campion is left to apply. -/
theorem sendPending_of_quiet {s : State} {k : Nat} (h : (s.core k).q24 = []) : s.sendPending k = s := by
  simp [State.sendPending, h]
theorem voidPending_of_quiet {s : State} {k : Nat} (h : (s.core k).q24 = []) (hp : (s.core k).pubs = []) :
    s.voidPending k = s := by
  simp [State.voidPending, h, hp]

/-- The books of a kill, before the block leaves its core: its record is requeued, to run again. -/
theorem killBlock_eq {s : State} {k code : Nat} {counts : Bool} {x : Rec} (hq : (s.core k).q24 = []) (hp : (s.core k).pubs = [])
    (hx : mget (s.ctx (s.core k).res.ctx.val).recs (gkey (s.core k).res.card (s.core k).res.block) = some x) :
    let c := (s.core k).res.ctx.val
    let key := gkey (s.core k).res.card (s.core k).res.block
    ∃ u : State, s.killBlock k code counts = (u.vacate k).enqueue c key ∧ u.mem = s.mem ∧ u.cores = s.cores ∧ u.ready = s.ready ∧
      u.resv = s.resv ∧ (∀ d, (u.ctx d).jobs = (s.ctx d).jobs) ∧
      (u.ctx c).recs = mset (s.ctx c).recs key (killedRec code x) := by
  intro c key
  let f (t : Ctx) : Ctx := if counts then t.addCf (s.core k).res.card 27 63 48 1 else t
  let s1 := (s.addStats k).modCtx c f
  have h1 : SameBlocks s s1 := (SameBlocks.addStats s k).trans
    (.modCtx _ _ (fun t => by cases counts <;> simp [f]) fun t => by cases counts <;> simp [f])
  have h3 : SameBlocks s (s1.logBlock k code) := h1.trans (.logEv _ _)
  have hvoid : s1.voidPending k = s1 := voidPending_of_quiet (by rw [h1.core, hq]) (by rw [h1.core, hp])
  unfold State.killBlock
  rw [sendPending_of_quiet hq]
  dsimp only
  change ∃ u : State, State.enqueue (State.vacate (State.modCtx ((s1.voidPending k).logBlock k code) c _) k) c key = _ ∧ _
  rw [hvoid]
  refine ⟨_, rfl, h3.mem, h3.cores, h3.ready, h3.resv, fun d => ?_, ?_⟩
  · refine (field_modCtx Ctx.jobs _ c d ?_).trans (h3.jobs d)
    exact fun _ => rfl
  · rw [ctx_modCtx_self]
    dsimp only
    rw [h3.recs, hx]
    rfl

end Sys2Proof.Proofs
end

section
/-!
PROOFS. Pre-emption of one core's block for a newcomer at level 63: drain, checkpoint and kill (R351, R352).
-/
namespace Sys2Proof.Proofs
open Sys2Proof Sys2Proof.Machine Sys2Proof.Laws

/-! ### The choice of one core (R351, R352) -/

/-- A core whose block is chosen: held for the newcomer, and marked for its drain or its checkpoint. -/
def chosen (name : Nat × Nat × Nat) (a : PreAct) (c : Core) : Core :=
  { c with
    heldFor := some name
    mark := match a with
      | .drain => .drain
      | .kill => .none
      | .ckpt => .ckpt }

theorem chosen_mark {name : Nat × Nat × Nat} {a : PreAct} (c : Core) (h : a ≠ .kill) :
    (chosen name a c).mark = if a = .drain then .drain else .ckpt := by
  cases a with
  | drain => rfl
  | kill => exact absurd rfl h
  | ckpt => rfl

/-- State u is state s with core k chosen and the newcomer's tokens paid. -/
structure Chosen (e : REntry) (k : Nat) (a : PreAct) (n : Nat) (s u : State) : Prop where
  mem : u.mem = s.mem
  cores : u.cores = mset s.cores k (chosen e.name a (s.core k))
  ready : u.ready = s.ready
  resv : u.resv = s.resv
  recs : ∀ c, (u.ctx c).recs = (s.ctx c).recs
  tokens : (u.ctx e.ctx.val).tokens e.card = (s.ctx e.ctx.val).tokens e.card - n

theorem Chosen.core {e : REntry} {k n : Nat} {a : PreAct} {s u : State} (h : Chosen e k a n s u) :
    u.core k = chosen e.name a (s.core k) := by
  unfold State.core
  rw [h.cores, mgetD_mset_self]
  rfl

theorem tokens_congr {x y : Ctx} (h : x.jobs = y.jobs) (n : Nat) : x.tokens n = y.tokens n := by rw [Ctx.tokens, h, Ctx.tokens]
theorem tokens_spend (x : Ctx) (n cost : Nat) : (x.spend n cost).tokens n = x.tokens n - cost := by
  unfold Ctx.spend Ctx.tokens
  cases h : mget x.jobs n <;> simp [h]
theorem spend_recs (x : Ctx) (n cost : Nat) : (x.spend n cost).recs = x.recs := by rw [Ctx.spend, addCf_recs]

theorem sameBlocks_logChoice (s : State) (e : REntry) (k : Nat) (a : PreAct) : SameBlocks s (s.logChoice e k a) := .logEv _ _

/-- A group of one core is taken: chosen, and killed where that is the action. -/
theorem takeVictims_single {s : State} {e : REntry} {k n : Nat} (a : PreAct) (hm : (s.core k).mark = .none) :
    ∃ u : State, Chosen e k a n s u ∧ s.takeVictims e ⟨[(k, a)], n⟩ = if a = .kill then u.killGang k 0x63 true else u := by
  let s1 := (s.modCtx e.ctx.val fun t => t.spend e.card n).logChoice e k a
  have h1 := sameBlocks_logChoice (s.modCtx e.ctx.val fun t => t.spend e.card n) e k a
  have hcore : s1.core k = s.core k := h1.core k
  refine ⟨s1.setCore k (chosen e.name a (s.core k)), ⟨h1.mem, ?_, h1.ready, h1.resv, fun c => ?_, ?_⟩, ?_⟩
  · exact congrArg (fun m => mset m k _) h1.cores
  · exact (h1.recs c).trans (field_modCtx Ctx.recs s e.ctx.val c fun x => spend_recs x e.card n)
  · refine (tokens_congr (h1.jobs e.ctx.val) e.card).trans ?_
    rw [ctx_modCtx_self, tokens_spend]
  · cases a <;> simp [State.takeVictims, modCore_eq, s1, hcore, hm, chosen]

/-! ### A chosen core whose block runs on (R351) -/

section
variable {e : REntry} {k n : Nat} {a : PreAct} {s u : State} (h : Chosen e k a n s u) (hb : (s.core k).blk.isSome = true)
include h hb

theorem Chosen.taken (hh : (s.core k).heldFor = none) : Taken e k s u (chosen e.name a (s.core k)) :=
  ⟨hb, hh, h.cores, rfl, by rw [h.ready]⟩

/-- A choice for a kill leaves every gang on its cores. -/
theorem Chosen.gangCoresOf_eq (hm : (s.core k).mark = .none) (ha : a = .kill) : gangCoresOf u k = gangCoresOf s k := by
  obtain ⟨l, r, hs, hv⟩ := mset_split (mget_core_of_blk hb)
  have hmark : (chosen e.name a (s.core k)).mark = (s.core k).mark := by rw [ha, hm]; rfl
  have hblk : (chosen e.name a (s.core k)).blk = (s.core k).blk := rfl
  have hres : (chosen e.name a (s.core k)).res = (s.core k).res := rfl
  simp only [gangCoresOf, State.coresOf, h.core, hres, h.cores.trans (hv _), hs, List.filterMap_append,
    List.filterMap_cons, hmark, hblk]

end

/-! ### A chosen core whose block is killed (R352) -/

/-- What the kill of a chosen core's block leaves: the core left or dying, the record requeued to run again. -/
structure KilledFor (e : REntry) (k n : Nat) (x : Rec) (s t : State) (c : Core) : Prop where
  mem : t.mem = s.mem
  cores : t.cores = mset s.cores k c
  held : c.heldFor = some e.name
  pend : c.pend = []
  left : c.blk = none ∧ c.inServ = (s.core k).inServ ∨ c.mark = .dying ∧ c.blk = (s.core k).blk
  ready : ∀ i : Fin 64, 60 ≤ i.val → t.ready[i] = s.ready[i]
  resv : t.resv = s.resv
  tokens : (t.ctx e.ctx.val).tokens e.card = (s.ctx e.ctx.val).tokens e.card - n
  record : ∃ q, mget (t.ctx (s.core k).res.ctx.val).recs (gkey (s.core k).res.card (s.core k).res.block) =
    some { killedRec 0x63 x with enqt := q }

theorem KilledFor.core {e : REntry} {k n : Nat} {x : Rec} {s t : State} {c : Core} (h : KilledFor e k n x s t c) :
    t.core k = c := by
  unfold State.core
  rw [h.cores, mgetD_mset_self]

theorem killed_of_chosen {e : REntry} {k n : Nat} {s u : State} {x : Rec} (h : Chosen e k .kill n s u)
    (hb : (s.core k).blk.isSome = true) (hm : (s.core k).mark = .none) (hg : gangCoresOf s k = [k])
    (hq : (s.core k).q24 = []) (hp : (s.core k).pubs = [])
    (hx : mget (s.ctx (s.core k).res.ctx.val).recs (gkey (s.core k).res.card (s.core k).res.block) = some x)
    (hprio : x.prio < 60) (hr : risingFrom 0 (s.ctx (s.core k).res.ctx.val).recs = true) :
    ∃ c, KilledFor e k n x s (u.killGang k 0x63 true) c := by
  have hres : (u.core k).res = (s.core k).res := by rw [h.core]; rfl
  obtain ⟨w, hw, wmem, wcores, wready, wresv, wjobs, wrecs⟩ := killBlock_eq (s := u) (k := k) (code := 0x63) (counts := true)
    (x := x) (by rw [h.core]; exact hq) (by rw [h.core]; exact hp) (by rw [hres, h.recs]; exact hx)
  obtain ⟨v, c, hv, hvac, hheld, hpend, hleft⟩ := vacate_core w k
  have hwk : w.core k = chosen e.name .kill (s.core k) := (congrArg (fun m => mgetD m k Core.init) wcores).trans h.core
  rw [hwk] at hheld hleft
  have hvrecs : ((v.setCore k c).ctx (s.core k).res.ctx.val).recs = mset (s.ctx (s.core k).res.ctx.val).recs
      (gkey (s.core k).res.card (s.core k).res.block) (killedRec 0x63 x) := by
    rw [ctx_setCore, hv.recs, ← hres, wrecs, h.recs]
  have hreq := requeued_enqueue (s := v.setCore k c) (c := (s.core k).res.ctx.val)
    (key := gkey (s.core k).res.card (s.core k).res.block) (r := killedRec 0x63 x) (by rw [hvrecs, mget_mset_self]) hprio
    (by rw [hvrecs]; exact risingFrom_mset _ hr (Nat.zero_le _))
  have hkill : u.killGang k 0x63 true =
      (v.setCore k c).enqueue (s.core k).res.ctx.val (gkey (s.core k).res.card (s.core k).res.block) := by
    have hgang : gangCoresOf u k = [k] := (h.gangCoresOf_eq hb hm rfl).trans hg
    have hfold : u.killGang k 0x63 true = (gangCoresOf u k).foldl (fun t j => t.killBlock j 0x63 true) u := rfl
    rw [hfold, hgang, List.foldl_cons, List.foldl_nil, hw, hvac, hres]
  rw [hkill]
  refine ⟨c, ?_, ?_, hheld, hpend, hleft, fun i hi => ?_, ?_, ?_, hreq.record⟩
  · rw [hreq.mem, setCore_mem, hv.mem, wmem, h.mem]
  · rw [hreq.cores, State.setCore, hv.cores, wcores, h.cores, mset_mset]
  · rw [hreq.ready i hi, setCore_ready, hv.ready, wready, h.ready]
  · rw [hreq.resv, setCore_resv, hv.resv, wresv, h.resv]
  · refine (tokens_congr ?_ e.card).trans h.tokens
    rw [hreq.jobs, ctx_setCore, hv.jobs, wjobs]

/-! ### Pre-emption of one core's block for the one newcomer (R351) -/

theorem takeMany_of_enough {s : State} {lvl : Nat} {e : REntry} {ds : List Nat} (h : s.enoughFor lvl e ds = true) (f : Nat) :
    s.takeMany f lvl e ds = s := by
  cases f with
  | zero => rfl
  | succ f => rw [State.takeMany, if_pos h]
theorem takeMany_single {s : State} {lvl f : Nat} {e : REntry} {ds : List Nat} {v : Victims}
    (h : s.enoughFor lvl e ds = false) (hv : s.bestVictims lvl ds ((s.ctx e.ctx.val).tokens e.card) = some v)
    (ht : (s.takeVictims e v).enoughFor lvl e ds = true) : s.takeMany (f + 1) lvl e ds = s.takeVictims e v := by
  rw [State.takeMany, h, hv]
  exact takeMany_of_enough ht f

/-- No entry of level 60, 61 or 62 asks for a victim. -/
theorem exec_preemption {s t : State} (hd : s.down = false) (h63 : s.preemptLevel 63 = t) (h62 : t.ready[(62 : Fin 64)] = [])
    (h61 : t.ready[(61 : Fin 64)] = []) (h60 : t.ready[(60 : Fin 64)] = []) : exec .preemption s = .next t := by
  have hnil (lvl : Nat) (h : t.ready[Fin.ofNat 64 lvl] = []) : t.preemptLevel lvl = t := by
    rw [State.preemptLevel, h]
    rfl
  have hfold : exec .preemption s = .next ([63, 62, 61, 60].foldl State.preemptLevel s) := by
    change execPreemption s = _
    rw [execPreemption, hd]
    rfl
  rw [hfold, List.foldl_cons, h63, List.foldl_cons, hnil 62 h62, List.foldl_cons, hnil 61 h61, List.foldl_cons, hnil 60 h60]
  rfl

section
variable {s : State} {e : REntry} {es : List REntry} {k n : Nat} {a : PreAct}
  (hd : s.down = false) (h63 : s.ready[(63 : Fin 64)] = e :: es) (h62 : s.ready[(62 : Fin 64)] = [])
  (h61 : s.ready[(61 : Fin 64)] = []) (h60 : s.ready[(60 : Fin 64)] = [])
  (hne : s.enoughFor 63 e ([0, 1].filter fun d => s.eligible e d) = false)
  (hn : e.blocks.length = (s.coresFor 63 e (k / 64)).length + heldOn s e (k / 64) + 1)
  (hv : s.bestVictims 63 ([0, 1].filter fun d => s.eligible e d) ((s.ctx e.ctx.val).tokens e.card) = some ⟨[(k, a)], n⟩)
  (hm : (s.core k).mark = .none)
include hd h63 h62 h61 h60 hne hv

/-- One group is taken, if that is enough. -/
theorem exec_preemption_single {t : State} (ht : s.takeVictims e ⟨[(k, a)], n⟩ = t)
    (hen : t.enoughFor 63 e ([0, 1].filter fun d => s.eligible e d) = true)
    (hready : ∀ i : Fin 64, 60 ≤ i.val → t.ready[i] = s.ready[i]) : exec .preemption s = .next t := by
  subst ht
  refine exec_preemption hd ?_ ((hready 62 (by decide)).trans h62) ((hready 61 (by decide)).trans h61)
    ((hready 60 (by decide)).trans h60)
  have hhead : (s.ready[(Fin.ofNat 64 63 : Fin 64)]).head? = some e := congrArg List.head? h63
  rw [State.preemptLevel, hhead]
  exact takeMany_single hne hv hen

include hn hm

/-- A victim that drains or is to be checkpointed runs on, held for the newcomer. -/
theorem preemption_marks (ha : a ≠ .kill) : ∃ t, exec .preemption s = .next t ∧ Chosen e k a n s t := by
  obtain ⟨hmay, -⟩ := bestVictims_single hv
  simp only [State.mayTake, Bool.and_eq_true, List.contains_iff_mem, Option.isNone_iff_eq_none] at hmay
  obtain ⟨⟨⟨⟨⟨hdie, -⟩, -⟩, -⟩, hblk⟩, hheld⟩ := hmay
  obtain ⟨u, hu, ht⟩ := takeVictims_single (e := e) (n := n) a hm
  rw [if_neg ha] at ht
  have hen := (hu.taken hblk hheld).enough_of_blk hdie hblk (.inl ⟨hu.ready, hu.resv⟩) hn
  exact ⟨u, exec_preemption_single hd h63 h62 h61 h60 hne hv ht hen fun i _ => by rw [hu.ready], hu⟩

/-- A victim that is killed leaves its core to the newcomer. -/
theorem preemption_kills {x : Rec} (ha : a = .kill) (hq : (s.core k).q24 = []) (hp : (s.core k).pubs = [])
    (hs : (s.core k).inServ = true) (hresv : s.resv = [])
    (hx : mget (s.ctx (s.core k).res.ctx.val).recs (gkey (s.core k).res.card (s.core k).res.block) = some x)
    (hprio : x.prio < 60) (hr : risingFrom 0 (s.ctx (s.core k).res.ctx.val).recs = true) :
    ∃ t c, exec .preemption s = .next t ∧ KilledFor e k n x s t c := by
  subst ha
  obtain ⟨hmay, hgang⟩ := bestVictims_single hv
  simp only [State.mayTake, Bool.and_eq_true, List.contains_iff_mem, Option.isNone_iff_eq_none] at hmay
  obtain ⟨⟨⟨⟨⟨hdie, -⟩, -⟩, -⟩, hblk⟩, hheld⟩ := hmay
  obtain ⟨u, hu, ht⟩ := takeVictims_single (e := e) (n := n) .kill hm
  rw [if_pos rfl] at ht
  obtain ⟨c, hc⟩ := killed_of_chosen hu hblk hm hgang hq hp hx hprio hr
  have htaken : Taken e k s (u.killGang k 0x63 true) c := ⟨hblk, hheld, hc.cores, hc.held, hc.ready 63 (by decide)⟩
  have hnil := hc.resv.trans hresv
  have hen : (u.killGang k 0x63 true).enoughFor 63 e ([0, 1].filter fun d => s.eligible e d) = true := by
    rcases hc.left with ⟨hb, hi⟩ | ⟨-, hb⟩
    · exact htaken.enough_of_left hdie hb (hi.trans hs) hnil hresv hn
    · exact htaken.enough_of_blk hdie (by rw [hb]; exact hblk) (.inr ⟨hnil, hresv⟩) hn
  exact ⟨_, c, exec_preemption_single hd h63 h62 h61 h60 hne hv ht hen hc.ready, hc⟩

end

end Sys2Proof.Proofs
end

section
/-!
PROOFS. Campion's placement, settled.
-/
namespace Sys2Proof.Proofs
open Sys2Proof Sys2Proof.Machine Sys2Proof.Laws

/-- Settles O49: the fresh start, the resume, the near-memory run, aging, and the three actions on a victim. -/
theorem campionPlacement : Obligations.CampionPlacement := by
  unfold Obligations.CampionPlacement
  intro s hd
  refine ⟨fun l e ks j ext img => ?_, fun l e k b n ck j r ext img => ?_, fun c n j hj => ?_, fun l e r h hr hq => ?_,
    fun e es k a n => ?_⟩
  · exact placement_starts hd
  · intro c hn hg hb hst hs hj hi hr hc hblock hck hk hv hrev
    obtain ⟨t, o, w, wseq, p, hexec, hmem, hcore, hctx, hcard, hwb, hframe, hrecs, hcks⟩ :=
      launch_resumes hd hn hg hb hst hs hj hi hr hc hck hk hv hrev
    refine ⟨t, hexec, fun a => by rw [hmem], ?_, ?_⟩
    · exact ⟨w, by rw [hcore]; rfl, hctx, hcard, hwb.trans hblock, hframe⟩
    · rw [hcore, hrecs, hcks]
      exact ⟨resumedCore_str o w ck r.view wseq p, ⟨rfl, rfl, rfl, rfl, rfl, rfl, rfl, rfl⟩, rfl, rfl, rfl, rfl, rfl, rfl, rfl, rfl,
        ⟨_, mget_mset_self .., rfl, rfl⟩, fun hrise => mget_mdel_self n hrise⟩
  · intro d ha hstate hvar hrun hlinks hfault hlease
    obtain ⟨t, v, hexec, hnext, hmem, hruns, hcards⟩ := exec_variantRunStart hj ha hstate hvar hrun hlinks hfault hlease
    refine ⟨t, v, hexec, hnext, fun a => by rw [hmem], by rw [hruns, mget_mset_self], fun hrise => ?_⟩
    rw [Ctx.cstate, Ctx.cf, Ctx.cw, hcards]
    exact cstate_setCf_state (risingFrom_setCw _ _ _ hrise) (by decide)
  · refine ⟨s.ageEntry l e, exec_aging hd h hr hq, ageEntry_leaves s l e, ageEntry_joins s l e,
      fun a => by rw [ageEntry_mem], fun b hb x hx => ?_⟩
    rw [ageEntry_recs, mget_ageRecs e.blocks hx, if_pos hb]
    rfl
  · intro ds h63 h62 h61 h60 hne hn hv hm
    refine ⟨fun ha => ?_, fun ha hq hp hs hresv x hx hprio hr => ?_⟩
    · obtain ⟨t, hexec, ht⟩ := preemption_marks hd h63 h62 h61 h60 hne hn hv hm ha
      exact ⟨t, ⟨hexec, by rw [ht.core]; rfl, ht.tokens, fun b => by rw [ht.mem]⟩, by rw [ht.core, chosen_mark _ ha],
        by rw [ht.core]; rfl⟩
    · obtain ⟨t, c, hexec, ht⟩ := preemption_kills hd h63 h62 h61 h60 hne hn hv hm ha hq hp hs hresv hx hprio hr
      obtain ⟨q, hz⟩ := ht.record
      exact ⟨t, _, ⟨hexec, by rw [ht.core, ht.held], ht.tokens, fun b => by rw [ht.mem]⟩,
        by rw [ht.core]; exact ht.left.imp And.left And.left, by rw [ht.core, ht.pend], hz, rfl, rfl, rfl, rfl⟩

end Sys2Proof.Proofs
end

section
/-!
PROOFS. What reset leaves: registers by their offset, read (R40, R74, R135, R346, R376, R379, R403, R404).
-/
namespace Sys2Proof.Proofs
open Sys2Proof Sys2Proof.Machine Sys2Proof.Laws

/-! ### Reads of registers by their offset in BAR0 -/

theorem registerRead_page (s : State) (c : Fin 8) {off r : Nat} (ho : off = 0x10000 + 4096 * c.val + r) (h8 : r % 8 = 0)
    (hr : r < 4096) : s.registerRead off = w64 (s.pageRead c.val r) := by
  have hc := c.isLt
  have h1 : (off - 0x10000) / 4096 = c.val := by omega
  have h2 : off % 4096 = r := by omega
  rw [State.registerRead, if_neg (by omega), if_pos (by omega), h1, h2]
theorem registerRead_control (s : State) (c : Fin 8) {off r : Nat} (ho : off = 0x18000 + 4096 * c.val + r) (h8 : r % 8 = 0)
    (hr : r < 4096) : s.registerRead off = w64 (s.controlRead c.val r) := by
  have hc := c.isLt
  have h1 : (off - 0x18000) / 4096 = c.val := by omega
  have h2 : off % 4096 = r := by omega
  rw [State.registerRead, if_neg (by omega), if_neg (by omega), if_pos (by omega), h1, h2]
theorem registerRead_module {off : Nat} (s : State) (h8 : off % 8 = 0) (h : off < 0x10000 ∨ 0x20000 ≤ off) :
    s.registerRead off = w64 (s.moduleRead off) := by
  rw [State.registerRead, if_neg (by omega), if_neg (by omega), if_neg (by omega)]

/-! ### The state after reset -/

theorem reset_keysRise : State.reset.keysRise :=
  ⟨rfl, fun _ h => absurd h List.not_mem_nil, fun _ h => absurd h List.not_mem_nil⟩

/-- Every scalar register of a core without a block is zero. -/
theorem init_str_s (m : Stm) (i : Fin 32) : (Core.init.str m).s[i] = 0 := by
  cases m <;> exact Vector.getElem_replicate _
/-- A core without a block has p0 true and no other predicate (R135). -/
theorem init_str_pb (m : Stm) (i : Fin 8) : (Core.init.str m).pb i = decide (i = 0) := by
  cases m <;> revert i <;> decide

/-- The context and control pages (R40, R346). -/
theorem reset_contextRegisters (c : Fin 8) : let s := State.reset
    s.registerRead (0x10010 + 4096 * c.val) = 6 ∧ s.registerRead (0x10028 + 4096 * c.val) = 0x100 ∧
      s.registerRead (0x18000 + 4096 * c.val) = 3125 ∧ s.registerRead (0x18008 + 4096 * c.val) = 6250 ∧
      s.registerRead (0x18020 + 4096 * c.val) = 1000 := by
  intro s
  refine ⟨?_, ?_, ?_, ?_, ?_⟩
  · exact registerRead_page s c (r := 0x10) (by omega) rfl (by decide)
  · exact registerRead_page s c (r := 0x28) (by omega) rfl (by decide)
  · exact registerRead_control s c (r := 0x00) (by omega) rfl (by decide)
  · exact registerRead_control s c (r := 0x08) (by omega) rfl (by decide)
  · exact registerRead_control s c (r := 0x20) (by omega) rfl (by decide)

theorem reset_register {off v : Nat} (h8 : off % 8 = 0) (h : off < 0x10000 ∨ 0x20000 ≤ off)
    (hv : State.reset.moduleRead off = v) : State.reset.registerRead off = w64 v :=
  (registerRead_module _ h8 h).trans (congrArg w64 hv)

/-- The floors of the configuration record (R74). -/
theorem reset_configuration : State.reset.registerRead 0x8000 = w64 (48 * 2 ^ 16) ∧
    State.reset.registerRead 0x8020 = w64 (160 * 2 ^ 56 + 8 * 2 ^ 48 + 48 * 2 ^ 40) :=
  ⟨reset_register rfl (by decide) rfl, reset_register rfl (by decide) rfl⟩
/-- BOOTSTAT, PLIM, MINT, the black-box record and the request ring (R376, R379, R403, R404). -/
theorem reset_moduleRegisters : let s := State.reset
    s.registerRead 0x08 = 0x01 ∧ s.registerRead 0x28 = 1800 ∧ s.registerRead 0x38 = 0 ∧ s.registerRead 0x60000 = 1 ∧
      s.registerRead 0x60008 = 0 ∧ s.registerRead 0x90008 = 4 ∧ s.registerRead 0x90018 = 0 :=
  ⟨reset_register rfl (by decide) rfl, reset_register rfl (by decide) rfl, reset_register rfl (by decide) rfl,
    reset_register rfl (by decide) rfl, reset_register rfl (by decide) rfl, reset_register rfl (by decide) rfl,
    reset_register rfl (by decide) rfl⟩

/-- Settles O60, register by register. -/
theorem resetState : Obligations.ResetState := by
  unfold Obligations.ResetState
  obtain ⟨hfree, hfloors⟩ := reset_configuration
  obtain ⟨hboot, hplim, hmint, hnext, hfrozen, hsize, hhead⟩ := reset_moduleRegisters
  refine ⟨memory_wf_nil, reset_keysRise, rfl, rfl, rfl, rfl, init_str_s, init_str_pb,
    fun i => ⟨Vector.getElem_replicate _, Vector.getElem_replicate _⟩, rfl, reset_contextRegisters, ?_, ?_, ?_, ?_, hboot, hplim,
    hmint, hnext, hfrozen, hsize, hhead, rfl, rfl⟩
  · rw [hfree]
    rfl
  all_goals
    rw [hfloors]
    rfl

end Sys2Proof.Proofs
end

section
/-!
PROOFS. Campion's requests: fields of card words, the requests of q24 and their answers, records that join their queues
(R28, R30, R33 to R35, R63, R285, R286).
-/
namespace Sys2Proof.Proofs
open Sys2Proof Sys2Proof.Machine Sys2Proof.Laws

/-! ### Fields of numbers and of card words (R28, R30) -/

theorem bits_lt (w hi lo : Nat) : bits w hi lo < 2 ^ (hi + 1 - lo) := Nat.mod_lt _ (Nat.two_pow_pos _)
theorem cw_lt (x : Ctx) (n k : Nat) : x.cw n k < 2 ^ 64 := BitVec.isLt _
theorem toNat_w64 {n : Nat} (h : n < 2 ^ 64) : (w64 n).toNat = n := Nat.mod_eq_of_lt h

/-- A STATE written leaves the card's serial. -/
theorem cserial_setCf_state {x : Ctx} {n : Nat} (v : Nat) (h : risingFrom 0 x.cards = true) :
    (x.setCf n 0 31 28 v).cserial n = x.cserial n := by
  have hw := cw_lt x n 0
  rw [Ctx.cserial, Ctx.cserial, Ctx.cf, Ctx.cf, Ctx.setCf, cw_setCw_self _ _ _ h, w64, BitVec.toNat_ofNat, putBits, bits, bits]
  simp only [bits]
  omega
/-- A serial written is the card's serial. -/
theorem cserial_setCf_serial {x : Ctx} {n v : Nat} (h : risingFrom 0 x.cards = true) (hv : v < 2 ^ 32) :
    (x.setCf n 0 63 32 v).cserial n = v := by
  have hw := cw_lt x n 0
  rw [Ctx.cserial, Ctx.cf, Ctx.setCf, cw_setCw_self _ _ _ h, w64, BitVec.toNat_ofNat, putBits, bits, bits]
  omega

/-- A card's words are the words of the context at its index. -/
theorem wd_card (x : Ctx) (n : Nat) {k : Nat} (h : k < 32) : wd (x.card n) k = x.cw n k := by
  have hk : (upto 0 32)[k]? = some k := by interval_cases k <;> rfl
  rw [wd, Ctx.card, List.getD_eq_getElem?_getD, List.getElem?_map, hk]
  exact toNat_w64 (cw_lt x n k)

/-! ### A request leaves q24 (R33, R34) -/

@[simp] theorem wake_blk (x : Stream) : x.wake.blk = .run := by
  unfold Stream.wake
  split
  · assumption
  · rfl
@[simp] theorem wake_s (x : Stream) : x.wake.s = x.s := by unfold Stream.wake; split <;> rfl
@[simp] theorem wake_await (x : Stream) : x.wake.await = x.await := by unfold Stream.wake; split <;> rfl

theorem core_dropReq (s : State) (k : Nat) :
    (s.dropReq k).core k = ({ s.core k with q24 := (s.core k).q24.tail } : Core).retry := core_modCore_self ..

/-- Register d of stream C has its answer, waits for it no longer, and C runs. -/
structure Answered (s t : State) (k : Nat) (d : SIx) (v : Word) : Prop where
  value : (t.core k).r.c.s[d] = v
  await : (t.core k).r.c.await = (s.core k).r.c.await.erase d
  runs : (t.core k).r.c.blk = .run

/-- What an answer to the request at the head of q24 changes of its core: nothing is read or learnt. -/
structure Replied (s t : State) (k : Nat) (d : SIx) (v : Word) : Prop extends Answered s t k d v where
  q24 : (t.core k).q24 = (s.core k).q24.tail
  rfc : (t.core k).rfc = (s.core k).rfc

theorem replied_answerC {s u : State} {k : Nat} {d : SIx} (v : Word) (hu : u.cores = (s.dropReq k).cores)
    (hd : d ∈ (s.core k).r.c.await) : Replied s (u.answerC k d v) k d v := by
  have hc : u.core k = ({ s.core k with q24 := (s.core k).q24.tail } : Core).retry :=
    (congrArg (fun m => mgetD m k Core.init) hu).trans (core_dropReq s k)
  have hin : (u.core k).r.c.await.contains d = true := by
    rw [hc]
    simpa [Core.retry] using hd
  have ht := core_modCore_self u k fun c => if c.r.c.await.contains d then
    ({ c with r := { c.r with c := { c.r.c with s := c.r.c.s.set d v, await := c.r.c.await.erase d } } } : Core).wake else c
  rw [if_pos hin] at ht
  change (u.answerC k d v).core k = _ at ht
  refine ⟨⟨?_, ?_, ?_⟩, ?_, ?_⟩ <;> rw [ht]
  · simp [Core.wake, Core.retry]
  · simp [Core.wake, Core.retry, hc]
  · simp [Core.wake, Core.retry]
  · rw [hc]; rfl
  · rw [hc]; rfl

/-- What an answer that acquires changes of its core: nothing that the core has seen stands, its reads obey all it has learnt, and
what its later requests release is joined. -/
structure Acquired (s t : State) (k : Nat) (d : SIx) (v : Word) (w : View) : Prop extends Answered s t k d v where
  seen : (t.core k).seen = []
  rfc : (t.core k).rfc = (s.core k).rfc.join (t.core k).clk
  q24 : (t.core k).q24 = (s.core k).q24.tail.map (JobReq.after w)

/-- What a core learns is its clock alone. -/
theorem learn_core (u : State) (k : Nat) (w : View) : ∃ q, (u.learn k w).core k = { u.core k with clk := q } := by
  unfold State.learn
  split
  · exact ⟨_, rfl⟩
  · exact ⟨_, core_modCore_self ..⟩
@[simp] theorem learn_mem (u : State) (k : Nat) (w : View) : (u.learn k w).mem = u.mem := by
  unfold State.learn
  split <;> rfl

theorem acquired_answerAcquire {s u : State} {k : Nat} {d : SIx} {v : Word} (w : View) (h : Replied s u k d v) :
    Acquired s (u.answerAcquire k w) k d v w := by
  obtain ⟨q, hq⟩ := learn_core u k w
  have ht : (u.answerAcquire k w).core k = { u.core k with
      r := { (u.core k).r with c := (u.core k).r.c.orderReads u.wseq }
      clk := q, seen := [], rfc := (u.core k).rfc.join q, q24 := (u.core k).q24.map (JobReq.after w) } := by
    rw [State.answerAcquire, core_modCore_self, State.refresh, core_modCore_self, hq]
  refine ⟨⟨?_, ?_, ?_⟩, ?_, ?_, ?_⟩ <;> rw [ht]
  · exact h.value
  · exact h.await
  · exact h.runs
  · rw [← h.rfc]
  · rw [← h.q24]

/-! ### Records join their queues (R35, R63) -/

/-- Nothing but the ready queues and the records of contexts differs. -/
structure OnlyQueues (s t : State) : Prop where
  only : t = { s with ctxs := t.ctxs, ready := t.ready }
  ctx : ∀ c, ∃ q, t.ctx c = { s.ctx c with recs := q }

namespace OnlyQueues
variable {s t u : State}

theorem refl (s : State) : OnlyQueues s s := ⟨rfl, fun c => ⟨(s.ctx c).recs, rfl⟩⟩
theorem trans (h : OnlyQueues s t) (g : OnlyQueues t u) : OnlyQueues s u := by
  refine ⟨?_, fun c => ?_⟩
  · rw [g.only, h.only]
  · obtain ⟨p, hp⟩ := h.ctx c
    obtain ⟨q, hq⟩ := g.ctx c
    exact ⟨q, by rw [hq, hp]⟩
/-- What changes nothing else at every element of a list changes nothing else over the list. -/
theorem foldl {α : Type} {f : State → α → State} (hf : ∀ t x, OnlyQueues t (f t x)) (l : List α) (s : State) :
    OnlyQueues s (l.foldl f s) := by
  induction l generalizing s with
  | nil => exact refl s
  | cons x l ih => exact (hf s x).trans (ih _)

theorem modRecs (s : State) (n : Nat) (f : Ctx → Map Rec) : OnlyQueues s (s.modCtx n fun t => { t with recs := f t }) := by
  refine ⟨rfl, fun c => ?_⟩
  by_cases h : c = n
  · exact ⟨f (s.ctx n), by rw [h, ctx_modCtx_self]⟩
  · exact ⟨(s.ctx c).recs, by rw [modCtx_eq, ctx_setCtx_ne _ _ h]⟩
theorem enqueue (s : State) (c key : Nat) : OnlyQueues s (s.enqueue c key) := by
  cases hr : mget (s.ctx c).recs key with
  | none =>
    rw [State.enqueue, hr]
    exact refl s
  | some r =>
    rcases enqueue_cases hr with he | ⟨es, g, -, he⟩ <;> rw [he]
    · exact refl s
    · exact (modRecs s c _).trans ⟨rfl, fun d => ⟨_, rfl⟩⟩
theorem enqueueAll (s : State) (c : Nat) (keys : List Nat) : OnlyQueues s (s.enqueueAll c keys) :=
  foldl (fun t key => enqueue t c key) _ s
theorem decJoins (s : State) (c : Nat) (ls : List Link) (v : View) : OnlyQueues s (s.decJoins c ls v) :=
  (modRecs s c _).trans (enqueueAll _ c _)

variable (h : OnlyQueues s t)
include h

theorem mem : t.mem = s.mem := by rw [h.only]
theorem cores : t.cores = s.cores := by rw [h.only]
theorem tags : t.tags = s.tags := by rw [h.only]
theorem links : t.links = s.links := by rw [h.only]
theorem arms : t.arms = s.arms := by rw [h.only]
theorem reev : t.reev = s.reev := by rw [h.only]
theorem cards (c : Nat) : (t.ctx c).cards = (s.ctx c).cards := by
  obtain ⟨q, hq⟩ := h.ctx c
  rw [hq]
theorem jobs (c : Nat) : (t.ctx c).jobs = (s.ctx c).jobs := by
  obtain ⟨q, hq⟩ := h.ctx c
  rw [hq]

end OnlyQueues

end Sys2Proof.Proofs
end

section
/-!
PROOFS. The arm of a kernel card without bindings (R30, R32, R33, R35, R47, R49).
-/
namespace Sys2Proof.Proofs
open Sys2Proof Sys2Proof.Machine Sys2Proof.Laws

/-! ### The words of an accepted arm (R32) -/

/-- The next serial of a card: 0 is none (R32). -/
def nextSerial (x : Ctx) (n : Nat) : Nat := if (x.cserial n + 1) % 2 ^ 32 = 0 then 1 else (x.cserial n + 1) % 2 ^ 32

/-- None of a card's bindings is in use. -/
def Unbound (x : Ctx) (n : Nat) : Prop := ∀ b, b < 4 → bindUsed (x.card n) b = false

theorem bindUsed_card (x : Ctx) (n : Nat) {b : Nat} (h : b < 4) : bindUsed (x.card n) b = bit (x.cw n (12 + b)) 19 := by
  rw [bindUsed, wd_card x n (by omega)]

/-- Fields of cards rest on the card words alone. -/
theorem cf_congr {x y : Ctx} (h : y.cards = x.cards) (n k hi lo : Nat) : y.cf n k hi lo = x.cf n k hi lo := by
  rw [Ctx.cf, Ctx.cw, h, ← Ctx.cw, ← Ctx.cf]

theorem Unbound.congr {x y : Ctx} {n : Nat} (h : y.cards = x.cards) (hx : Unbound x n) : Unbound y n := fun b hb => by
  rw [bindUsed_card y n hb, Ctx.cw, h, ← Ctx.cw, ← bindUsed_card x n hb]
  exact hx b hb

/-- What an arm keeps once its serial is written: card words that stand as a map, card n's serial and that it is unbound, and the
jobs. -/
structure Arming (n : Nat) (x y : Ctx) : Prop where
  rising : risingFrom 0 y.cards = true
  serial : y.cserial n = x.cserial n
  unbound : Unbound x n → Unbound y n
  jobs : y.jobs = x.jobs

namespace Arming
variable {n : Nat} {x y z : Ctx}

theorem refl (h : risingFrom 0 x.cards = true) : Arming n x x := ⟨h, rfl, id, rfl⟩
theorem trans (h : Arming n x y) (g : Arming n y z) : Arming n x z :=
  ⟨g.rising, g.serial.trans h.serial, fun hx => g.unbound (h.unbound hx), g.jobs.trans h.jobs⟩

/-- Nothing but card words and jobs counts. -/
theorem congr (h : Arming n x y) (hc : z.cards = y.cards) (hj : z.jobs = y.jobs) : Arming n x z :=
  ⟨hc ▸ h.rising, (cf_congr hc n 0 63 32).trans h.serial, fun hx => (h.unbound hx).congr hc, hj.trans h.jobs⟩
/-- Words of bindings that stay keep a card unbound. -/
theorem unbound_of_cw (h : ∀ w, 12 ≤ w → w < 16 → y.cw n w = x.cw n w) (hx : Unbound x n) : Unbound y n := fun b hb => by
  rw [bindUsed_card y n hb, h _ (by omega) (by omega), ← bindUsed_card x n hb]
  exact hx b hb
/-- Word k of the card, neither its first nor one of a binding, is written. -/
theorem setCw (h : Arming n x y) {k : Nat} (v : Nat) (hk : 16 ≤ k) (hk' : k < 32) : Arming n x (y.setCw n k v) := by
  refine h.trans ⟨risingFrom_setCw _ _ _ h.rising, ?_, unbound_of_cw fun w _ _ => ?_, setCw_jobs ..⟩
  · rw [Ctx.cserial, Ctx.cf, cw_setCw_ne _ h.rising (by omega)]
    rfl
  · exact cw_setCw_ne _ h.rising (by omega)
theorem setCf (h : Arming n x y) {k : Nat} (hi lo v : Nat) (hk : 16 ≤ k) (hk' : k < 32) : Arming n x (y.setCf n k hi lo v) :=
  h.setCw _ hk hk'
theorem foldl_setCw (l : List Nat) (h : Arming n x y) (hl : ∀ k ∈ l, 16 ≤ k ∧ k < 32) :
    Arming n x (l.foldl (fun z k => z.setCw n k 0) y) := by
  induction l generalizing y with
  | nil => exact h
  | cons k l ih =>
    obtain ⟨hk, hk'⟩ := hl k List.mem_cons_self
    exact ih (h.setCw 0 hk hk') fun j hj => hl j (List.mem_cons_of_mem _ hj)
theorem setState (h : Arming n x y) (v : Nat) : Arming n x (y.setCf n 0 31 28 v) :=
  h.trans ⟨risingFrom_setCf _ _ _ _ _ h.rising, cserial_setCf_state v h.rising,
    unbound_of_cw fun w _ _ => cw_setCw_ne _ h.rising (by omega), setCw_jobs ..⟩

end Arming

/-- The serial of an arm, written. -/
def withSerial (x : Ctx) (n : Nat) : Ctx := x.setCf n 0 63 32 (nextSerial x n)

theorem nextSerial_lt (x : Ctx) (n : Nat) : nextSerial x n < 2 ^ 32 := by
  unfold nextSerial
  split
  · decide
  · exact Nat.mod_lt _ (by decide)
theorem cserial_withSerial {x : Ctx} (n : Nat) (h : risingFrom 0 x.cards = true) :
    (withSerial x n).cserial n = nextSerial x n := cserial_setCf_serial h (nextSerial_lt x n)
theorem unbound_withSerial {x : Ctx} {n : Nat} (h : risingFrom 0 x.cards = true) (hx : Unbound x n) :
    Unbound (withSerial x n) n := Arming.unbound_of_cw (fun _ _ _ => cw_setCw_ne _ h (by omega)) hx
theorem arming_acceptWords {x : Ctx} (n : Nat) (h : risingFrom 0 x.cards = true) :
    Arming n (withSerial x n) (x.acceptWords n) := by
  have h16 := (Arming.refl (n := n) (risingFrom_setCf n 0 63 32 (nextSerial x n) h)).setCw (k := 16) 0 (by decide) (by decide)
  have h17 := h16.setCf (k := 17) 37 21 0 (by decide) (by decide)
  refine h17.foldl_setCw _ fun k hk => ?_
  have := mem_upto.1 hk
  omega

/-- A card without bindings is bound to nothing. -/
theorem bindAll_of_unbound {x : Ctx} {n : Nat} (h : Unbound x n) (hdr : List Word) (nmsel : Bool) {bs : List Nat}
    (hb : ∀ b ∈ bs, b < 4) : x.bindAll n hdr nmsel bs = (x, true) := by
  induction bs with
  | nil => rfl
  | cons b bs ih =>
    rw [Ctx.bindAll, h b (hb b List.mem_cons_self)]
    exact ih fun a ha => hb a (List.mem_cons_of_mem _ ha)
/-- A card without bindings has none to set WHOLE. -/
theorem allWhole_of_unbound {x : Ctx} {n : Nat} (h : Unbound x n) : x.allWhole n = x := by
  have hfold (l : List Nat) (hl : ∀ b ∈ l, b < 4) :
      l.foldl (fun u b => if bindUsed (x.card n) b then u.setCf n (12 + b) 18 18 1 else u) x = x := by
    induction l with
    | nil => rfl
    | cons b l ih =>
      rw [List.foldl_cons, h b (hl b List.mem_cons_self)]
      exact ih fun a ha => hl a (List.mem_cons_of_mem _ ha)
  exact hfold _ fun b hb => (mem_upto.1 hb).2

/-! ### Tags, links and records of an accepted arm (R35, R47, R49) -/

/-- Memory, the cores, the host's arms and the loop nodes due are the same, and the arm of card n of context c goes on. -/
structure Prepares (c n : Nat) (s t : State) : Prop where
  mem : t.mem = s.mem
  cores : t.cores = s.cores
  arms : t.arms = s.arms
  reev : t.reev = s.reev
  arming : Arming n (s.ctx c) (t.ctx c)

namespace Prepares
variable {c n : Nat} {s t u : State}

theorem trans (h : Prepares c n s t) (g : Prepares c n t u) : Prepares c n s u :=
  ⟨g.mem.trans h.mem, g.cores.trans h.cores, g.arms.trans h.arms, g.reev.trans h.reev, h.arming.trans g.arming⟩
theorem refl (h : risingFrom 0 (s.ctx c).cards = true) : Prepares c n s s := ⟨rfl, rfl, rfl, rfl, .refl h⟩
theorem modCtx {f : Ctx → Ctx} (h : Arming n (s.ctx c) (f (s.ctx c))) : Prepares c n s (s.modCtx c f) :=
  ⟨rfl, rfl, rfl, rfl, by rwa [ctx_modCtx_self]⟩
theorem allocTags (hr : risingFrom 0 (s.ctx c).cards = true) (hdr : List Word) (nmsel : Bool) :
    Prepares c n s (s.allocTags c n hdr nmsel) := by
  have hx (hi lo v : Nat) := (Arming.refl (n := n) hr).setCf (k := 16) hi lo v (by decide) (by decide)
  unfold State.allocTags
  dsimp only
  split
  · exact refl hr
  · split
    · exact modCtx (hx 26 26 1)
    · refine ⟨rfl, rfl, rfl, rfl, ?_⟩
      rw [ctx_modCtx_self]
      exact (hx 63 47 _).setCf _ _ _ (by decide) (by decide)

end Prepares

/-- A card without bindings waits for nothing. -/
theorem linksFor_of_unbound {s : State} {c n : Nat} (h : Unbound (s.ctx c) n) (j : Job) (blocks : Nat) :
    s.linksFor c n j blocks = [] := by
  have hin (lin : Nat) : s.inputsOf c n j lin = [] :=
    List.flatMap_eq_nil_iff.2 fun b hb => by rw [h b (mem_upto.1 hb).2]; rfl
  exact List.flatMap_eq_nil_iff.2 fun lin _ => by rw [hin]; rfl

/-- The words and records of a job that is ARMED with so many blocks. -/
def armedCtx (x : Ctx) (n blocks : Nat) (recs : List (Nat × Rec)) : Ctx :=
  { ((x.setCf n 22 63 40 blocks).setCf n 22 39 16 blocks).setCf n 0 31 28 2 with
    recs := recs.foldl (fun m r => mset m r.1 r.2) x.recs }

theorem arming_armedCtx {x : Ctx} (n blocks : Nat) (recs : List (Nat × Rec)) (h : risingFrom 0 x.cards = true) :
    Arming n x (armedCtx x n blocks recs) ∧ (armedCtx x n blocks recs).cstate n = 2 := by
  have hx := ((Arming.refl (n := n) h).setCf (k := 22) 63 40 blocks (by decide) (by decide)).setCf (k := 22) 39 16 blocks
    (by decide) (by decide)
  have hcards : (armedCtx x n blocks recs).cards =
      (((x.setCf n 22 63 40 blocks).setCf n 22 39 16 blocks).setCf n 0 31 28 2).cards := by rw [armedCtx]
  refine ⟨(hx.setState 2).congr hcards (by rw [armedCtx]), ?_⟩
  exact (cf_congr hcards n 0 31 28).trans (cstate_setCf_state hx.rising (by decide))

/-- The records of a job's blocks that wait for nothing. -/
def newRecs (s : State) (c n : Nat) (j : Job) : List (Nat × Rec) :=
  (upto 0 (blockCount j.hdr j.trips)).map fun lin =>
    (gkey n lin, newRec n j (BitVec.ofNat 32 ((s.ctx c).cserial n)) lin 0 (s.arrived c n j lin))

/-- The job of a card without bindings: its blocks' records join their queues at once. -/
theorem createJob_of_unbound {s : State} {c n : Nat} (h : Unbound (s.ctx c) n) (j : Job) : ∃ u keys,
    (u = s ∨ u = s.modCtx c fun x => x.allWhole n) ∧ s.createJob c n j false =
      (u.modCtx c fun x => armedCtx x n (blockCount j.hdr j.trips) (newRecs u c n j)).enqueueAll c keys := by
  have hlinks := linksFor_of_unbound h j (blockCount j.hdr j.trips)
  let u := if 0 + s.links.length ≤ 8388608 then s else s.modCtx c fun x => x.allWhole n
  have hu : u = s ∨ u = s.modCtx c fun x => x.allWhole n := ite_eq_or_eq ..
  have hctx : u.ctx c = s.ctx c := by
    rcases hu with hu | hu <;> rw [hu]
    rw [ctx_modCtx_self, allWhole_of_unbound h]
  have hulinks := linksFor_of_unbound (s := u) (c := c) (n := n) (by rwa [hctx]) j (blockCount j.hdr j.trips)
  refine ⟨u, ((newRecs u c n j).filter fun r => r.2.join == 0).map fun r => r.1, hu, ?_⟩
  unfold State.createJob
  simp only [Bool.false_eq_true, if_false, hlinks, List.length_nil]
  change State.enqueueAll (State.modCtx (State.placeLinks (u.linksFor c n j _) u) c _) c _ = _
  rw [hulinks]
  rfl

theorem createJob_arms {s : State} {c n : Nat} (h : Unbound (s.ctx c) n) (hr : risingFrom 0 (s.ctx c).cards = true) (j : Job) :
    Prepares c n s (s.createJob c n j false) ∧ ((s.createJob c n j false).ctx c).cstate n = 2 := by
  obtain ⟨u, keys, hu, hjob⟩ := createJob_of_unbound h j
  have hsu : Prepares c n s u := by
    rcases hu with rfl | rfl
    · exact .refl hr
    · exact .modCtx (by rw [allWhole_of_unbound h]; exact .refl hr)
  obtain ⟨harm, hstate⟩ := arming_armedCtx n (blockCount j.hdr j.trips) (newRecs u c n j) hsu.arming.rising
  have hq := OnlyQueues.enqueueAll (u.modCtx c fun x => armedCtx x n (blockCount j.hdr j.trips) (newRecs u c n j)) c keys
  rw [← hjob] at hq
  have hself := ctx_modCtx_self u c fun x => armedCtx x n (blockCount j.hdr j.trips) (newRecs u c n j)
  have hcards := (hq.cards c).trans (congrArg Ctx.cards hself)
  refine ⟨hsu.trans ⟨hq.mem, hq.cores, hq.arms, hq.reev, harm.congr hcards ?_⟩, (cf_congr hcards n 0 31 28).trans hstate⟩
  exact (hq.jobs c).trans (congrArg Ctx.jobs hself)

/-! ### An accepted arm (R32) -/

/-- Card n of context c is ARMED under its next serial and its job stands; memory, the cores, the host's arms and the loop
nodes due are the same. -/
structure Accepted (c n : Nat) (s t : State) : Prop where
  state : (t.ctx c).cstate n = 2
  job : (mget (t.ctx c).jobs n).isSome = true
  serial : (t.ctx c).cserial n = nextSerial (s.ctx c) n
  mem : t.mem = s.mem
  cores : t.cores = s.cores
  arms : t.arms = s.arms
  reev : t.reev = s.reev

/-- The context of an accepted arm before anything is bound. -/
def acceptedCtx (x : Ctx) (n : Nat) (j : Job) (intens : Nat) : Ctx :=
  let u := ((x.acceptWords n).setCf n 17 37 22 intens).setCf n 17 21 21 (b2n false)
  { u with jobs := mset u.jobs n { j with snap := (u.card n).take 22 }, hdrs := mset u.hdrs n j.hdr }

theorem acceptedCtx_arming {x : Ctx} {n : Nat} (j : Job) (intens : Nat) (hr : risingFrom 0 x.cards = true) (h : Unbound x n) :
    let y := acceptedCtx x n j intens
    risingFrom 0 y.cards = true ∧ Unbound y n ∧ y.cserial n = nextSerial x n ∧ (mget y.jobs n).isSome = true := by
  have harm := ((arming_acceptWords n hr).setCf (k := 17) 37 22 intens (by decide) (by decide)).setCf (k := 17) 21 21 (b2n false)
    (by decide) (by decide)
  have hcards : (acceptedCtx x n j intens).cards =
      (((x.acceptWords n).setCf n 17 37 22 intens).setCf n 17 21 21 (b2n false)).cards := by rw [acceptedCtx]
  refine ⟨hcards ▸ harm.rising, (harm.unbound (unbound_withSerial hr h)).congr hcards, ?_, ?_⟩
  · exact (cf_congr hcards n 0 63 32).trans (harm.serial.trans (cserial_withSerial n hr))
  · rw [acceptedCtx, mget_mset_self]
    rfl

/-- The state of an arm that has bound nothing, before it allocates tags. -/
def acceptedState (s : State) (c n : Nat) (j : Job) (intens : Nat) : State :=
  let t := s.modCtx c fun x => acceptedCtx x n j intens
  t.setCtx c (t.ctx c)

theorem acceptedState_ctx (s : State) (c n : Nat) (j : Job) (intens : Nat) :
    (acceptedState s c n j intens).ctx c = acceptedCtx (s.ctx c) n j intens := by
  rw [acceptedState, ctx_setCtx_self, ctx_modCtx_self]

theorem acceptKernel_eq (s : State) (c n : Nat) (j : Job) (intens : Nat) (v : View) : s.acceptKernel c n j intens false v =
    let t := s.modCtx c fun x => acceptedCtx x n { j with view := v } intens
    let b := (t.ctx c).bindAll n j.hdr false [0, 1, 2, 3]
    if !b.2 then (t.setCtx c b.1).jobFail c n 0x20 0x64 0
    else if !false ∧ blockCount j.hdr j.trips = 0 then
      (((t.setCtx c b.1).allocTags c n j.hdr false).modCtx c fun x => (x.setCw n 24 s.rtime).setCf n 0 31 28 2).jobDone c n
    else ((t.setCtx c b.1).allocTags c n j.hdr false).createJob c n { j with view := v } false := rfl

/-- A card without bindings: tags are allocated and the job stands. -/
theorem acceptKernel_of_unbound {s : State} {c n : Nat} {j : Job} (intens : Nat) (v : View) (h : Unbound (s.ctx c) n)
    (hr : risingFrom 0 (s.ctx c).cards = true) (hb : blockCount j.hdr j.trips ≠ 0) :
    s.acceptKernel c n j intens false v = ((acceptedState s c n { j with view := v } intens).allocTags c n j.hdr false).createJob
      c n { j with view := v } false := by
  have hunb := (acceptedCtx_arming { j with view := v } intens hr h).2.1
  rw [← ctx_modCtx_self s c fun x => acceptedCtx x n { j with view := v } intens] at hunb
  rw [acceptKernel_eq]
  dsimp only
  rw [bindAll_of_unbound hunb _ _ (by decide), if_neg (by simp), if_neg fun h0 => hb h0.2, acceptedState]

theorem acceptKernel_accepts {s : State} {c n : Nat} {j : Job} (intens : Nat) (v : View) (h : Unbound (s.ctx c) n)
    (hr : risingFrom 0 (s.ctx c).cards = true) (hb : blockCount j.hdr j.trips ≠ 0) :
    Accepted c n s (s.acceptKernel c n j intens false v) := by
  obtain ⟨hrise, hunb, hserial, hsome⟩ := acceptedCtx_arming { j with view := v } intens hr h
  rw [acceptKernel_of_unbound intens v h hr hb]
  rw [← acceptedState_ctx] at hrise hunb hserial hsome
  have htags := Prepares.allocTags (n := n) hrise j.hdr false
  obtain ⟨hprep, hstate⟩ := createJob_arms (htags.arming.unbound hunb) htags.arming.rising { j with view := v }
  have hall := htags.trans hprep
  exact ⟨hstate, by rwa [hall.arming.jobs], hall.arming.serial.trans hserial, hall.mem, hall.cores, hall.arms, hall.reev⟩

/-- A kernel card that nothing refuses and whose image is good is accepted. -/
theorem armCard_of_kernelCheck {s : State} {c n : Nat} {j : Job} {intens : Nat} (f : Nat) (v : View) (k : Nat)
    (h : s.armRefusal c n = none) (hk : (s.ctx c).cf n 0 27 25 = 0) (hc : s.kernelCheck c n = .ok j intens false) :
    s.armCard (f + 1) c n v k = .answer 0 (s.acceptKernel c n j intens false v) := by
  rw [State.armCard, h]
  dsimp only
  rw [if_pos (.inl hk), hc]

/-- Card n of context c is a kernel card without bindings whose arm nothing refuses: its image is good and has a block to
run, and no loop node is due. -/
def Armable (c n : Nat) (s : State) : Prop :=
  s.armRefusal c n = none ∧ (s.ctx c).cf n 0 27 25 = 0 ∧ s.reev = [] ∧ risingFrom 0 (s.ctx c).cards = true ∧
    Unbound (s.ctx c) n ∧ ∃ j intens, s.kernelCheck c n = .ok j intens false ∧ blockCount j.hdr j.trips ≠ 0

theorem Armable.accepted {s : State} {c n : Nat} (h : Armable c n s) (v : View) (k : Nat) :
    ∃ t, s.armCard 4097 c n v k = .answer 0 t ∧ Accepted c n s t ∧ t.reev = [] := by
  obtain ⟨href, hkind, hreev, hrise, hunb, j, intens, hcheck, hblocks⟩ := h
  have hacc := acceptKernel_accepts intens v hunb hrise hblocks
  exact ⟨_, armCard_of_kernelCheck 4096 v k href hkind hcheck, hacc, hacc.reev.trans hreev⟩

/-- No loop node is due. -/
theorem campionEnd_of_none {s : State} (h : s.reev = []) : s.campionEnd = s := by
  rw [State.campionEnd, State.reevaluate, h]
  rfl

/-- The host's first arm, no write made before it waiting. -/
theorem exec_armRequest_host {s t : State} {c : Fin 8} {n m : Nat} {a : List (Fin 8 × Nat × Nat)} (ha : s.ctxActs c.val = true)
    (hs : s.arms = (c, n, m) :: a) (hw : s.hostHeld m = false) (hr : t.reev = [])
    (h : State.armCard 4097 { s with arms := a } c.val n (View.put [] hostAgent m) 0 = .answer 0 t) :
    exec (.armRequest c none) s = .next t := by
  have hfind : s.arms.find? (fun x => x.1.val == c.val) = some (c, n, m) := by rw [hs]; simp
  have herase : s.arms.erase (c, n, m) = a := by rw [hs]; exact List.erase_cons_head ..
  have harm : s.hostArm c.val = t := by
    rw [State.hostArm, hfind]
    dsimp only
    rw [hw, herase, h]
    exact campionEnd_of_none hr
  change Host.Outcome.next (if s.ctxActs c.val = true then s.hostArm c.val else s) = _
  rw [if_pos ha, harm]

/-- A JARM at the head of q24. -/
theorem exec_armRequest_core {s t : State} {c : Fin 8} {k n : Nat} {d : SIx} {v : View} {r : List JobReq}
    (ha : s.asks k = true) (hc : (s.core k).res.ctx = c) (hq : (s.core k).q24 = .arm n d v :: r) (hr : t.reev = [])
    (h : (s.dropReq k).armCard 4097 c.val n v k = .answer 0 t) :
    exec (.armRequest c (some k)) s = .next (t.answerC k d 0) := by
  subst hc
  have harm : s.coreArm k = t.answerC k d 0 := by
    rw [State.coreArm, hq]
    dsimp only
    rw [h]
    exact campionEnd_of_none hr
  rw [State.asks, Bool.and_eq_true] at ha
  change Host.Outcome.next (if _ then _ else s) = _
  rw [ha.2, ha.1, beq_self_eq_true, Bool.and_self, Bool.and_self, if_pos rfl, harm]

end Sys2Proof.Proofs
end

section
/-!
PROOFS. Campion's answers to JPATCH, JSTAT and TAGTEST, and the tiles of a publication (R34, R48, R52, R285, R286).
-/
namespace Sys2Proof.Proofs
open Sys2Proof Sys2Proof.Machine Sys2Proof.Laws

/-! ### A patch (R34) -/

theorem patch_free {x : Ctx} {n : Nat} (w : Nat) (v : Word) (h : x.cstate n = 0) : x.patch n w v = (0x10, x) := if_pos h
theorem patch_live {x : Ctx} {n : Nat} (w : Nat) (v : Word) (h : x.cstate n = 2 ∨ x.cstate n = 3) :
    x.patch n w v = (0x11, x) := by rw [Ctx.patch, if_neg (by omega), if_pos h]
/-- The value that a patch gives word w: of word 7 only its upper half (R34). -/
def patchValue (x : Ctx) (n w : Nat) (v : Word) : Nat :=
  if w = 7 then v.toNat / 2 ^ 32 * 2 ^ 32 + x.cw n 7 % 2 ^ 32 else v.toNat
theorem patch_idle {x : Ctx} {n : Nat} (w : Nat) (v : Word) (h0 : x.cstate n ≠ 0) (h2 : x.cstate n ≠ 2) (h3 : x.cstate n ≠ 3) :
    x.patch n w v = (0, x.setCw n w (patchValue x n w v)) := by
  rw [Ctx.patch, if_neg h0, if_neg (by omega), patchValue]
  split
  · next hw =>
    have hv := v.isLt
    have hx := cw_lt x n 7
    rw [hw, Ctx.setCf]
    congr 2
    rw [putBits, bits]
    omega
  · rfl
theorem patchValue_lt (x : Ctx) (n w : Nat) (v : Word) : patchValue x n w v < 2 ^ 64 := by
  have hv := v.isLt
  unfold patchValue
  split <;> omega

/-- The words of an idle card after a patch (R34). -/
theorem patch_idle_cw {x : Ctx} {n w : Nat} (v : Word) (h0 : x.cstate n ≠ 0) (h2 : x.cstate n ≠ 2) (h3 : x.cstate n ≠ 3)
    (hr : risingFrom 0 x.cards = true) (hw : w < 32) : (x.patch n w v).2.cw n w = patchValue x n w v ∧
      ∀ m k, k < 32 → ¬(m = n ∧ k = w) → (x.patch n w v).2.cw m k = x.cw m k := by
  rw [patch_idle w v h0 h2 h3]
  exact ⟨(cw_setCw_self _ _ _ hr).trans (toNat_w64 (patchValue_lt x n w v)), fun m k hk hne => cw_setCw_ne _ hr (by omega)⟩

/-- JPATCH: its context takes the patch. -/
theorem exec_patchRequest {s : State} {k n w : Nat} {d : SIx} {v : Word} {r : List JobReq} (ha : s.asks k = true)
    (hd : d ∈ (s.core k).r.c.await) (hq : (s.core k).q24 = .patch n w v d :: r) :
    let p := (s.ctx (s.core k).res.ctx.val).patch n w v
    ∃ t, exec (.patchRequest k) s = .next t ∧ t.mem = s.mem ∧ Replied s t k d (w64 p.1) ∧ t.ctx (s.core k).res.ctx.val = p.2 := by
  intro p
  refine ⟨((s.dropReq k).setCtx (s.core k).res.ctx.val p.2).answerC k d (w64 p.1), ?_, rfl, replied_answerC _ rfl hd,
    ctx_setCtx_self ..⟩
  change execPatchRequest k s = _
  rw [execPatchRequest, hq]
  dsimp only
  rw [if_pos ha]

/-! ### Status and tag words (R285, R286) -/

/-- The fields of the JSTAT word (R286). -/
theorem statWord_fields (x : Ctx) (n : Nat) : (x.statWord n).toNat / 2 ^ 32 = x.cserial n ∧
    bits (x.statWord n).toNat 31 28 = x.cstate n ∧ bits (x.statWord n).toNat 27 20 = x.cf n 23 55 48 ∧
    bits (x.statWord n).toNat 19 0 = min (x.cf n 22 39 16) 0xFFFFF := by
  have h1 : x.cserial n < 2 ^ 32 := bits_lt _ 63 32
  have h2 : x.cstate n < 2 ^ 4 := bits_lt _ 31 28
  have h3 : x.cf n 23 55 48 < 2 ^ 8 := bits_lt _ 55 48
  have h4 := Nat.min_le_right (x.cf n 22 39 16) 0xFFFFF
  rw [Ctx.statWord, toNat_w64 (by omega)]
  refine ⟨?_, ?_, ?_, ?_⟩
  · omega
  all_goals unfold bits; omega

section
variable {s : State} {k : Nat} {d : SIx} {r : List JobReq} (ha : s.asks k = true) (hd : d ∈ (s.core k).r.c.await)
include ha hd

/-- JSTAT: one that reads DONE acquires. -/
theorem exec_campionAnswer_stat {n : Nat} (hq : (s.core k).q24 = .stat n d :: r) :
    let x := s.ctx (s.core k).res.ctx.val
    ∃ t, exec (.campionAnswer k) s = .next t ∧ t.mem = s.mem ∧
      (x.cstate n = 4 → Acquired s t k d (x.statWord n) (mgetD x.dviews n [])) ∧
      (x.cstate n ≠ 4 → Replied s t k d (x.statWord n)) := by
  intro x
  let u := (s.dropReq k).answerC k d (x.statWord n)
  have hu : Replied s u k d (x.statWord n) := replied_answerC _ rfl hd
  refine ⟨if x.cstate n = 4 then u.answerAcquire k (mgetD x.dviews n []) else u, ?_, ?_, fun h => ?_, fun h => ?_⟩
  · change execCampionAnswer k s = _
    simp only [execCampionAnswer, ha, hq, Bool.not_true, Bool.false_eq_true, if_false]
    rfl
  · split
    · exact learn_mem u k _
    · rfl
  · rw [if_pos h]
    exact acquired_answerAcquire _ hu
  · rw [if_neg h]
    exact hu

/-- TAGTEST: one that reads READY acquires. -/
theorem exec_campionAnswer_test {b : Nat} {tile : Word} (hq : (s.core k).q24 = .test b tile d :: r) {a : Nat} {v : View}
    (h : s.testWord (s.core k).res.ctx.val (s.core k).res.card (s.core k).res.hdr b tile.toNat = (a, v)) :
    ∃ t, exec (.campionAnswer k) s = .next t ∧ t.mem = s.mem ∧
      (a = 0x40 → Replied s t k d (w64 a)) ∧ (a = 0x32 → Acquired s t k d (w64 a) v) := by
  let u := (s.dropReq k).answerC k d (w64 a)
  have hu : Replied s u k d (w64 a) := replied_answerC _ rfl hd
  refine ⟨if a % 4 = 2 ∧ a / 8 % 2 = 0 ∧ a < 0x40 then u.answerAcquire k v else u, ?_, ?_, fun h => ?_, fun h => ?_⟩
  · change execCampionAnswer k s = _
    simp only [execCampionAnswer, ha, hq, Bool.not_true, Bool.false_eq_true, if_false, h]
    rfl
  · split
    · exact learn_mem u k _
    · rfl
  · subst h
    exact hu
  · subst h
    exact acquired_answerAcquire _ hu

end

theorem testWord_unused {s : State} {c n : Nat} (h : List Word) {b : Nat} (tile : Nat)
    (hb : bindUsed ((s.ctx c).card n) b = false) : s.testWord c n h b tile = (0x40, []) := by
  simp [State.testWord, hb]
/-- A whole binding of this arm's, its producer DONE (R285). -/
theorem testWord_whole {s : State} {c n : Nat} (h : List Word) {b tile : Nat} {j : Job}
    (hb : bindUsed ((s.ctx c).card n) b = true) (hw : bindWhole ((s.ctx c).card n) b = true)
    (hs : (s.ctx c).cserial (bindCard ((s.ctx c).card n) b) = bindSer ((s.ctx c).card n) b)
    (hd : (s.ctx c).cstate (bindCard ((s.ctx c).card n) b) = 4) (hj : mget (s.ctx c).jobs n = some j)
    (ht : tile < gridSize (j.grids.getD b 0)) :
    s.testWord c n h b tile = (0x32, mgetD (s.ctx c).dviews (bindCard ((s.ctx c).card n) b) []) := by
  simpa [State.testWord, hb, hw, hs, hd, hj, b2n] using ht

/-! ### Tiles (R48, R52) -/

/-- Tile e is y, the other tiles are as before, the request has left its queue and memory is as it was. -/
structure TileBecomes (s t : State) (k e : Nat) (y : Tag) : Prop where
  tile : mget t.tags e = some y
  others : ∀ m, m ≠ e → mget t.tags m = mget s.tags m
  q24 : (t.core k).q24 = (s.core k).q24.tail
  mem : t.mem = s.mem

theorem dropReq_q24 (s : State) (k : Nat) : ((s.dropReq k).core k).q24 = (s.core k).q24.tail := by
  rw [core_dropReq]
  rfl

/-- A tile that is not READY becomes so by a publication; its links are freed. -/
theorem publishTile_ready {s : State} {k e : Nat} {x : Tag} (v : View) (hx : mget s.tags e = some x) (h : x.state ≠ .ready) :
    TileBecomes s ((s.dropReq k).publishTile k v e) k e { x with state := .ready, view := v } ∧
      ∀ l ∈ ((s.dropReq k).publishTile k v e).links, l.tag ≠ some e := by
  have hx' : mget (s.dropReq k).tags e = some x := hx
  let u : State := { s.dropReq k with
    tags := mset s.tags e { x with state := .ready, view := v }
    links := s.links.filter fun l => !(l.tag == some e) }
  have hq := OnlyQueues.decJoins u x.ctx.val ((s.dropReq k).linksOf e) v
  have hp : (s.dropReq k).publishTile k v e =
      (u.decJoins x.ctx.val ((s.dropReq k).linksOf e) v).modCore k fun c => { c with nTiles := c.nTiles + 1 } := by
    simp only [State.publishTile, State.tagReady, hx', Option.any_some, bne_iff_ne, ne_eq, h, not_false_eq_true, if_true,
      if_false]
    rfl
  rw [hp]
  refine ⟨⟨?_, fun m hm => ?_, ?_, hq.mem⟩, fun l hl => ?_⟩
  · exact (congrArg (fun m => mget m e) hq.tags).trans (mget_mset_self ..)
  · exact (congrArg (fun t => mget t m) hq.tags).trans (mget_mset_ne _ _ hm)
  · rw [core_modCore_self]
    have hc := congrArg (fun m => (mgetD m k Core.init).q24) hq.cores
    exact hc.trans (dropReq_q24 s k)
  · have hl' : l ∈ s.links.filter fun l => !(l.tag == some e) := (congrArg (l ∈ ·) hq.links).mp hl
    simpa using (List.mem_filter.1 hl').2

/-- A tile that is EMPTY becomes PENDING. -/
theorem tagPend_pending {s : State} (k : Nat) {e : Nat} {x : Tag} (hx : mget s.tags e = some x) (h : x.state = .empty) :
    TileBecomes s ((s.dropReq k).tagPend e) k e { x with state := .pending } := by
  have hx' : mget (s.dropReq k).tags e = some x := hx
  have hp : (s.dropReq k).tagPend e = { s.dropReq k with tags := mset s.tags e { x with state := .pending } } := by
    simp only [State.tagPend, hx', h, true_or, if_true]
    rfl
  rw [hp]
  exact ⟨mget_mset_self .., fun m hm => mget_mset_ne _ _ hm, dropReq_q24 s k, rfl⟩

section
variable {s : State} {k slot tile e : Nat} {r : List JobReq} (ha : s.asks k = true) (he : s.tileEntry k slot tile = some e)
include ha he

theorem exec_tagPublication_pub {v : View} (hq : (s.core k).q24 = .pub slot tile v :: r) :
    exec (.tagPublication k) s = .next ((s.dropReq k).publishTile k v e) := by
  change execTagPublication k s = _
  simp [execTagPublication, ha, hq, he]
theorem exec_tagPublication_ready {v : View} {x : Tag} (hq : (s.core k).q24 = .ready slot tile v :: r)
    (hx : mget s.tags e = some x) (h : x.state = .pending) :
    exec (.tagPublication k) s = .next ((s.dropReq k).publishTile k v e) := by
  have hx' : mget (s.dropReq k).tags e = some x := hx
  change execTagPublication k s = _
  simp [execTagPublication, ha, hq, he, State.publishPending, hx', h]
theorem exec_tagPublication_pending {ph : Nat} (hq : (s.core k).q24 = .pending slot tile ph :: r) :
    exec (.tagPublication k) s = .next ((s.dropReq k).tagPend e) := by
  change execTagPublication k s = _
  simp [execTagPublication, ha, hq, he]

end

end Sys2Proof.Proofs
end

section
/-!
PROOFS. Campion's answers, settled.
-/
namespace Sys2Proof.Proofs
open Sys2Proof Sys2Proof.Machine Sys2Proof.Laws

theorem sameMemory_of_mem {s t : State} (h : t.mem = s.mem) : s.sameMemory t := fun a => congrArg (fun m => Memory.get m a) h
theorem tail_q24 {s t : State} {k : Nat} {q : JobReq} {r : List JobReq} (h : (t.core k).q24 = (s.core k).q24.tail)
    (hq : (s.core k).q24 = q :: r) : (t.core k).q24 = r := by
  rw [h, hq]
  rfl

/-- Settles O47, request by request: the two ways to arm, JPATCH by the state of its card, JSTAT, TAGTEST, and the tiles. -/
theorem campionRequests : Obligations.CampionRequests := by
  unfold Obligations.CampionRequests
  intro s k n c d r serial accepted armable answer next acquired
  have hanswer {t : State} {v : Word} (h : Answered s t k d v) : answer t v := ⟨h.value, h.await, h.runs⟩
  have hacquired {t : State} {v : Word} {w : View} {q : JobReq} (h : Acquired s t k d v w) (hq : (s.core k).q24 = q :: r) :
      acquired t w := ⟨h.seen, h.rfc, by rw [h.q24, hq]; rfl⟩
  refine ⟨fun a m hacts harms hheld harmable => ?_, fun hasks hctx hd => ⟨fun v hq harmable => ?_, fun w v hq => ?_, fun hq => ?_,
    fun b tile hq => ⟨fun hb => ?_, fun hb hw hser hdone j hj ht => ?_⟩⟩, fun slot tile e x hasks he hx => ⟨fun v hq hst => ?_,
    fun v hq hst => ?_, fun ph hq hst => ?_⟩⟩
  · obtain ⟨t, harm, hacc, hreev⟩ := Armable.accepted harmable (View.put [] hostAgent m) 0
    exact ⟨t, exec_armRequest_host hacts harms hheld hreev harm,
      ⟨hacc.state, hacc.job, hacc.serial, sameMemory_of_mem hacc.mem⟩, hacc.arms⟩
  · obtain ⟨t, harm, hacc, hreev⟩ := Armable.accepted harmable v k
    have hreply := replied_answerC 0 hacc.cores hd
    exact ⟨_, exec_armRequest_core hasks hctx hq hreev harm,
      ⟨hacc.state, hacc.job, hacc.serial, sameMemory_of_mem hacc.mem⟩, hanswer hreply.toAnswered, tail_q24 hreply.q24 hq⟩
  · subst hctx
    obtain ⟨t, hexec, hmem, hrep, hctx⟩ := exec_patchRequest hasks hd hq
    have hans := hanswer hrep.toAnswered
    refine ⟨t, hexec, sameMemory_of_mem hmem, tail_q24 hrep.q24 hq, fun h0 => ?_, fun h => ?_, fun h0 h2 h3 hrise hw => ?_⟩
    · rw [patch_free w v h0] at hans hctx
      exact ⟨hans, congrArg Ctx.cards hctx⟩
    · rw [patch_live w v h] at hans hctx
      exact ⟨hans, congrArg Ctx.cards hctx⟩
    · have hcw := patch_idle_cw v h0 h2 h3 hrise hw
      rw [← hctx] at hcw
      rw [patch_idle w v h0 h2 h3] at hans
      exact ⟨hans, hcw⟩
  · subst hctx
    obtain ⟨t, hexec, hmem, hacq, hrep⟩ := exec_campionAnswer_stat hasks hd hq
    obtain ⟨hserial, hstate, hstatus, hleft⟩ := statWord_fields (s.ctx (s.core k).res.ctx) n
    refine ⟨t, _, hexec, ?_, sameMemory_of_mem hmem, hserial, hstate, hstatus, hleft, fun h => hacquired (hacq h) hq,
      fun h => tail_q24 (hrep h).q24 hq⟩
    by_cases h : (s.ctx (s.core k).res.ctx).cstate n = 4
    · exact hanswer (hacq h).toAnswered
    · exact hanswer (hrep h).toAnswered
  · subst hctx
    obtain ⟨t, hexec, hmem, hrep, -⟩ := exec_campionAnswer_test hasks hd hq (testWord_unused _ _ hb)
    exact ⟨t, hexec, hanswer (hrep rfl).toAnswered, tail_q24 (hrep rfl).q24 hq, sameMemory_of_mem hmem⟩
  · subst hctx
    obtain ⟨t, hexec, -, -, hacq⟩ := exec_campionAnswer_test hasks hd hq (testWord_whole _ hb hw hser hdone hj ht)
    exact ⟨t, hexec, hanswer (hacq rfl).toAnswered, hacquired (hacq rfl) hq⟩
  · obtain ⟨htile, hlinks⟩ := publishTile_ready (k := k) v hx hst
    exact ⟨_, exec_tagPublication_pub hasks he hq, ⟨htile.tile, htile.others, tail_q24 htile.q24 hq, sameMemory_of_mem htile.mem⟩,
      hlinks⟩
  · obtain ⟨htile, hlinks⟩ := publishTile_ready (k := k) v hx (by rw [hst]; decide)
    exact ⟨_, exec_tagPublication_ready hasks he hq hx hst,
      ⟨htile.tile, htile.others, tail_q24 htile.q24 hq, sameMemory_of_mem htile.mem⟩, hlinks⟩
  · have htile := tagPend_pending k hx hst
    exact ⟨_, exec_tagPublication_pending hasks he hq, htile.tile, htile.others, tail_q24 htile.q24 hq,
      sameMemory_of_mem htile.mem⟩

end Sys2Proof.Proofs
end

section
/-!
PROOFS. Turns of the schedule and the default turn: who moves, and the form that a stream's next lane decodes to (R79 to R83, R108,
R369).
-/
namespace Sys2Proof.Proofs
open Sys2Proof Sys2Proof.Machine Sys2Proof.Laws

/-! ### Who moves (R80, R283, R369) -/

theorem step_scheduled {s : State} {t : Turn} {r : List Turn} (h : s.schedule = t :: r) : Machine.step s =
    (State.holdNow { s.pass t.ns t.cc with schedule := r }).meanwhile.clockAct t.act (clockActs r) := by
  rw [Machine.step, State.turn, h]

theorem clockAct_of_not_sooner {s : State} {a : Act} {as : List Act} (h : s.sooner a as = none) :
    s.clockAct a as = s.doAct a as := by rw [State.clockAct, h]

/-- An act that meets no trigger together with another of its clock stands as it was performed alone (R369). -/
theorem together_of_no_clash {s : State} {k : Nat} {a : Act} {as : List Act} (h : s.clash k a as = []) (o : Out) :
    s.together k a as o = o := by
  cases o <;> simp [State.together, h]

theorem doAct_event {s : State} {i : Instr} (as : List Act) (hi : Instr.isEvent i = true) (hk : ∀ k, i ≠ .kStep k) :
    s.doAct (.event i) as = exec i s := by
  rw [State.doAct, if_pos hi]
  exact hk

theorem doAct_kStep {s : State} {k : Nat} {as : List Act} (h : s.clash k (.event (.kStep k)) as = []) :
    s.doAct (.event (.kStep k)) as = exec (.kStep k) s := by
  have hev : Instr.isEvent (.kStep k) = true := rfl
  rw [State.doAct, if_pos hev, together_of_no_clash h]
  rfl

theorem doAct_stream {s : State} {k : Nat} {m : Stm} {as : List Act}
    (h : ({ s with cur := k, strm := m } : State).clash k (.stream k m) as = [])
    (hr : ({ s with cur := k, strm := m } : State).rival (streamsOf k as) = none) :
    s.doAct (.stream k m) as = ({ s with cur := k, strm := m } : State).streamTurn := by
  rw [State.doAct, together_of_no_clash h, State.clockTurn, hr]

/-- With no turn scheduled, a stream that does not wait goes on. -/
theorem step_default {s : State} (h : s.schedule = []) (hh : s.hold = none) (hr : s.rival [.c, .a, .v] = none)
    (hs : s.sooner (.stream s.cur s.strm) ([Stm.c, .a, .v].map (Act.stream s.cur)) = none)
    (hc : s.clash s.cur (.stream s.cur s.strm) ([Stm.c, .a, .v].map (Act.stream s.cur)) = []) (hb : s.st.blk = .run) :
    Machine.step s = s.streamTurn := by
  have hd : s.defaultTurn = s := if_pos hb
  have hms : streamsOf s.cur ([Stm.c, .a, .v].map (Act.stream s.cur)) = [.c, .a, .v] := by simp [streamsOf]
  rw [Machine.step, State.turn, h]
  simp only [hh, Option.isSome_none, Bool.false_eq_true, if_false, hd]
  rw [clockAct_of_not_sooner hs, doAct_stream hc (by rw [hms]; exact hr)]

/-! ### The form that a stream meets (R79 to R83, R108) -/

@[simp] theorem res_modSt (s : State) (f : Stream → Stream) : (s.modSt f).res = s.res := by
  simp [State.res, State.modSt, State.setSt, Core.res, Core.setStr]

/-- The stream's state once it has begun its line (R79). -/
def lineBegun (s : State) : State := if s.st.begun then s else s.modSt fun x => { x with begun := true }

/-- Beginning a line changes nothing else of the stream. -/
theorem st_lineBegun (s : State) : (lineBegun s).st = { s.st with begun := true } := by
  unfold lineBegun
  split
  · next h => rw [← h]
  · exact st_modSt _ _
@[simp] theorem strm_lineBegun (s : State) : (lineBegun s).strm = s.strm := by unfold lineBegun; split <;> rfl
@[simp] theorem res_lineBegun (s : State) : (lineBegun s).res = s.res := by unfold lineBegun; split <;> simp

/-- A stream looks for its form on a line that it has begun, or that passes the checks of its beginning. -/
theorem fetchForm_begins {s : State} {dbg : Bool} (hm : s.mayIssue dbg = true)
    (hb : s.st.begun = true ∨ s.st.pos.lseq ≤ s.me.r.minLseq + s.me.r.win ∧ lineFault (s.lineOf s.res s.st.pos.line) = none)
    (hl : s.st.pos.line < s.res.codelines) :
    s.fetchForm dbg = (lineBegun s).inLine (s.lineOf s.res s.st.pos.line) := by
  have hline : ¬ s.res.codelines ≤ s.st.pos.line := by omega
  unfold State.fetchForm lineBegun
  by_cases h : s.st.begun = true
  · simp [hm, h, hline]
  · obtain ⟨hw, hf⟩ := hb.resolve_left h
    have hwin : ¬ s.me.r.minLseq + s.me.r.win < s.st.pos.lseq := by omega
    simp [hm, h, hline, hwin, hf]

theorem inLine_of_nextLane {s : State} {l : List Nat} {n : Nat} (hk : s.st.skip = none)
    (hn : nextLane (8 - s.st.pos.lane) s.strm l s.st.pos.lane = some n) : s.inLine l = s.decodeAt l n := by
  simp only [State.inLine, hn, hk]

/-- A and V run an ALL form from its steer entry (R83, R108). -/
theorem decodeAt_follower {s : State} {l : List Nat} {n : Nat} {e : Steer} {es : List Steer}
    (ht : tagSpace (tagOf l n) = some .all) (hm : s.strm ≠ .c) (he : s.st.steer = e :: es) :
    s.decodeAt l n = .form (s.atLane n) e.form := by
  have hst : (s.atLane n).st.steer = e :: es := by simpa [State.atLane] using he
  simp [State.decodeAt, ht, hm, State.steered, hst]

/-- Every other lane is decoded in its space; a form of C that closes a quiet point does so (R108, R176). -/
theorem decodeAt_own {s : State} {l : List Nat} {n : Nat} {sp : Space} {i : Instr} (ht : tagSpace (tagOf l n) = some sp)
    (hm : sp ≠ .all ∨ s.strm = .c) (hd : decodeForm sp (l.getD n 0) (l.getD (n + 1) 0) (l.getD (n + 2) 0) = .ok i)
    (hdecl : declaredOk s.res.hdr s.strm i = true) (ha : s.awaited i = false) :
    s.decodeAt l n = .form (if s.strm = .c ∧ keepsQuiet i = false then
      (s.atLane n).modMe fun c => { c with quietPt := false } else s.atLane n) i := by
  have hawait : (s.atLane n).awaited i = false := by simpa [State.awaited, State.atLane] using ha
  have hown : ¬ (sp = .all ∧ s.strm ≠ .c) := fun h => hm.elim (fun h' => h' h.1) h.2
  simp only [State.decodeAt, ht, hown, if_false, hd, hdecl, hawait, Bool.not_true, Bool.false_eq_true]
  by_cases hq : s.strm = .c ∧ keepsQuiet i = false
  · simp [hq]
  · have hq' : ¬ (s.strm = .c ∧ (!keepsQuiet i) = true) := by simpa using hq
    rw [if_neg hq', if_neg hq]

/-- Settles O57: the turns of the schedule by their act, then the stream that goes on by the space of its lane. -/
theorem stepRunsDecodedForm : Obligations.StepRunsDecodedForm := by
  unfold Obligations.StepRunsDecodedForm
  intro s
  refine ⟨?_, ?_, ?_, ?_⟩
  · intro ns cc i r hs hi hk v hv
    rw [step_scheduled hs, clockAct_of_not_sooner hv, doAct_event _ hi hk]
  · intro ns cc k r hs v hv
    rw [step_scheduled hs, clockAct_of_not_sooner rfl, doAct_kStep hv]
  · intro ns cc k m r hs v u hv hu hr
    rw [step_scheduled hs, clockAct_of_not_sooner hv, doAct_stream hu hr]
  · intro n sp i p l u as hs hh hr hsoon hc hb hm hbeg hl hk hn ht
    have hform {t : State} {j : Instr} (h : (lineBegun s).decodeAt l n = .form t j) : Machine.step s = exec j t := by
      rw [step_default hs hh hr hsoon hc hb, State.streamTurn, fetchForm_begins hm hbeg hl,
        inLine_of_nextLane (by rwa [st_lineBegun]) (by rwa [st_lineBegun, strm_lineBegun]), h]
    refine ⟨fun hall hne e es he => ?_, fun hown hd hdecl ha => ?_⟩
    · subst hall
      exact hform (decodeAt_follower ht (by rwa [strm_lineBegun]) (by rwa [st_lineBegun]))
    · have h := hform (decodeAt_own ht (by rwa [strm_lineBegun]) hd (by rwa [strm_lineBegun, res_lineBegun])
        (by rwa [State.awaited, st_lineBegun]))
      rwa [strm_lineBegun] at h

end Sys2Proof.Proofs
end

section
/-!
PROOFS. The branch and loop forms: how C steers A and V and follows its own entry, and how A and V follow (R83, R153 to R157).
-/
namespace Sys2Proof.Proofs
open Sys2Proof Sys2Proof.Machine Sys2Proof.Laws

/-! ### Changes of the registers of the current core's streams -/

theorem core_modMe_ne (s : State) {k : Nat} (f : Core → Core) (h : k ≠ s.cur) : (s.modMe f).core k = s.core k :=
  core_setCore_ne _ _ h
theorem modRegs_modRegs (s : State) (f g : Regs → Regs) : (s.modRegs f).modRegs g = s.modRegs fun r => g (f r) := by
  simp [State.modRegs]
theorem modSt_eq_modRegs (s : State) (f : Stream → Stream) :
    s.modSt f = s.modRegs fun r => r.setStr s.strm (f (r.str s.strm)) := rfl

theorem wake_of_run {x : Stream} (h : x.blk = .run) : x.wake = x := if_pos h
@[simp] theorem wake_steer (x : Stream) : x.wake.steer = x.steer := by unfold Stream.wake; split <;> rfl
/-- A stream that tries again does so whatever entries it has. -/
theorem wake_withSteer (x : Stream) (l : List Steer) : ({ x with steer := l } : Stream).wake = { x.wake with steer := l } := by
  unfold Stream.wake
  split <;> rfl

/-- A form that changes the registers of streams and lets the waiting ones try again changes nothing else. -/
theorem onlyRegs_modRegs_woken (s : State) (f : Regs → Regs) : s.woken.onlyRegs ((s.modRegs f).modMe Core.wake) := by
  refine ⟨⟨?_, fun k hk => ?_⟩, ?_⟩
  · simp only [State.woken, State.modRegs, modMe_modMe]
    rfl
  · have hk' : k ≠ s.cur := hk
    rw [State.modRegs, modMe_modMe, core_modMe_ne s _ hk', State.woken, core_modMe_ne s _ hk']
  · simp only [State.woken, State.modRegs, me_modMe]
    rfl

/-! ### A stream follows an entry (R83, R153) -/

/-- The stream after a form of the ALL space: its effect under C's guard, then the target line or the next lane. -/
def followed (eff : Word → Stream → Stream) (e : Steer) (x : Stream) : Stream :=
  let y := if e.guard then eff e.val x else x
  if e.guard && e.taken then y.jump e.target else y.advance

theorem followed_taken {eff : Word → Stream → Stream} {e : Steer} (hg : e.guard = true) (ht : e.taken = true) (x : Stream) :
    followed eff e x = (eff e.val x).jump e.target := by simp [followed, hg, ht]
theorem followed_stays {eff : Word → Stream → Stream} {e : Steer} (hg : e.guard = true) (ht : e.taken = false) (x : Stream) :
    followed eff e x = (eff e.val x).advance := by simp [followed, hg, ht]
theorem followed_passed {eff : Word → Stream → Stream} {e : Steer} (hg : e.guard = false) (x : Stream) :
    followed eff e x = x.advance := by simp [followed, hg]

/-- Whether an entry is taken or not, the stream waits no more. -/
theorem followed_blk (eff : Word → Stream → Stream) (e : Steer) (x : Stream) : (followed eff e x).blk = .run := by
  unfold followed
  dsimp only
  split <;> rfl

theorem follow_modRegs (s : State) (f : Regs → Regs) (eff : Word → Stream → Stream) (e : Steer) : follow eff e (s.modRegs f) =
    (s.modRegs fun r => (f r).setStr s.strm (followed eff e ((f r).str s.strm))).modMe Core.wake :=
  congrArg (fun u : State => u.modMe Core.wake) (modRegs_modRegs s f fun r => r.setStr s.strm (followed eff e (r.str s.strm)))
theorem st_follow_modRegs (s : State) (f : Regs → Regs) (eff : Word → Stream → Stream) (e : Steer) :
    (follow eff e (s.modRegs f)).st = followed eff e ((f s.me.r).str s.strm) := by
  have hwake (m : Stm) (c : Core) : c.wake.str m = (c.str m).wake := by cases m <;> rfl
  rw [follow_modRegs]
  change ((((s.modRegs _).modMe Core.wake).me).str s.strm) = _
  rw [me_modMe, hwake, State.modRegs, me_modMe, Core.str, str_setStr, wake_of_run (followed_blk ..)]
theorem onlyRegs_follow_modRegs (s : State) (f : Regs → Regs) (eff : Word → Stream → Stream) (e : Steer) :
    s.woken.onlyRegs (follow eff e (s.modRegs f)) := by
  rw [follow_modRegs]
  exact onlyRegs_modRegs_woken _ _

/-! ### C's turn at a form of the ALL space (R83) -/

/-- What C does at an entry of its own: it follows it, and A and V get it behind the entries that they have. -/
structure Steered (s t : State) (eff : Word → Stream → Stream) (e : Steer) : Prop where
  st : t.st = followed eff e s.st
  only : s.woken.onlyRegs t
  a : t.me.r.a = { s.woken.me.r.a with steer := s.me.r.a.steer ++ [e] }
  v : t.me.r.v = { s.woken.me.r.v with steer := s.me.r.v.steer ++ [e] }

theorem steered_follow {s : State} (hm : s.strm = .c) (eff : Word → Stream → Stream) (e : Steer) :
    Steered s (follow eff e (s.steer e)) eff e where
  st := by
    rw [State.steer, st_follow_modRegs, State.st, hm]
    rfl
  only := onlyRegs_follow_modRegs _ _ _ _
  a := by
    rw [State.steer, follow_modRegs, me_modMe, State.modRegs, me_modMe, State.woken, me_modMe, hm]
    exact wake_withSteer _ _
  v := by
    rw [State.steer, follow_modRegs, me_modMe, State.modRegs, me_modMe, State.woken, me_modMe, hm]
    exact wake_withSteer _ _

section
variable {s : State} {i : Instr} {g : Guard} {ev : State → Except Nat (Word × Option Int)} {app : Steer → State → State}
  {v : Word} (hm : s.strm = .c) (hf : s.steerFull = false) (hg : s.guardB g = true)
include hm hf hg

theorem allForm_stays (hv : ev s = .ok (v, none)) : s.allForm i g ev app = app ⟨i, true, v, false, 0⟩ (s.steer ⟨i, true, v, false, 0⟩) := by
  simp [State.allForm, hm, hf, hg, hv]
theorem allForm_taken {n : Int} {l : Nat} (hv : ev s = .ok (v, some n)) (hn : n = l) (ht : s.targetFault s.res l = none) :
    s.allForm i g ev app = app ⟨i, true, v, true, l⟩ (s.steer ⟨i, true, v, true, l⟩) := by
  have hl : ¬ (l : Int) < 0 := by omega
  simp [State.allForm, hm, hf, hg, hv, hn, hl, ht]
/-- A taken branch to a line that is none of the image's branch targets is a fatal error (R79, R153). -/
theorem allForm_bad {n : Int} {l code : Nat} (hv : ev s = .ok (v, some n)) (hn : n = l) (ht : s.targetFault s.res l = some code) :
    s.allForm i g ev app = s.fatal code 0 0 := by
  have hl : ¬ (l : Int) < 0 := by omega
  simp [State.allForm, hm, hf, hg, hv, hn, hl, ht]

end

/-! ### A's and V's turn at a form of the ALL space (R83) -/

section
variable {s : State} {i : Instr} {g : Guard} {ev : State → Except Nat (Word × Option Int)} {app : Steer → State → State}
  (hm : s.strm = .a ∨ s.strm = .v)
include hm

theorem allForm_follows {e : Steer} {r : List Steer} (he : s.st.steer = e :: r) :
    s.allForm i g ev app = app e (s.modSt fun x => { x with steer := r }).orderReads := by
  rcases hm with hm | hm <;> simp [State.allForm, hm, he]
theorem allForm_waits (he : s.st.steer = []) : s.allForm i g ev app = s.blocked .loose := by
  rcases hm with hm | hm <;> simp [State.allForm, hm, he]

end

/-! ### The forms that stay on their line or leave it -/

/-- Settles O17, form by form: each leaves its line by the entry that C gives A and V too, or stays on it. -/
theorem controlFormsCompleteInC : Obligations.ControlFormsCompleteInC := by
  unfold Obligations.ControlFormsCompleteInC
  intro s g a ln off o13 cnt l hm hf hg p goes stays same there
  have goesBy {i : Instr} {v : Word} {k : Stream → Stream → Prop} {ev : State → Except Nat (Word × Option Int)}
      {eff : Word → Stream → Stream} {n : Int} (hx : exec i s = .next (s.allForm i g ev (follow eff)))
      (hv : ev s = .ok (v, some n)) (hn : there n) (hp : (eff v s.st).pos = p) (hk : k s.st ((eff v s.st).jump l)) : goes i v k := by
    obtain ⟨hst, honly, ha, hv'⟩ := steered_follow hm eff ⟨i, true, v, true, l⟩
    rw [← allForm_taken (i := i) (app := follow eff) hm hf hg hv hn.1 hn.2] at hst honly ha hv'
    rw [followed_taken rfl rfl] at hst
    refine ⟨_, hx, ?_, ?_, ?_, honly, ha, hv'⟩ <;> rw [hst]
    · rw [← hp]
      rfl
    · rfl
    · exact hk
  have staysBy {i : Instr} {v : Word} {k : Stream → Stream → Prop} {ev : State → Except Nat (Word × Option Int)}
      {eff : Word → Stream → Stream} (hx : exec i s = .next (s.allForm i g ev (follow eff)))
      (hv : ev s = .ok (v, none)) (hp : (eff v s.st).pos = p) (hk : k s.st (eff v s.st).advance) : stays i v k := by
    obtain ⟨hst, honly, ha, hv'⟩ := steered_follow hm eff ⟨i, true, v, false, 0⟩
    rw [← allForm_stays (i := i) (app := follow eff) hm hf hg hv] at hst honly ha hv'
    rw [followed_stays rfl rfl] at hst
    refine ⟨_, hx, ?_, ?_, honly, ha, hv'⟩ <;> rw [hst]
    · rw [← hp]
      rfl
    · exact hk
  have hsame (x : Stream) : same x (x.jump l) := ⟨⟨rfl, rfl, rfl, rfl, rfl⟩, rfl⟩
  clear_value goes stays
  refine ⟨fun h => ?_, fun h hlen => ?_, fun h => ?_, fun r hr ht => ?_, ?_, ?_, fun hlt h => ?_, fun hge => ?_, fun h => ?_⟩
  · exact goesBy rfl rfl h rfl (hsame _)
  · exact goesBy rfl (if_neg (by omega)) h rfl ⟨rfl, rfl, rfl⟩
  · exact goesBy rfl rfl h rfl (hsame _)
  · exact goesBy (n := l) rfl (by simp only [hr]) ⟨rfl, ht⟩ rfl ⟨congrArg List.tail hr, rfl, rfl⟩
  · exact staysBy rfl rfl rfl ⟨rfl, rfl, rfl, rfl⟩
  · have hcnt : (cnt.setWidth 64).setWidth 32 = cnt.setWidth 32 := BitVec.setWidth_setWidth_of_le _ (by decide)
    have hzero : cnt.setWidth 32 = (0 : BitVec 32) ↔ cnt = 0 := by
      rw [← BitVec.toNat_inj, ← BitVec.toNat_inj, BitVec.toNat_setWidth_of_le (by decide)]
      rfl
    refine staysBy rfl rfl rfl ⟨rfl, congrArg (s.st.llim.set ln) hcnt, ?_, rfl⟩
    change (if (cnt.setWidth 64).setWidth 32 = (0 : BitVec 32) then some ln else none) = _
    simp only [hcnt, hzero]
  · exact goesBy rfl (by rw [if_pos hlt]; rfl) h rfl ⟨rfl, rfl, rfl⟩
  · exact staysBy rfl (by rw [if_neg hge]) rfl ⟨rfl, rfl, rfl⟩
  · exact goesBy rfl rfl h rfl ⟨rfl, rfl, rfl⟩

end Sys2Proof.Proofs
end

section
/-!
PROOFS. The stop of a context: what it leaves of the error records, and the record that the first error fills (R344, R348, R349).
-/
namespace Sys2Proof.Proofs
open Sys2Proof Sys2Proof.Machine Sys2Proof.Laws

/-! ### Card words and the error record of a context -/

section
variable (x : Ctx) (n w hi lo v : Nat)

@[simp] theorem setCw_err : (x.setCw n w v).err = x.err := by rw [Ctx.setCw]
@[simp] theorem setCw_stopped : (x.setCw n w v).stopped = x.stopped := by rw [Ctx.setCw]
@[simp] theorem setCf_err : (x.setCf n w hi lo v).err = x.err := by rw [Ctx.setCf, setCw_err]
@[simp] theorem setCf_stopped : (x.setCf n w hi lo v).stopped = x.stopped := by rw [Ctx.setCf, setCw_stopped]
@[simp] theorem addCf_err : (x.addCf n w hi lo v).err = x.err := by rw [Ctx.addCf, setCf_err]
@[simp] theorem addCf_stopped : (x.addCf n w hi lo v).stopped = x.stopped := by rw [Ctx.addCf, setCf_stopped]
@[simp] theorem failCard_err (a b c d : Nat) : (x.failCard n a b c d).err = x.err := by simp [Ctx.failCard]
@[simp] theorem failCard_stopped (a b c d : Nat) : (x.failCard n a b c d).stopped = x.stopped := by simp [Ctx.failCard]

end

/-! ### The error records, and which contexts have stopped -/

/-- Every context's error record, and whether it has stopped, are the same. -/
structure SameStops (s t : State) : Prop where
  err : ∀ c, (t.ctx c).err = (s.ctx c).err
  stopped : ∀ c, (t.ctx c).stopped = (s.ctx c).stopped

namespace SameStops
variable {s t u : State}

theorem of_ctx (h : ∀ c, t.ctx c = s.ctx c) : SameStops s t := ⟨fun c => by rw [h], fun c => by rw [h]⟩
theorem of_ctxs (h : t.ctxs = s.ctxs) : SameStops s t := .of_ctx fun c => congrArg (fun m => mgetD m c Ctx.init) h
theorem refl (s : State) : SameStops s s := .of_ctxs rfl
theorem trans (h : SameStops s t) (g : SameStops t u) : SameStops s u :=
  ⟨fun c => (g.err c).trans (h.err c), fun c => (g.stopped c).trans (h.stopped c)⟩
/-- After a change that leaves the contexts alone, and before one. -/
theorem after (h : SameStops t u) (ht : t.ctxs = s.ctxs) : SameStops s u := (of_ctxs ht).trans h
theorem before (h : SameStops s t) (hu : u.ctxs = t.ctxs) : SameStops s u := h.trans (of_ctxs hu)
/-- What leaves them at every element of a list leaves them over the list. -/
theorem foldl {α : Type} {f : State → α → State} (hf : ∀ t x, SameStops t (f t x)) (l : List α) (s : State) :
    SameStops s (l.foldl f s) := by
  induction l generalizing s with
  | nil => exact refl s
  | cons x l ih => exact (hf s x).trans (ih _)
theorem elim {α : Type} {f : α → State} (hf : ∀ x, SameStops s (f x)) (o : Option α) : SameStops s (o.elim s f) := by
  cases o with
  | none => exact refl s
  | some x => exact hf x
theorem modCtx (s : State) (n : Nat) {f : Ctx → Ctx} (he : ∀ x, (f x).err = x.err := by exact fun _ => rfl)
    (hs : ∀ x, (f x).stopped = x.stopped := by exact fun _ => rfl) : SameStops s (s.modCtx n f) :=
  ⟨fun c => field_modCtx Ctx.err s n c he, fun c => field_modCtx Ctx.stopped s n c hs⟩
theorem modCore (s : State) (k : Nat) (f : Core → Core) : SameStops s (s.modCore k f) := of_ctxs rfl
theorem logEv (s : State) (e : Ev) : SameStops s (s.logEv e) := .of_ctx fun c => logEv_ctx s e c
theorem sendVec (s : State) (n : Nat) : SameStops s (s.sendVec n) := .of_ctx fun c => sendVec_ctx s n c
theorem raiseCtx (s : State) (c n : Nat) : SameStops s (s.raiseCtx c n) := by
  unfold State.raiseCtx
  split
  · exact refl s
  · exact (modCtx s c).trans (sendVec _ _)
theorem raiseMod (s : State) (n : Nat) : SameStops s (s.raiseMod n) := by
  unfold State.raiseMod
  split
  · exact refl s
  · exact (sendVec _ _).after rfl
theorem freeze (s : State) : SameStops s s.freeze := by
  unfold State.freeze
  split
  · exact refl s
  · exact (raiseMod _ _).after rfl
theorem ofQueues (h : OnlyQueues s t) : SameStops s t := by
  refine ⟨fun c => ?_, fun c => ?_⟩ <;> obtain ⟨q, hq⟩ := h.ctx c <;> rw [hq]

/-! ### Writes of memory, and publications (R264, R303) -/

theorem clearRows (s : State) (as : List Nat) : SameStops s (s.clearRows as) := by
  refine foldl (fun t w => ?_) _ s
  unfold State.clearWay
  split
  · exact of_ctxs rfl
  · exact refl t
theorem memWrite (s : State) (g : Nat) (v : View) (cells : List Host.Cell) : SameStops s (s.memWrite g v cells) := by
  refine (clearRows s (cells.map fun c => c.1)).trans (of_ctxs ?_)
  unfold State.memWrite State.perform
  split <;> rfl
theorem performComm (s : State) (k : Nat) : SameStops s (s.performComm k) := by
  unfold State.performComm
  split
  · exact refl s
  · dsimp only
    split
    · exact clearRows s _
    · exact (memWrite s _ _ _).before rfl
theorem flushComm (n : Nat) (s : State) (k : Nat) : SameStops s (s.flushComm n k) := by
  induction n generalizing s with
  | zero => exact refl s
  | succ n ih => exact (performComm s k).trans (ih _)
theorem rowRelease (s : State) : SameStops s s.rowRelease := (foldl (fun t _ => memWrite t _ _ _) _ _).after rfl

/-! ### The end of a job (R42, R44, R48, R57) -/

theorem addStats (s : State) (k : Nat) : SameStops s (s.addStats k) := by
  unfold State.addStats
  exact modCtx s _ (fun x => by simp) fun x => by simp
theorem tagVoid (s : State) (e block : Nat) : SameStops s (s.tagVoid e block) := by
  unfold State.tagVoid
  split
  · exact refl s
  · split
    · exact refl s
    · exact (logEv _ _).after rfl
theorem tagPend (s : State) (e : Nat) : SameStops s (s.tagPend e) := by
  unfold State.tagPend
  split
  · split <;> exact of_ctxs rfl
  · exact refl s
theorem tagReady (s : State) (e : Nat) (v : View) : SameStops s (s.tagReady e v) := by
  unfold State.tagReady
  split
  · exact refl s
  · split
    · exact refl s
    · exact (ofQueues (OnlyQueues.decJoins _ _ _ _)).after rfl
theorem publishPending (s : State) (k : Nat) (v : View) (e : Nat) : SameStops s (s.publishPending k v e) := by
  unfold State.publishPending State.publishTile
  split
  · split
    · exact (tagReady s e v).before rfl
    · exact refl s
  · exact refl s
theorem sendPending (s : State) (k : Nat) : SameStops s (s.sendPending k) := by
  refine foldl (fun t q => ?_) _ s
  split
  · split
    · exact refl t
    · exact elim (tagPend t) _
  · exact elim (publishPending t k _) _
  · exact refl t
theorem ackRvks (s : State) (k : Nat) : SameStops s (s.ackRvks k) := foldl (fun t _ => logEv t _) _ s
theorem vacate (s : State) (k : Nat) : SameStops s (s.vacate k) := by
  unfold State.vacate
  dsimp only
  split
  · exact of_ctxs rfl
  · refine SameStops.trans ?_ (modCore _ k _)
    exact (ackRvks _ k).after rfl
theorem cqWrite (s : State) (c : Nat) (w0 w1 : Word) (irq : Bool) : SameStops s (s.cqWrite c w0 w1 irq) := by
  unfold State.cqWrite
  extract_lets t a v next d s1 s2
  have h1 : SameStops s s1 := by
    dsimp only [s1]
    split
    · exact (logEv _ _).after rfl
    · exact (memWrite _ _ _ _).after rfl
  have h2 : SameStops s s2 := h1.trans (modCtx s1 c)
  split
  · exact h2.trans (raiseCtx _ _ _)
  · exact h2
theorem cqPut (s : State) (c : Nat) (w0 w1 : Word) (irq : Bool) : SameStops s (s.cqPut c w0 w1 irq) := by
  unfold State.cqPut
  dsimp only
  split
  · exact cqWrite s c w0 w1 irq
  · split
    · exact modCtx s c
    · split
      · exact ((modCtx s c).trans (logEv _ _)).trans (raiseCtx _ _ _)
      · exact (modCtx s c).trans (logEv _ _)
theorem endEntry (s : State) (c n : Nat) (snap : List Word) : SameStops s (s.endEntry c n snap) := by
  unfold State.endEntry
  dsimp only
  split
  · exact cqPut s c _ _ _
  · exact refl s
theorem wakeNodes (s : State) (c n : Nat) : SameStops s (s.wakeNodes c n) := of_ctxs rfl
theorem failOne (s : State) (c n cstatus fcode fblock : Nat) (tiles : Bool) :
    SameStops s (s.failOne c n cstatus fcode fblock tiles) := by
  unfold State.failOne
  extract_lets snap ks s1 s2 s3 runs s4 s5
  have h1 : SameStops s s1 := foldl (fun t k => ((sendPending t k).trans (addStats _ k)).trans (vacate _ k)) ks s
  have h2 : SameStops s s2 := by
    dsimp only [s2]
    split
    · exact h1.trans (foldl (fun t e => tagVoid t e 0) _ s1)
    · exact h1
  have h4 : SameStops s s4 := h2.before rfl
  have h5 : SameStops s s5 := h4.trans (modCtx s4 c (fun x => by simp) fun x => by simp)
  exact (h5.trans (wakeNodes _ _ _)).trans (endEntry _ _ _ _)

/-! ### The abort of a group (R344) -/

theorem sendTx (s : State) (own : Option (Nat × Nat)) (rank dev : Nat) (p : Packet) : SameStops s (s.sendTx own rank dev p) := by
  unfold State.sendTx State.toPort
  dsimp only
  split <;> exact of_ctxs rfl
theorem adoptAtt (s : State) (c g : Nat) (att : BitVec 16) : SameStops s (s.adoptAtt c g att) := by
  unfold State.adoptAtt
  refine (modCtx _ c (fun x => ?_) fun x => ?_).after rfl <;> split <;> rfl
theorem abortGroup (s : State) (c g : Nat) : SameStops s (s.abortGroup c g) := by
  unfold State.abortGroup
  split
  · exact refl s
  · refine (adoptAtt s c g _).trans (foldl (fun t d => ?_) _ _)
    split
    · exact refl t
    · exact sendTx t _ _ _ _

end SameStops

/-! ### The record that a stop fills (R348, R349) -/

/-- A context that stops: the first fatal error fills its record. -/
def stoppedBy (w : List Word) (t : Ctx) : Ctx := { t.fillErr w with stopped := true, halted := false }

/-- A stop writes the record between two parts of its work that leave the records alone. -/
theorem stopWork_fills (s : State) (c : Nat) (card : Option Nat) (fcode fblock : Nat) (w : List Word) :
    ∃ u, SameStops s u ∧ SameStops (u.modCtx c (stoppedBy w)) (s.stopWork c card fcode fblock w) := by
  unfold State.stopWork
  extract_lets live mine a s0 s1 s2 t armed s3
  have ha : SameStops s a := (SameStops.foldl (fun t g => .abortGroup t c g) _ s).trans (.foldl .addStats _ _)
  have h0 : SameStops s s0 := by
    refine SameStops.trans ?_ (.foldl (fun t k => .flushComm _ t k) _ _)
    exact ha.trans ((SameStops.rowRelease _).after rfl)
  have h3 : SameStops s2 s3 := by
    refine .foldl (fun x n => ?_) _ s2
    split <;> exact .failOne ..
  refine ⟨s1, h0.before rfl, SameStops.trans ?_ (.raiseCtx _ c 1)⟩
  refine SameStops.trans ?_ (.freeze _)
  refine SameStops.trans ?_ (.modCtx _ c (fun _ => rfl) fun _ => rfl)
  exact h3.before rfl

/-- A context that stops at its first fatal error keeps that error's record. -/
theorem stopWork_record {s : State} {c : Nat} (card : Option Nat) (fcode fblock : Nat) (w : List Word) (h : s.noError c) :
    ((s.stopWork c card fcode fblock w).ctx c).stopped = true ∧ ((s.stopWork c card fcode fblock w).ctx c).err = w := by
  obtain ⟨u, hu, ht⟩ := stopWork_fills s c card fcode fblock w
  have hfill : stoppedBy w (u.ctx c) = { u.ctx c with err := w, stopped := true, halted := false } := by
    rw [stoppedBy, Ctx.fillErr, if_pos (by rw [hu.err]; exact h)]
  rw [ht.stopped, ht.err, ctx_modCtx_self, hfill]
  exact ⟨rfl, rfl⟩

theorem contextStopBy_record {s : State} {c : Nat} (card : Option Nat) (fcode : Nat) (e : CtxErr) (hs : (s.ctx c).stopped = false)
    (h : s.noError c) : ((s.contextStopBy c card fcode e).ctx c).stopped = true ∧
      ((s.contextStopBy c card fcode e).ctx c).err = e.words s.rtime := by
  unfold State.contextStopBy
  dsimp only
  rw [if_neg (by rw [hs]; decide)]
  exact stopWork_record _ _ _ _ (by rw [State.noError, logEv_ctx]; exact h)

/-- The code of a record stands in bits 63:56 of its first word (R349). -/
theorem words_code {e : CtxErr} (time : Nat) (hc : e.code < 256) (hd : e.detail < 256) (hs : e.stream < 4) (hn : e.card < 4096)
    (ha : e.agent < 8) (hb : e.block < 2 ^ 24) : ((e.words time).getD 0 0).toNat / 2 ^ 56 = e.code := by
  change (w64 _).toNat / 2 ^ 56 = e.code
  rw [toNat_w64 (by omega)]
  omega

end Sys2Proof.Proofs
end

section
/-!
PROOFS. A and V follow C's entries, and a taken branch of C to a line that is no branch target, settled (R79, R83, R153 to R157).
-/
namespace Sys2Proof.Proofs
open Sys2Proof Sys2Proof.Machine Sys2Proof.Laws

/-! ### A and V at a form of the ALL space (R83) -/

/-- What A or V goes on from: the entry that it follows is taken off its queue, and its reads follow what C's do. -/
def entryTaken (s : State) (r : List Steer) : Stream := ({ s.st with steer := r } : Stream).orderReads s.wseq

theorem follow_taken (s : State) (r : List Steer) (eff : Word → Stream → Stream) (e : Steer) :
    (follow eff e (s.modSt fun x => { x with steer := r }).orderReads).st = followed eff e (entryTaken s r) ∧
      s.woken.onlyRegs (follow eff e (s.modSt fun x => { x with steer := r }).orderReads) := by
  rw [orderReads_eq, modSt_modSt, modSt_eq_modRegs]
  refine ⟨?_, onlyRegs_follow_modRegs _ _ _ _⟩
  rw [st_follow_modRegs, str_setStr]
  rfl

/-- An effect of a branch or loop form: it touches no scalar, predicate, position or steer entry. -/
structure ControlEffect (eff : Word → Stream → Stream) : Prop where
  s : ∀ v x, (eff v x).s = x.s := by exact fun _ _ => rfl
  p : ∀ v x, (eff v x).p = x.p := by exact fun _ _ => rfl
  pos : ∀ v x, (eff v x).pos = x.pos := by exact fun _ _ => rfl
  steer : ∀ v x, (eff v x).steer = x.steer := by exact fun _ _ => rfl

/-- What neither a form's effect nor the stream's move changes. -/
theorem followed_field {α : Type} (π : Stream → α) {eff : Word → Stream → Stream} (heff : ∀ v x, π (eff v x) = π x) (e : Steer)
    (x : Stream) (ha : ∀ x, π x.advance = π x := by exact fun _ => rfl)
    (hj : ∀ x l, π (x.jump l) = π x := by exact fun _ _ => rfl) : π (followed eff e x) = π x := by
  have hy : π (if e.guard then eff e.val x else x) = π x := by split <;> [exact heff _ _; rfl]
  unfold followed
  dsimp only
  split
  · rw [hj, hy]
  · rw [ha, hy]

theorem followed_pos {eff : Word → Stream → Stream} (heff : ∀ v x, (eff v x).pos = x.pos) (e : Steer) (x : Stream) :
    (followed eff e x).pos =
      if e.guard && e.taken then ⟨e.target, 1, x.pos.lseq + 1⟩ else { x.pos with lane := x.pos.lane + 1 } := by
  have hy : (if e.guard then eff e.val x else x).pos = x.pos := by split <;> [exact heff _ _; rfl]
  unfold followed
  dsimp only
  rw [← hy]
  split <;> rfl

/-- Under a true guard of C's the stream has the form's effect on its control registers. -/
theorem sameControl_followed {eff : Word → Stream → Stream} {e : Steer} (hg : e.guard = true) (x : Stream) :
    (eff e.val x).sameControl (followed eff e x) := by
  cases ht : e.taken with
  | true => rw [followed_taken hg ht]; exact ⟨rfl, rfl, rfl, rfl, rfl⟩
  | false => rw [followed_stays hg ht]; exact ⟨rfl, rfl, rfl, rfl, rfl⟩

/-! ### A target that is none (R79, R153) -/

theorem targetFault_code {s : State} {r : Resident} {n code : Nat} (h : s.targetFault r n = some code) : code = 0x25 ∨ code = 0x26 := by
  unfold State.targetFault at h
  split at h
  · exact .inr (Option.some.inj h).symm
  · split at h
    · cases h
    · exact .inl (Option.some.inj h).symm

/-- C's taken branch to such a line stops its context, whose record holds the fault's code (R79, R349). -/
theorem exec_br_badTarget {s : State} {g : Guard} {off : BitVec 16} {l code : Nat} (hm : s.strm = .c) (hf : s.steerFull = false)
    (hg : s.guardB g = true) (hcard : s.res.card < 4096) (hblock : s.res.block < 2 ^ 24) (hs : (s.ctx s.cx).stopped = false)
    (he : s.noError s.cx) (hl : (s.st.pos.line : Int) + off.toInt = l) (ht : s.targetFault s.res l = some code) :
    ∃ t, exec (.br g off) s = .next t ∧ (t.ctx s.cx).stopped = true ∧ ((t.ctx s.cx).err.getD 0 0).toNat / 2 ^ 56 = code := by
  have hx : exec (.br g off) s = .next (s.fatal code 0 0) := congrArg _ (allForm_bad (v := 0) hm hf hg rfl hl ht)
  obtain ⟨hstop, herr⟩ := contextStopBy_record (some s.res.card) code (s.errAt s.cur s.strm s.st.pos code 0 0) hs he
  have hcode : code < 256 := by rcases targetFault_code ht with h | h <;> omega
  have hstream : Stm.code s.strm < 4 := by rw [hm]; decide
  refine ⟨_, hx, hstop, ?_⟩
  rw [State.fatal, State.contextStop]
  refine (congrArg (fun e : List Word => (e.getD 0 0).toNat / 2 ^ 56) herr).trans ?_
  exact words_code _ hcode (Nat.zero_lt_succ _) hstream hcard (Nat.zero_lt_succ _) hblock

/-- Settles O18: the followers form by form, and the stop at a line that is no branch target. -/
theorem followersAndTargets : Obligations.FollowersAndTargets := by
  unfold Obligations.FollowersAndTargets
  refine ⟨?_, ?_⟩
  · intro s g off a ln o13 cnt hm follows same stack opens
    have followsBy {i : Instr} {k : Steer → Stream → Stream → Prop} {ev : State → Except Nat (Word × Option Int)}
        {eff : Word → Stream → Stream} (hx : exec i s = .next (s.allForm i g ev (follow eff))) (heff : ControlEffect eff)
        (hk : ∀ e r y, (eff e.val (entryTaken s r)).sameControl y → k e s.st y) : follows i k := by
      refine ⟨fun e r he => ?_, fun he => ?_⟩
      · obtain ⟨hst, honly⟩ := follow_taken s r eff e
        rw [← allForm_follows (i := i) (g := g) (ev := ev) (app := follow eff) hm he] at hst honly
        refine ⟨_, hx, ?_, ?_, ?_, ?_, fun hg => hk e r _ ?_, fun hg => ?_, honly⟩ <;> rw [hst]
        · exact followed_field Stream.steer heff.steer e _
        · exact followed_field Stream.s heff.s e _
        · exact followed_field Stream.p heff.p e _
        · exact followed_pos heff.pos e _
        · exact sameControl_followed hg _
        · rw [followed_passed hg]
          exact ⟨rfl, rfl, rfl, rfl, rfl⟩
      · rw [allForm_waits hm he] at hx
        exact ⟨_, hx, st_modSt _ _⟩
    clear_value follows
    refine ⟨?_, ?_, ?_, ?_, ?_, ?_, ?_, ?_⟩
    · exact followsBy rfl {} fun _ _ _ h => h
    · exact followsBy rfl {} fun _ _ _ h => h
    · exact followsBy rfl {} fun _ _ _ ⟨_, hlc, hllim, hrstk, _⟩ => ⟨hrstk, hlc, hllim⟩
    · exact followsBy rfl {} fun _ _ _ ⟨_, hlc, hllim, hrstk, _⟩ => ⟨hrstk, hlc, hllim⟩
    · exact followsBy rfl {} fun _ _ _ ⟨_, hlc, hllim, hrstk, hskip⟩ => ⟨hlc, hllim, hskip, hrstk⟩
    · exact followsBy rfl {} fun _ _ _ ⟨_, hlc, hllim, hrstk, hskip⟩ => ⟨hlc, hllim, hskip, hrstk⟩
    · exact followsBy rfl {} fun _ _ _ ⟨_, hlc, hllim, hrstk, _⟩ => ⟨hlc, hllim, hrstk⟩
    · exact followsBy rfl {} fun _ _ _ ⟨_, hlc, hllim, hrstk, _⟩ => ⟨hllim, hlc, hrstk⟩
  · intro s g off l code hm hf hg hcard hblock hs he hl ht
    exact ⟨targetFault_code ht, exec_br_badTarget hm hf hg hcard hblock hs he hl ht⟩

end Sys2Proof.Proofs
end

section
/-!
PROOFS. A PHASE that carries more than 32 copies into the new phase's refetch log commits that phase early at once (R264, R274,
R366): O19 bounds only the logged copies that have not completed, and those that a cancel has performed again are carried too.
-/
namespace Sys2Proof.Proofs
open Sys2Proof Sys2Proof.Machine Sys2Proof.Laws

/-- Copies into scratch that a cancel has put back into q12, to be performed again silently (R366). -/
def redoneCopies : List CopyCmd := (List.range 33).map fun n =>
  { op := .copy, q := 0, flags := ⟨.none, false, false, .plain, false, false⟩, sems := ⟨false, 0, false, 0⟩, ring := 0, panel := 0,
    seq := n, src := ⟨.mem, 0, 0, 0, 0⟩, sshape := 0, dst := ⟨.local, 0, 0, 0, 0⟩, dshape := 0, i := 0, j := 0, outb := false, ph := 0,
    pos := ⟨0, 1, 0⟩, list := 0, cancelled := false, silent := true, view := EView.none }
/-- Core 0 stands at a PHASE, nothing left to publish; every copy of its refetch log had completed and is performed again. -/
def redoingState : State :=
  { State.reset with cores := [(0, { probeCore Core.init with
      cq := #v[redoneCopies, [], [], []], log := redoneCopies.map fun x => ⟨x, true, true⟩ })] }
/-- The guard p0. -/
def guardTrue : Guard := ⟨false, 0⟩

/-- No copy of the log counts against the bound of O19, and the new phase's log carries all 33. -/
theorem redoing_log : (redoingState.me.log.filter fun e => !e.done).length ≤ 32 ∧
    32 < (redoingState.me.log.filter fun e => !e.done || redoingState.me.redoing e.cmd).length := by decide
theorem redoing_mayPublish : redoingState.mayPublish :=
  ⟨fun _ h => absurd h List.not_mem_nil, fun _ h => absurd h List.not_mem_nil, rfl, rfl, rfl, fun _ h => absurd h List.not_mem_nil⟩
theorem exec_phase_redoing : ∃ t, exec (.phase guardTrue) redoingState = .next t ∧ t.me.early = true :=
  ⟨_, rfl, rfl⟩

/-- Refutes O19: a PHASE that carries 33 copies, each performed again after a cancel, leaves the new phase committed early. -/
theorem not_phaseAndKendCommit : ¬ Obligations.PhaseAndKendCommit := by
  unfold Obligations.PhaseAndKendCommit
  rintro ⟨-, hphase, -⟩
  obtain ⟨t, ht, -, -, -, -, hnot, -⟩ := hphase redoingState guardTrue rfl rfl rfl rfl rfl rfl rfl (.inl rfl) redoing_mayPublish
    redoing_log.1
  obtain ⟨u, hu, hearly⟩ := exec_phase_redoing
  rw [hu] at ht
  cases ht
  rw [hnot] at hearly
  cases hearly

end Sys2Proof.Proofs
end

section
/-!
PROOFS. Fields of a lane (R94, R97, R98, R101, R113, R137): a lane is a sum of fields at falling bit places, and each field is read
back from its place; a code names what it encodes.
-/
namespace Sys2Proof.Proofs
open Sys2Proof Sys2Proof.Machine Sys2Proof.Laws

/-! ### A field of a sum of fields -/

section
variable {v y c lo n : Nat}

@[simp] theorem fld_zero : fld 0 lo n = 0 := by simp [fld]
theorem fld_of_lt (h : v < 2 ^ lo) : fld v lo n = 0 := by simp [fld, Nat.div_eq_of_lt h]
@[simp] theorem fld_place_zero (h : v < 2 ^ n) : fld v 0 n = v := by simp [fld, Nat.mod_eq_of_lt h]
/-- A field below every bit of `v` does not see `v`. -/
theorem fld_add_below (h : v % 2 ^ (lo + n) = 0) : fld (v + y) lo n = fld y lo n := by
  obtain ⟨m, rfl⟩ := Nat.dvd_of_mod_eq_zero h
  rw [fld, fld, Nat.pow_add, Nat.mul_assoc, Nat.mul_add_div (Nat.two_pow_pos lo), Nat.mul_add_mod]
/-- A field above every bit of `y` does not see `y`. -/
theorem fld_add_above (h : v % 2 ^ lo = 0) (hy : y < 2 ^ lo) : fld (v + y) lo n = v / 2 ^ lo % 2 ^ n := by
  obtain ⟨m, rfl⟩ := Nat.dvd_of_mod_eq_zero h
  rw [fld, Nat.mul_add_div (Nat.two_pow_pos lo), Nat.div_eq_of_lt hy, Nat.mul_div_cancel_left _ (Nat.two_pow_pos lo), Nat.add_zero]
@[simp] theorem fld_mul_below (h : c % 2 ^ (lo + n) = 0) : fld (v * c) lo n = 0 := by
  obtain ⟨m, rfl⟩ := Nat.dvd_of_mod_eq_zero h
  rw [← Nat.add_zero (v * _), fld_add_below (by simp [Nat.mul_left_comm v]), fld_zero]
@[simp] theorem fld_below (h : c % 2 ^ (lo + n) = 0) : fld (v * c + y) lo n = fld y lo n := by
  obtain ⟨m, rfl⟩ := Nat.dvd_of_mod_eq_zero h
  exact fld_add_below (by simp [Nat.mul_left_comm v])
/-- The field at the place of `v` is `v`. -/
@[simp] theorem fld_mul_place (h : c = 2 ^ lo) (hv : v < 2 ^ n) : fld (v * c) lo n = v := by
  rw [h, fld, Nat.mul_div_cancel _ (Nat.two_pow_pos lo), Nat.mod_eq_of_lt hv]
@[simp] theorem fld_place (h : c = 2 ^ lo) (hv : v < 2 ^ n) (hy : y < c) : fld (v * c + y) lo n = v := by
  rw [fld_add_above (by simp [h]) (h ▸ hy), h, Nat.mul_div_cancel _ (Nat.two_pow_pos lo), Nat.mod_eq_of_lt hv]

end

/-! ### The readers of fields -/

theorem bN_lt (b : Bool) : bN b < 2 := by cases b <;> decide
@[simp] theorem bN_false : bN false = 0 := by rw [bN, if_neg Bool.false_ne_true]
@[simp] theorem bN_eq_one (b : Bool) : (bN b == 1) = b := by cases b <;> rfl
theorem fin_eq_fld {k : Nat} [NeZero k] (n : Nat) (h : k = 2 ^ n) (w lo : Nat) : fin k w lo = Fin.ofNat k (fld w lo n) :=
  Fin.ext (by simp [fin, fld, h])
@[simp] theorem fin_four (w lo : Nat) : fin 4 w lo = Fin.ofNat 4 (fld w lo 2) := fin_eq_fld 2 rfl w lo
@[simp] theorem fin_eight (w lo : Nat) : fin 8 w lo = Fin.ofNat 8 (fld w lo 3) := fin_eq_fld 3 rfl w lo
@[simp] theorem fin_thirtyTwo (w lo : Nat) : fin 32 w lo = Fin.ofNat 32 (fld w lo 5) := fin_eq_fld 5 rfl w lo
@[simp] theorem fin_sixtyFour (w lo : Nat) : fin 64 w lo = Fin.ofNat 64 (fld w lo 6) := fin_eq_fld 6 rfl w lo
@[simp] theorem fin_1024 (w lo : Nat) : fin 1024 w lo = Fin.ofNat 1024 (fld w lo 10) := fin_eq_fld 10 rfl w lo
@[simp] theorem sF_eq_fld (w lo : Nat) : sF w lo = Fin.ofNat 32 (fld w lo 5) := fin_eq_fld 5 rfl w lo
@[simp] theorem pF_eq_fld (w lo : Nat) : pF w lo = Fin.ofNat 8 (fld w lo 3) := fin_eq_fld 3 rfl w lo
@[simp] theorem hF_eq_fld (w lo : Nat) : hF w lo = Fin.ofNat 16 (fld w lo 4) := fin_eq_fld 4 rfl w lo
@[simp] theorem bF_eq_fld (w lo : Nat) : bF w lo = (fld w lo 1 == 1) := by rw [bF, fld, Nat.pow_one]
@[simp] theorem iF_eq_fld (n w lo : Nat) : iF n w lo = BitVec.ofNat n (fld w lo n) := BitVec.eq_of_toNat_eq (by simp [iF, fld])
@[simp] theorem need_true (e : DecodeError) (k : Dec) : need true e k = k := by rw [need, if_pos rfl]
@[simp] theorem zero_eq (w lo n : Nat) (k : Dec) : zero w lo n k = if fld w lo n = 0 then k else .error .reservedBits := by
  simp [zero, need]
@[simp] theorem code_some {α : Type} (x : α) (k : α → Dec) : code (some x) k = k x := by rw [code]
@[simp] theorem dec_ok_bind {α : Type} (x : α) (k : α → Dec) : (Except.ok x : Except DecodeError α) >>= k = k x := pure_bind x k
@[simp] theorem vs_eq_bind (w lo : Nat) (k : VSrc → Dec) : vs w lo k = VSrc.ofCode (fld w lo 5) >>= k := by
  rw [vs]; cases VSrc.ofCode (fld w lo 5) <;> rfl
@[simp] theorem vd_eq_bind (w lo : Nat) (k : VDst → Dec) : vd w lo k = VDst.ofCode (fld w lo 5) >>= k := by
  rw [vd]; cases VDst.ofCode (fld w lo 5) <;> rfl
@[simp] theorem tyF_eq_elim (w lo : Nat) (k : Ty → Dec) :
    tyF w lo k = (Ty.ofCode (fld w lo 5)).elim (.error .typeNotAccepted) k := by
  rw [tyF]; cases Ty.ofCode (fld w lo 5) <;> rfl

@[simp] theorem bitVec13_lt (x : BitVec 13) : x.toNat < 8192 := x.isLt

/-! ### Codes and what they name -/

@[simp] theorem ty_ofCode_code (t : Ty) : Ty.ofCode t.code = some t := by
  cases t with
  | bx k => revert k; decide
  | _ => rfl
@[simp] theorem ty_ofCode_f32 : Ty.ofCode 10 = some .f32 := ty_ofCode_code .f32
@[simp] theorem rm_ofCode_code (x : RM) : RM.ofCode x.code = some x := by cases x <;> rfl
@[simp] theorem ct_ofCode_code (x : CT) : CT.ofCode x.code = some x := by cases x <;> rfl
@[simp] theorem cc_ofCode_code (x : CC) : CC.ofCode x.code = some x := by cases x <;> rfl
@[simp] theorem scp_ofCode_code (x : Scp) : Scp.ofCode x.code = some x := by cases x <;> rfl
@[simp] theorem ord_ofCode_code (x : Ord) : Ord.ofCode x.code = some x := by cases x <;> rfl
@[simp] theorem fe_ofCode_code (x : Fe) : Fe.ofCode x.code = some x := by cases x <;> rfl
@[simp] theorem clip_ofCode_code (x : Clip) : Clip.ofCode x.code = some x := by cases x <;> rfl
@[simp] theorem aOp_ofCode_code (x : AOp) : AOp.ofCode x.code = some x := by cases x <;> rfl
@[simp] theorem ew_ofCode_code (x : Ew) : Ew.ofCode x.code = some x := by cases x <;> rfl
@[simp] theorem hField_ofCode_code (x : HField) : HField.ofCode x.code = some x := by cases x <;> rfl
@[simp] theorem tField_ofCode_code (x : TField) : TField.ofCode x.code = some x := by cases x <;> rfl
@[simp] theorem spr_ofCode_code (x : Spr) : Spr.ofCode x.code = some x := by
  cases x with
  | trip n => revert n; decide
  | jarg n => revert n; decide
  | lc n => revert n; decide
  | llim n => revert n; decide
  | _ => rfl
@[simp] theorem vSrc_ofCode_code (x : VSrc) : VSrc.ofCode x.code = .ok x := by
  cases x with
  | v n => revert n; decide
  | q n => revert n; decide
  | z => rfl
@[simp] theorem vDst_ofCode_code (x : VDst) : VDst.ofCode x.code = .ok x := by
  cases x with
  | v n => revert n; decide
  | _ => rfl

@[simp] theorem ty_code_lt (t : Ty) : t.code < 32 := by
  cases t with
  | bx k => exact (by omega : 0x10 + k.val < 32)
  | _ => decide
@[simp] theorem rm_code_lt (x : RM) : x.code < 8 := by cases x <;> decide
@[simp] theorem ct_code_lt (x : CT) : x.code < 8 := by cases x <;> decide
@[simp] theorem cc_code_lt (x : CC) : x.code < 16 := by cases x <;> decide
@[simp] theorem scp_code_lt (x : Scp) : x.code < 4 := by cases x <;> decide
@[simp] theorem ord_code_lt (x : Ord) : x.code < 4 := by cases x <;> decide
@[simp] theorem fe_code_lt (x : Fe) : x.code < 4 := by cases x <;> decide
@[simp] theorem clip_code_lt (x : Clip) : x.code < 4 := by cases x <;> decide
@[simp] theorem aOp_code_lt (x : AOp) : x.code < 16 := by cases x <;> decide
@[simp] theorem ew_code_lt (x : Ew) : x.code < 4 := by cases x <;> decide
@[simp] theorem hField_code_lt (x : HField) : x.code < 16 := by cases x <;> decide
@[simp] theorem tField_code_lt (x : TField) : x.code < 16 := by cases x <;> decide
@[simp] theorem spr_code_lt (x : Spr) : x.code < 2048 := by
  cases x with
  | trip n | jarg n | lc n | llim n => simp only [Spr.code]; omega
  | _ => decide
@[simp] theorem vSrc_code_lt (x : VSrc) : x.code < 32 := by
  cases x with
  | v n | q n => simp only [VSrc.code]; omega
  | z => decide
@[simp] theorem vDst_code_lt (x : VDst) : x.code < 32 := by
  cases x with
  | v n => simp only [VDst.code]; omega
  | _ => decide
/-- A vector source's code is 21 or below 20: 20 is a destination's (R97 Table 3). -/
@[simp] theorem vSrc_code_source (x : VSrc) : (decide (x.code < 20) || x.code == 21) = true := by
  cases x with
  | v n | q n =>
    rw [Bool.or_eq_true, decide_eq_true_eq, VSrc.code]
    omega
  | z => rfl

end Sys2Proof.Proofs
end

section
/-!
PROOFS. The layouts of R100 and R101: each layout reads from the lanes the encoder lays out the operands they were laid out from.
-/
namespace Sys2Proof.Proofs
open Sys2Proof Sys2Proof.Machine Sys2Proof.Laws

/-! ### The first lane (R94) -/

section
variable {h : Head} {op low lo n : Nat}

/-- The 16 low bits of a first lane are the form's own. -/
@[simp] theorem fld_eW_low (hn : lo + n ≤ 16) : fld (eW h op low) lo n = fld low lo n := by
  have he : eW h op low = (bN h.g.ng * 2 ^ 15 + h.g.gp.val * 2 ^ 12 + bN h.pn * 2 ^ 11 + bN h.pp * 2 ^ 10 + bN h.wn * 2 ^ 9 +
      bN h.wp * 2 ^ 8 + op) * 2 ^ 16 + low := by rw [eW]; ring
  rw [he, fld_below (Nat.mod_eq_zero_of_dvd (Nat.pow_dvd_pow 2 hn))]
theorem fld_eW_op (hop : op < 256) (hlow : low < 65536) : fld (eW h op low) 16 8 = op := by
  simp (disch := omega) [eW, Nat.add_assoc]
theorem headOf_eW (hop : op < 256) (hlow : low < 65536) : headOf (eW h op low) = h := by
  obtain ⟨⟨ng, gp⟩, pn, pp, wn, wp⟩ := h
  have := bN_lt ng
  have := bN_lt pn
  have := bN_lt pp
  have := bN_lt wn
  have := bN_lt wp
  simp (disch := omega) [eW, Nat.add_assoc, headOf, guardOf]

end

/-- A first lane of the ALL space is one without token bits. -/
theorem eG_eq_eW (g : Guard) (op low : Nat) : eG g op low = eW ⟨g, false, false, false, false⟩ op low := by simp [eG, eW, bN]

/-! ### Layouts of the first lane (R100) -/

section
variable {h : Head} {op l : Nat} {d a b c : SIx}

@[simp] theorem lS3w_eW (w : Bool) (k : SIx → SIx → SIx → Bool → Instr) : lS3w (eW h op (eS3 d a b w)) k = .ok (k d a b w) := by
  have := bN_lt w
  simp (disch := omega) [lS3w, eS3, Nat.add_assoc]
@[simp] theorem lS3_eW (k : SIx → SIx → SIx → Dec) : lS3 (eW h op (eS3 d a b false)) k = k d a b := by
  simp (disch := omega) [lS3, eS3, bN, Nat.add_assoc]
@[simp] theorem lS2_eW (k : SIx → SIx → Dec) : lS2 (eW h op (eS2 d a 0)) k = k d a := by
  simp (disch := omega) [lS2, eS2]
@[simp] theorem lS1_eW (k : SIx → Dec) : lS1 (eW h op (d.val * 2048)) k = k d := by
  simp (disch := omega) [lS1]
@[simp] theorem lS2I_eW (i : BitVec 6) (k : SIx → SIx → BitVec 6 → Instr) :
    lS2I (eW h op (eS2 d a i.toNat)) k = .ok (k d a i) := by
  simp (disch := omega) [lS2I, eS2, Nat.add_assoc]
@[simp] theorem lPL_eW (pd pa pb : PIx) (na nb : Bool) (k : PIx → PIx → PIx → Bool → Bool → Instr) :
    lPL (eW h op (ePL pd pa pb na nb)) k = .ok (k pd pa pb na nb) := by
  have := bN_lt na
  have := bN_lt nb
  simp (disch := omega) [lPL, ePL, Nat.add_assoc]
@[simp] theorem lCP_eW (pd pe : PIx) (i : Bool) (ct : CT) (cc : CC) (k : PIx → PIx → Bool → CT → CC → Dec) :
    lCP (eW h op (eCP pd pe i ct cc)) k = k pd pe i ct cc := by
  have := bN_lt i
  have := ct_code_lt ct
  have := cc_code_lt cc
  simp (disch := omega) [lCP, eCP, Nat.add_assoc]
@[simp] theorem lM1_eW (hs : HIx) (k : HIx → SIx → SIx → Dec) : lM1 (eW h op (eM1 hs d b)) k = k hs d b := by
  simp (disch := omega) [lM1, eM1, Nat.add_assoc]
@[simp] theorem lER_eW (sig : Option (Fin 16)) {sub : Nat} (hs : sub < 64) (k : SIx → Option (Fin 16) → Instr) :
    lER (eW h op (eER a sig sub)) k = .ok (k a sig) := by
  cases sig with
  | none => simp (disch := omega) [lER, eER, fld_of_lt]
  | some n => simp (disch := omega) [lER, eER, Nat.add_assoc, fld_add_below, fld_add_above, Nat.mod_eq_of_lt]
@[simp] theorem lERpop_eW {sub : Nat} (hs : sub < 64) (k : SIx → Instr) : lERpop (eW h op (eER d none sub)) k = .ok (k d) := by
  simp (disch := omega) [lERpop, eER, fld_of_lt]

/-- S2 is S3 with its last fields zero. -/
theorem eS3_zero : eS3 d a 0 false = eS2 d a 0 := by simp [eS3, eS2]
@[simp] theorem fld_eER_sub (sig : Option (Fin 16)) {sub : Nat} (hs : sub < 64) : fld (eER a sig sub) 0 6 = sub := by
  cases sig with
  | none | some n => simp (disch := omega) [eER, Nat.add_assoc, fld_add_below]

theorem eS3_lt (w : Bool) : eS3 d a b w < 65536 := by
  have := bN_lt w
  rw [eS3]; omega
theorem eS2_lt {i : Nat} (hi : i < 64) : eS2 d a i < 65536 := by rw [eS2]; omega
theorem ePL_lt (pd pa pb : PIx) (na nb : Bool) : ePL pd pa pb na nb < 65536 := by
  have := bN_lt na
  have := bN_lt nb
  rw [ePL]; omega
theorem eCP_lt (pd pe : PIx) (i : Bool) (ct : CT) (cc : CC) : eCP pd pe i ct cc < 65536 := by
  have := bN_lt i
  have := ct_code_lt ct
  have := cc_code_lt cc
  rw [eCP]; omega
theorem eM1_lt (hs : HIx) (d b : SIx) : eM1 hs d b < 65536 := by rw [eM1]; omega
theorem eE1_lt (hd hs td ts : Fin 16) : eE1 hd hs td ts < 65536 := by rw [eE1]; omega
theorem eER_lt (sig : Option (Fin 16)) {sub : Nat} (hs : sub < 64) : eER a sig sub < 65536 := by
  cases sig with
  | none | some n => simp only [eER]; omega

end

/-! ### Layouts of the continuation lanes (R101) -/

section
variable {h : Head} {op l : Nat} {d a b c : SIx}

section
variable {oc ty tz rm imm lo n : Nat} {s : Bool} (hoc : oc < 32) (hty : ty < 32) (htz : tz < 32) (hrm : rm < 8) (himm : imm < 8192)

@[simp] theorem fld_eTL_imm (hn : lo + n ≤ 13) : fld (eTL oc ty tz rm s imm) lo n = fld imm lo n := by
  have he : eTL oc ty tz rm s imm = (oc * 2 ^ 14 + ty * 2 ^ 9 + tz * 2 ^ 4 + rm * 2 + bN s) * 2 ^ 13 + imm := by rw [eTL]; ring
  rw [he, fld_below (Nat.mod_eq_zero_of_dvd (Nat.pow_dvd_pow 2 hn))]
include himm
@[simp] theorem fld_eTL_sat : fld (eTL oc ty tz rm s imm) 13 1 = bN s := by
  have := bN_lt s
  simp (disch := omega) [eTL, Nat.add_assoc]
include hrm
@[simp] theorem fld_eTL_rm : fld (eTL oc ty tz rm s imm) 14 3 = rm := by
  have := bN_lt s
  simp (disch := omega) [eTL, Nat.add_assoc]
include htz
@[simp] theorem fld_eTL_tz : fld (eTL oc ty tz rm s imm) 17 5 = tz := by
  have := bN_lt s
  simp (disch := omega) [eTL, Nat.add_assoc]
include hty
@[simp] theorem fld_eTL_ty : fld (eTL oc ty tz rm s imm) 22 5 = ty := by
  have := bN_lt s
  simp (disch := omega) [eTL, Nat.add_assoc]
include hoc
@[simp] theorem fld_eTL_oc : fld (eTL oc ty tz rm s imm) 27 5 = oc := by
  have := bN_lt s
  simp (disch := omega) [eTL, Nat.add_assoc]

end

theorem fld_eTL_rm_sat : fld (eTL 0 0x0A 0 0 false 0) 13 4 = 0 := by decide
@[simp] theorem lTLf_eTL (rm : RM) (s : Bool) (k : SIx → RM → Bool → Instr) :
    lTLf (eTL 0 0x0A 0 rm.code s 0) false k = .ok (k 0 rm s) := by simp [lTLf]
@[simp] theorem lTLf_eTL_zero (k : SIx → RM → Bool → Instr) : lTLf (eTL 0 0x0A 0 0 false 0) false k = .ok (k 0 .rne false) :=
  lTLf_eTL .rne false k
@[simp] theorem lTLf_eTL_oc (rm : RM) (s : Bool) (k : SIx → RM → Bool → Instr) :
    lTLf (eTL c.val 0x0A 0 rm.code s 0) true k = .ok (k c rm s) := by simp [lTLf]
theorem eEL_bounds (s : Sems) (f : CopyFlags) : (bN s.wen < 2 ∧ bN s.sen < 2 ∧ bN f.bps < 2 ∧ bN f.bpd < 2 ∧ bN f.dwe < 2 ∧
    bN f.evt < 2) ∧ f.clip.code < 4 ∧ f.sfe.code < 4 :=
  ⟨⟨bN_lt _, bN_lt _, bN_lt _, bN_lt _, bN_lt _, bN_lt _⟩, clip_code_lt _, fe_code_lt _⟩
@[simp] theorem lEL_eEL (i j : SIx) (s : Sems) (q : Fin 4) (f : CopyFlags) (k : CopyFlags → Dec) :
    lEL (eEL i j s q f) k = k f := by
  have := eEL_bounds s f
  simp (disch := omega) [lEL, eEL, Nat.add_assoc]
@[simp] theorem lSems_eEL (i j : SIx) (s : Sems) (q : Fin 4) (f : CopyFlags) : lSems (eEL i j s q f) = s := by
  have := eEL_bounds s f
  simp (disch := omega) [lSems, eEL, Nat.add_assoc]
@[simp] theorem fld_eEL_operands (i j : SIx) (s : Sems) (q : Fin 4) (f : CopyFlags) :
    fld (eEL i j s q f) 27 5 = i.val ∧ fld (eEL i j s q f) 22 5 = j.val ∧ fld (eEL i j s q f) 10 2 = q.val := by
  have := eEL_bounds s f
  simp (disch := omega) [eEL, Nat.add_assoc]
@[simp] theorem lQL_eQL (i j : SIx) (clip : Clip) (fe : Fe) (bp : Bool) (k : SIx → SIx → Clip → Fe → Bool → Instr) :
    lQL (eQL i j clip fe bp) k = .ok (k i j clip fe bp) := by
  have := bN_lt bp
  have := clip_code_lt clip
  have := fe_code_lt fe
  simp (disch := omega) [lQL, eQL, Nat.add_assoc]

end

/-! ### Forms of V's space (R105, R221, R222) -/

section
variable {d a b : Nat} (hd : d < 32) (ha : a < 32) (hb : b < 32)

@[simp] theorem fld_eVV_zero : fld (eVV d a b) 0 1 = 0 := by simp (disch := omega) [eVV, Nat.add_assoc]
include hb
@[simp] theorem fld_eVV_b : fld (eVV d a b) 1 5 = b := by simp (disch := omega) [eVV, Nat.add_assoc]
include ha
@[simp] theorem fld_eVV_a : fld (eVV d a b) 6 5 = a := by simp (disch := omega) [eVV, Nat.add_assoc]
@[simp] theorem fld_eVV_vector (hv : d < 16) : fld (eVV d a b) 11 4 = d := by simp (disch := omega) [eVV, Nat.add_assoc]
include hd
@[simp] theorem fld_eVV_d : fld (eVV d a b) 11 5 = d := by simp (disch := omega) [eVV, Nat.add_assoc]
@[simp] theorem eVV_lt : eVV d a b < 65536 := by rw [eVV]; omega

end

/-! The forms of the accumulators (R234) -/

section
variable {x : Nat} (hx : x < 32) (acc : Fin 4) (row : Fin 64) (seg : Fin 4)

@[simp] theorem fld_eVA_zero : fld (eVA x acc row seg) 0 1 = 0 := by simp (disch := omega) [eVA, Nat.add_assoc]
@[simp] theorem fld_eVA_seg : fld (eVA x acc row seg) 1 2 = seg.val := by simp (disch := omega) [eVA, Nat.add_assoc]
@[simp] theorem fld_eVA_row : fld (eVA x acc row seg) 3 6 = row.val := by simp (disch := omega) [eVA, Nat.add_assoc]
@[simp] theorem fld_eVA_acc : fld (eVA x acc row seg) 9 2 = acc.val := by simp (disch := omega) [eVA, Nat.add_assoc]
include hx
@[simp] theorem fld_eVA_operand : fld (eVA x acc row seg) 11 5 = x := by simp (disch := omega) [eVA, Nat.add_assoc]
theorem eVA_lt : eVA x acc row seg < 65536 := by rw [eVA]; omega

end

section
variable {h : Head} {op x y : Nat} {d : VDst} {a b c : VSrc} {ty : Ty} {rm : RM} {s : Bool}

@[simp] theorem v2rs_eV (k : VDst → VSrc → VSrc → Ty → RM → Bool → Instr) :
    v2rs (eW h op (eVV d.code a.code b.code)) (eTL 0 ty.code 0 rm.code s 0) k = .ok (k d a b ty rm s) := by
  simp [v2rs, vZero, rmF]
@[simp] theorem v3rs_eV (k : VDst → VSrc → VSrc → VSrc → Ty → RM → Bool → Instr) :
    v3rs (eW h op (eVV d.code a.code b.code)) (eTL c.code ty.code 0 rm.code s 0) k = .ok (k d a b c ty rm s) := by
  simp [v3rs, vZero, rmF]
@[simp] theorem v2_eV (k : VDst → VSrc → VSrc → Ty → Instr) :
    v2 (eW h op (eVV d.code a.code b.code)) (eTL 0 ty.code 0 0 false 0) k = .ok (k d a b ty) := by
  simp [v2, vZero]
@[simp] theorem v3_eV (k : VDst → VSrc → VSrc → VSrc → Ty → Instr) :
    v3 (eW h op (eVV d.code a.code b.code)) (eTL c.code ty.code 0 0 false 0) k = .ok (k d a b c ty) := by
  simp [v3, vZero]
@[simp] theorem v1rs_eV (k : VDst → VSrc → Ty → RM → Bool → Instr) :
    v1rs (eW h op (eVV d.code a.code 0)) (eTL 0 ty.code 0 rm.code s 0) k = .ok (k d a ty rm s) := by
  simp [v1rs, vZero, rmF]
@[simp] theorem v1s_eV (k : VDst → VSrc → Ty → Bool → Instr) :
    v1s (eW h op (eVV d.code a.code 0)) (eTL 0 ty.code 0 0 s 0) k = .ok (k d a ty s) := by
  simp [v1s, vZero]
@[simp] theorem v1_eV (k : VDst → VSrc → Ty → Instr) :
    v1 (eW h op (eVV d.code a.code 0)) (eTL 0 ty.code 0 0 false 0) k = .ok (k d a ty) := by
  simp [v1, vZero]
@[simp] theorem v1f_eV (k : VDst → VSrc → RM → Bool → Instr) :
    v1f (eW h op (eVV d.code a.code 0)) (eTL 0 0x0A 0 rm.code s 0) k = .ok (k d a rm s) := by
  simp [v1f, vZero, rmF]

end

end Sys2Proof.Proofs
end

section
/-!
PROOFS. Forms by their space (R102 to R107): each form is read back, in every space that holds it, from the lanes that encode it.
-/
namespace Sys2Proof.Proofs
open Sys2Proof Sys2Proof.Machine Sys2Proof.Laws

/-! ### The decoder of a space, by opcode -/

/-- The form has lanes, the space's table holds their opcode, and the space reads the form back from them. -/
def Reads (sp : Space) (i : Instr) : Prop :=
  ∃ w, encodeForm i = some w ∧ (laneCount sp (fld w.1 16 8)).isSome = true ∧ readForm sp w.1 w.2.1 w.2.2 = .ok i

section
variable {sp : Space} {i : Instr} {h : Head} {op low l m : Nat} (he : encodeForm i = some (eW h op low, l, m)) (hlow : low < 65536)
include he hlow

theorem reads_of_readForm (hop : op < 256) (hl : (laneCount sp op).isSome = true) (hd : readForm sp (eW h op low) l m = .ok i) :
    Reads sp i := ⟨_, he, by rwa [fld_eW_op hop hlow], hd⟩
theorem reads_common (hsp : sp ≠ .all) (hop : op < 0x40 ∧ (lanesCommon op).isSome = true)
    (hd : decodeCommon op h (eW h op low) l m = .ok i) : Reads sp i := by
  have hw : op < 256 := by omega
  refine reads_of_readForm he hlow hw ?_ ?_ <;>
    cases sp <;> simp_all [readForm, laneCount, fld_eW_op hw hlow, headOf_eW hw hlow]
theorem reads_c1 (hop : (0x40 ≤ op ∧ op < 0x60) ∧ (laneCount .c op).isSome = true)
    (hd : decodeC1 op h (eW h op low) l m = .ok i) : Reads .c i := by
  obtain ⟨⟨hlo, hhi⟩, hl⟩ := hop
  have hw : op < 256 := by omega
  refine reads_of_readForm he hlow hw hl ?_
  rwa [readForm, fld_eW_op hw hlow, headOf_eW hw hlow, if_neg (by omega), if_pos hhi]
theorem reads_c2 (hop : (0x70 ≤ op ∧ op < 0x90) ∧ (laneCount .c op).isSome = true)
    (hd : decodeC2 op h (eW h op low) l = .ok i) : Reads .c i := by
  obtain ⟨⟨hlo, hhi⟩, hl⟩ := hop
  have hw : op < 256 := by omega
  refine reads_of_readForm he hlow hw hl ?_
  rwa [readForm, fld_eW_op hw hlow, headOf_eW hw hlow, if_neg (by omega), if_neg (by omega), if_neg (by omega), if_pos hhi]
theorem reads_c3 (hop : (0x90 ≤ op ∧ op < 256) ∧ (laneCount .c op).isSome = true)
    (hd : decodeC3 op h (eW h op low) l = .ok i) : Reads .c i := by
  obtain ⟨⟨hlo, hw⟩, hl⟩ := hop
  refine reads_of_readForm he hlow hw hl ?_
  rwa [readForm, fld_eW_op hw hlow, headOf_eW hw hlow, if_neg (by omega), if_neg (by omega), if_neg (by omega), if_neg (by omega)]
theorem reads_a (hop : (0x40 ≤ op ∧ op < 256) ∧ (laneCount .a op).isSome = true)
    (hd : decodeA op h (eW h op low) l m = .ok i) : Reads .a i := by
  obtain ⟨⟨hlo, hw⟩, hl⟩ := hop
  refine reads_of_readForm he hlow hw hl ?_
  rwa [readForm, fld_eW_op hw hlow, headOf_eW hw hlow, if_neg (by omega)]
theorem reads_access (hsp : sp = .c ∨ sp = .a) (hop : (0x60 ≤ op ∧ op < 0x70) ∧ (laneCount .c op).isSome = true ∧
    (laneCount .a op).isSome = true) (hd : decodeAccess op h (eW h op low) l m = .ok i) : Reads sp i := by
  obtain ⟨⟨hlo, hhi⟩, hc, ha⟩ := hop
  have hw : op < 256 := by omega
  obtain rfl | rfl := hsp
  · refine reads_of_readForm he hlow hw hc ?_
    rwa [readForm, fld_eW_op hw hlow, headOf_eW hw hlow, if_neg (by omega), if_neg (by omega), if_pos hhi]
  · refine reads_a he hlow ⟨⟨by omega, hw⟩, ha⟩ ?_
    rwa [decodeA] <;> omega
theorem reads_v1 (hop : (0x40 ≤ op ∧ op < 0x5A) ∧ (laneCount .v op).isSome = true)
    (hd : decodeV1 op h (eW h op low) l = .ok i) : Reads .v i := by
  obtain ⟨⟨hlo, hhi⟩, hl⟩ := hop
  have hw : op < 256 := by omega
  refine reads_of_readForm he hlow hw hl ?_
  rwa [readForm, fld_eW_op hw hlow, headOf_eW hw hlow, if_neg (by omega), if_pos hhi]
theorem reads_v2 (hop : (0x5A ≤ op ∧ op < 256) ∧ (laneCount .v op).isSome = true)
    (hd : decodeV2 op h (eW h op low) l = .ok i) : Reads .v i := by
  obtain ⟨⟨hlo, hw⟩, hl⟩ := hop
  refine reads_of_readForm he hlow hw hl ?_
  rwa [readForm, fld_eW_op hw hlow, headOf_eW hw hlow, if_neg (by omega), if_neg (by omega)]

end

theorem reads_all {i : Instr} {g : Guard} {op low : Nat} (he : encodeForm i = some (eG g op low, 0, 0)) (hlow : low < 65536)
    (hop : op ≤ 0x0B) (hd : decodeAll op g (eG g op low) = .ok i) : Reads .all i := by
  have hw : op < 256 := by omega
  rw [eG_eq_eW] at he hd
  refine reads_of_readForm he hlow hw (by simp [laneCount, hop]) ?_
  have hg : guardOf (eW ⟨g, false, false, false, false⟩ op low) = g := congrArg Head.g (headOf_eW hw hlow)
  have ht : fld (eW ⟨g, false, false, false, false⟩ op low) 24 4 = 0 := by
    have := bN_lt g.ng
    simp (disch := omega) [eW, Nat.add_assoc, fld_of_lt]
  rw [readForm, fld_eW_op hw hlow, ht, hg]
  exact hd

/-! ### The forms -/

theorem reads_of_common {i : Instr} (h : i.spaces = [.c, .a, .v]) {sp : Space} (hsp : sp ≠ .all) : Reads sp i := by
  cases i with
  | add | sub | mul | mulh | mulhn | div | divn | rem | remn | and | or | xor | shl | shr | sar | rotl =>
    exact reads_common rfl (eS3_lt _) hsp (by decide) (by simp [decodeCommon])
  | min | max | minn | maxn => exact reads_common rfl (eS3_lt _) hsp (by decide) (by simp [decodeCommon])
  | addi | muli | andi | ori | xori | shli | shri | sari | rotli | path =>
    exact reads_common rfl (eS2_lt (by omega)) hsp (by decide) (by simp [decodeCommon])
  | clz | ctz | popc | mov => exact reads_common rfl (eS2_lt (by omega)) hsp (by decide) (by simp [decodeCommon])
  | addil | insr => exact reads_common rfl (eS2_lt (by omega)) hsp (by decide) (by simp (disch := omega) [decodeCommon])
  | extr _ _ _ _ _ sg =>
    have := bN_lt sg
    exact reads_common rfl (eS2_lt (by omega)) hsp (by decide) (by simp (disch := omega) [decodeCommon, Nat.add_assoc])
  | cmp _ _ _ _ _ _ rhs =>
    cases rhs with
    | reg | imm => exact reads_common rfl (eCP_lt ..) hsp (by decide) (by simp (disch := omega) [decodeCommon])
  | tbit => exact reads_common rfl (eCP_lt ..) hsp (by decide) (by simp (disch := omega) [decodeCommon, fld_of_lt])
  | pand | por | pxor => exact reads_common rfl (ePL_lt ..) hsp (by decide) (by simp [decodeCommon])
  | pget | pput => exact reads_common rfl (by omega) hsp (by decide) (by simp [decodeCommon])
  | movil => exact reads_common rfl (by omega) hsp (by decide) (by simp (disch := omega) [decodeCommon])
  | moviq => exact reads_common rfl (by omega) hsp (by decide) (by simp [decodeCommon, Nat.div_add_mod'])
  | movi | flgclr | brk | qsend | qrecv | qtest =>
    exact reads_common rfl (by omega) hsp (by decide) (by simp (disch := omega) [decodeCommon])
  | mfsr _ _ r | mtsr _ _ r =>
    have := spr_code_lt r
    exact reads_common rfl (by omega) hsp (by decide) (by simp (disch := omega) [decodeCommon])
  | nop => exact reads_common rfl (by omega) hsp (by decide) (by simp [decodeCommon])
  | _ => cases h

theorem reads_of_access {i : Instr} (h : i.spaces = [.c, .a]) {sp : Space} (hsp : sp = .c ∨ sp = .a) : Reads sp i := by
  cases i with
  | ld _ _ _ _ ty fe | st _ _ _ _ ty fe =>
    have := ty_code_lt ty
    have := fe_code_lt fe
    exact reads_access rfl (eM1_lt ..) hsp (by decide) (by simp (disch := omega) [decodeAccess, eAL, Nat.add_assoc, fld_of_lt])
  | ldl _ _ _ _ ty =>
    have := ty_code_lt ty
    exact reads_access rfl (eM1_lt ..) hsp (by decide) (by simp (disch := omega) [decodeAccess, eAL, fld_of_lt])
  | gtest | gset =>
    exact reads_access rfl (eM1_lt ..) hsp (by decide) (by simp (disch := omega) [decodeAccess, eAL, fld_of_lt])
  | amo _ _ _ _ ty ord scp _ _ aop =>
    have := ty_code_lt ty
    have := ord_code_lt ord
    have := scp_code_lt scp
    have := aOp_code_lt aop
    exact reads_access rfl (eM1_lt ..) hsp (by decide) (by simp (disch := omega) [decodeAccess, eAL, Nat.add_assoc, fld_of_lt])
  | acas _ _ _ _ ty ord scp =>
    have := ty_code_lt ty
    have := ord_code_lt ord
    have := scp_code_lt scp
    exact reads_access rfl (eM1_lt ..) hsp (by decide) (by simp (disch := omega) [decodeAccess, eAL, Nat.add_assoc, fld_of_lt])
  | _ => cases h

theorem reads_of_a {i : Instr} (h : i.spaces = [.a]) : Reads .a i := by
  cases i with
  | ldq | stq => exact reads_a rfl (by omega) (by decide) (by simp (disch := omega) [decodeA, Nat.add_assoc])
  | qsplat _ _ _ ew =>
    have := ew_code_lt ew
    exact reads_a rfl (by omega) (by decide) (by simp (disch := omega) [decodeA, Nat.add_assoc])
  | _ => cases h

theorem reads_of_all {i : Instr} (h : i.spaces = [.all]) : Reads .all i := by
  cases i with
  | br | call => exact reads_all rfl (by omega) (by decide) (by simp (disch := omega) [decodeAll, eG_eq_eW])
  | bri => exact reads_all rfl (by omega) (by decide) (by simp [decodeAll, eG_eq_eW])
  | ret | phase | quiet | trapf | kend => exact reads_all rfl (by decide) (by decide) (by simp [decodeAll, eG_eq_eW])
  | loopReg =>
    exact reads_all rfl (by omega) (by decide) (by simp (disch := omega) [decodeAll, eG_eq_eW, fld_of_lt])
  | loopImm =>
    exact reads_all rfl (by omega) (by decide)
      (by simp (disch := omega) [decodeAll, eG_eq_eW, Nat.add_assoc, fld_add_below, fld_add_above, Nat.mod_eq_of_lt])
  | endl | lexit => exact reads_all rfl (by omega) (by decide) (by simp (disch := omega) [decodeAll, eG_eq_eW])
  | fence _ ord scp =>
    have := ord_code_lt ord
    have := scp_code_lt scp
    exact reads_all rfl (by omega) (by decide) (by simp (disch := omega) [decodeAll, eG_eq_eW])
  | _ => cases h

theorem reads_of_c {i : Instr} (h : i.spaces = [.c]) : Reads .c i := by
  cases i with
  | fadd | fsub | fmul | fdiv | fma => exact reads_c1 rfl (eS3_lt _) (by decide) (by simp [decodeC1])
  | fmin | fmax => exact reads_c1 rfl (eS3_lt _) (by decide) (by simp [decodeC1, fld_eTL_rm_sat])
  | fsqrt => exact reads_c1 rfl (eS3_lt _) (by decide) (by simp [decodeC1, eS3_zero])
  | fcvt => exact reads_c1 rfl (eS2_lt (by omega)) (by decide) (by simp [decodeC1, rmF])
  | fcmp => exact reads_c1 rfl (eCP_lt ..) (by decide) (by simp (disch := omega) [decodeC1])
  | fneg | fabs | probe => exact reads_c1 rfl (eS2_lt (by omega)) (by decide) (by simp [decodeC1])
  | trap | hmov | hsub | xlate | hloc =>
    exact reads_c1 rfl (by omega) (by decide) (by simp (disch := omega) [decodeC1, Nat.add_assoc])
  | inj _ _ _ k =>
    cases k with
    | accBit =>
      exact reads_c1 rfl (eS2_lt (by omega)) (by decide) (by simp (disch := omega) [decodeC1, InjKind.code, Nat.add_assoc, fld_of_lt])
    | scratchPoison | shadowMismatch => exact reads_c1 rfl (eS2_lt (by omega)) (by decide) (by simp [decodeC1, InjKind.code, fld])
  | hget _ _ _ f =>
    have := hField_code_lt f
    exact reads_c1 rfl (by omega) (by decide) (by simp (disch := omega) [decodeC1, Nat.add_assoc])
  | tget _ _ _ f =>
    have := tField_code_lt f
    exact reads_c1 rfl (by omega) (by decide) (by simp (disch := omega) [decodeC1, Nat.add_assoc])
  | tset => exact reads_c1 rfl (by omega) (by decide) (by simp (disch := omega) [decodeC1, Nat.div_add_mod'])
  | copy | gather | scatter =>
    exact reads_c2 rfl (eE1_lt ..) (by decide) (by simp (disch := omega) [decodeC2, eE1, Nat.add_assoc])
  | fill _ _ _ _ s _ bpd dwe evt =>
    have := bN_lt s.wen
    have := bN_lt s.sen
    have := bN_lt bpd
    have := bN_lt dwe
    have := bN_lt evt
    exact reads_c2 rfl (eE1_lt ..) (by decide)
      (by simp (disch := omega) [decodeC2, eE1, eEL, lSems, Clip.code, Fe.code, Nat.add_assoc, fld_of_lt])
  | tring => exact reads_c2 rfl (by omega) (by decide) (by simp (disch := omega) [decodeC2, Nat.add_assoc, fld_of_lt])
  | evpop => exact reads_c2 rfl (eS2_lt (by omega)) (by decide) (by simp (disch := omega) [decodeC2, eS2])
  | mfmt => exact reads_c2 rfl (by omega) (by decide) (by simp [decodeC2])
  | mmul _ _ _ sel _ _ _ s =>
    have := bN_lt s.wen
    have := bN_lt s.sen
    cases sel with
    | acc => exact reads_c2 rfl (by dsimp only; omega) (by decide) (by simp (disch := omega) [decodeC2, Nat.add_assoc])
    | loop =>
      exact reads_c2 rfl (by dsimp only; omega) (by decide)
        (by simp (disch := omega) [decodeC2, Nat.add_assoc, fld_add_below, fld_add_above, Nat.mod_eq_of_lt, fld_of_lt])
  | ccancel | mfmti | mzero | accld | accst | ringcfg | ringrel | ringq =>
    exact reads_c2 rfl (by omega) (by decide) (by simp (disch := omega) [decodeC2, Nat.add_assoc])
  | bar | semsig | semwait | semrd => exact reads_c3 rfl (by omega) (by decide) (by simp (disch := omega) [decodeC3])
  | tagpub => exact reads_c3 rfl (by omega) (by decide) (by simp (disch := omega) [decodeC3, fld_of_lt])
  | tagpubP =>
    exact reads_c3 rfl (by omega) (by decide)
      (by simp (disch := omega) [decodeC3, Nat.add_assoc, fld_add_below, fld_add_above, Nat.mod_eq_of_lt])
  | tagtest => exact reads_c3 rfl (by omega) (by decide) (by simp (disch := omega) [decodeC3, Nat.add_assoc, fld_of_lt])
  | jpatch => exact reads_c3 rfl (eS3_lt _) (by decide) (by simp (disch := omega) [decodeC3])
  | jarm | jstat | nmstat => exact reads_c3 rfl (eS2_lt (by omega)) (by decide) (by simp [decodeC3])
  | pool | hotqLook | hotqFill | hotqInv | hotqDrops | skqEst | skqClr | scupdSgd | scupdAdagrad | scupdAdam | nmrun | ixwalk | a2aIdx
  | a2aVec | xredSum | xredMin | xredMax | xput =>
    exact reads_c3 rfl (eER_lt _ (by decide)) (by decide) (by simp [decodeC3])
  | poolPop | ixwalkPop | a2aPop => exact reads_c3 rfl (eER_lt _ (by decide)) (by decide) (by simp [decodeC3])
  | xabort => exact reads_c3 rfl (by omega) (by decide) (by simp [decodeC3])
  | _ => cases h

theorem reads_of_v {i : Instr} (h : i.spaces = [.v]) : Reads .v i := by
  cases i with
  | vadd | vsub | vmul | vfma | vfms | vfnma | vdiv | vmin | vmax | vmulh | vand | vor | vxor | vandn | vshl | vshr | vsar =>
    exact reads_v1 rfl (eVV_lt (vDst_code_lt _) (vSrc_code_lt _) (vSrc_code_lt _)) (by decide) (by simp [decodeV1])
  | vabs | vneg | vrcp | vrsq | vsqrt | vexp2 | vlog2 =>
    exact reads_v1 rfl (eVV_lt (vDst_code_lt _) (vSrc_code_lt _) (by decide)) (by decide) (by simp [decodeV1])
  | vcvt => exact reads_v1 rfl (eVV_lt (vDst_code_lt _) (vSrc_code_lt _) (by decide)) (by decide) (by simp [decodeV1, vZero, rmF])
  | vcmp _ _ _ _ _ a b ty =>
    have := vSrc_code_lt a
    have := vSrc_code_lt b
    have := ty_code_lt ty
    exact reads_v1 rfl (eCP_lt ..) (by decide) (by simp (disch := omega) [decodeV1, Nat.add_assoc])
  | vsel =>
    exact reads_v2 rfl (eVV_lt (vDst_code_lt _) (vSrc_code_lt _) (vSrc_code_lt _)) (by decide)
      (by simp [decodeV2, vZero, fld_of_lt, Fin.val_lt_of_le])
  | vshuf | vperm | vscale | vsgn | vclamp | vabd =>
    exact reads_v2 rfl (eVV_lt (vDst_code_lt _) (vSrc_code_lt _) (vSrc_code_lt _)) (by decide) (by simp [decodeV2])
  | vmov | vrsum | vrmax | vrmin | vramax | vclass | vclz | vpopc | vrsumsq =>
    exact reads_v2 rfl (eVV_lt (vDst_code_lt _) (vSrc_code_lt _) (by decide)) (by decide) (by simp [decodeV2])
  | vsplat =>
    exact reads_v2 rfl (eVV_lt (vDst_code_lt _) (Fin.isLt _) (by decide)) (by decide) (by simp [decodeV2, vZero])
  | vsplati | viota =>
    exact reads_v2 rfl (eVV_lt (vDst_code_lt _) (by decide) (by decide)) (by decide) (by simp [decodeV2, vZero])
  | vext =>
    exact reads_v2 rfl (eVV_lt (Fin.isLt _) (vSrc_code_lt _) (by decide)) (by decide) (by simp [decodeV2, vZero])
  | vins =>
    exact reads_v2 rfl (eVV_lt (by omega) (Fin.isLt _) (by decide)) (by decide) (by simp [decodeV2, vZero, Fin.val_lt_of_le])
  | vrot | vunpk | vrint =>
    exact reads_v2 rfl (eVV_lt (vDst_code_lt _) (vSrc_code_lt _) (by decide)) (by decide) (by simp [decodeV2, vZero, rmF])
  | vpack =>
    exact reads_v2 rfl (eVV_lt (vDst_code_lt _) (vSrc_code_lt _) (vSrc_code_lt _)) (by decide) (by simp [decodeV2, vZero])
  | vaccrd _ d =>
    exact reads_v2 rfl (eVA_lt (vDst_code_lt d) ..) (by decide) (by simp [decodeV2, rmF])
  | vaccwr _ a =>
    exact reads_v2 rfl (eVA_lt (vSrc_code_lt a) ..) (by decide) (by simp [decodeV2, rmF])
  | vmaski _ _ ew =>
    have := ew_code_lt ew
    exact reads_v2 rfl (by omega) (by decide) (by simp (disch := omega) [decodeV2, Nat.add_assoc])
  | vcntp => exact reads_v2 rfl (by omega) (by decide) (by simp (disch := omega) [decodeV2])
  | _ => cases h

theorem spaces_of_instr (i : Instr) :
    ([[.c, .a, .v], [.c, .a], [.c], [.a], [.v], [.all], []] : List (List Space)).contains i.spaces = true := by
  cases i <;> rfl

theorem reads_of_mem_spaces {i : Instr} {sp : Space} (h : sp ∈ i.spaces) : Reads sp i := by
  have hs := List.contains_iff_mem.mp (spaces_of_instr i)
  simp only [List.mem_cons, List.not_mem_nil, or_false] at hs
  obtain hs | hs | hs | hs | hs | hs | hs := hs <;> rw [hs] at h
  · exact reads_of_common hs (by rintro rfl; simp at h)
  · exact reads_of_access hs (by simpa using h)
  · exact List.mem_singleton.mp h ▸ reads_of_c hs
  · exact List.mem_singleton.mp h ▸ reads_of_a hs
  · exact List.mem_singleton.mp h ▸ reads_of_v hs
  · exact List.mem_singleton.mp h ▸ reads_of_all hs
  · cases h

/-- Settles O56: a form of a space reads back from its lanes, and the checks on its values, which it passes, are the decoder's last
step. -/
theorem decodeEncode : Obligations.DecodeEncode := by
  unfold Obligations.DecodeEncode
  intro i sp hwf
  obtain ⟨hsp, herr⟩ := Bool.and_eq_true_iff.mp hwf
  obtain ⟨w, hw, hl, hr⟩ := reads_of_mem_spaces (List.contains_iff_mem.mp hsp)
  obtain ⟨n, hn⟩ := Option.isSome_iff_exists.mp hl
  refine ⟨w, hw, ?_⟩
  rw [decodeForm, hn, hr]
  simp only [Option.isNone_iff_eq_none.mp herr]

end Sys2Proof.Proofs
end

section
/-!
PROOFS. Words written out from the layouts (R94, R100 to R106): the decoder, run on each.
-/
namespace Sys2Proof.Proofs
open Sys2Proof Sys2Proof.Machine Sys2Proof.Laws

/-- Settles O55: the decoder evaluates to the stated form, or refusal, at each word. -/
theorem decodeWords : Obligations.DecodeWords := by
  unfold Obligations.DecodeWords
  exact ⟨rfl, rfl, rfl, rfl, rfl, rfl, rfl, rfl, rfl, rfl, rfl, rfl, rfl, rfl, rfl, rfl, rfl⟩

end Sys2Proof.Proofs
end

section
/-!
PROOFS. Fields of card words that a write of another field leaves, and what a failed card's words say (R28, R30, R43).
-/
namespace Sys2Proof.Proofs
open Sys2Proof Sys2Proof.Machine Sys2Proof.Laws

/-! ### A field written, and the fields above it -/

section
variable {w hi lo hi' lo' v : Nat}

/-- A number with one field written: what stands above the field, the field, and what stands below it. -/
theorem putBits_eq (h : lo ≤ hi + 1) : putBits w hi lo v =
    w / 2 ^ (hi + 1) * 2 ^ (hi + 1) + (v % 2 ^ (hi + 1 - lo) * 2 ^ lo + w % 2 ^ lo) := by
  obtain ⟨m, hm⟩ := Nat.exists_eq_add_of_le h
  rw [putBits, bits, hm, Nat.add_sub_cancel_left, Nat.pow_add, ← Nat.div_div_eq_div_mul]
  have hw : w = w / 2 ^ lo / 2 ^ m * (2 ^ lo * 2 ^ m) + w / 2 ^ lo % 2 ^ m * 2 ^ lo + w % 2 ^ lo := by
    conv_lhs => rw [← Nat.div_add_mod w (2 ^ lo), ← Nat.div_add_mod (w / 2 ^ lo) (2 ^ m)]
    ring
  omega
theorem putBits_below_lt (h : lo ≤ hi + 1) : v % 2 ^ (hi + 1 - lo) * 2 ^ lo + w % 2 ^ lo < 2 ^ (hi + 1) := by
  obtain ⟨m, hm⟩ := Nat.exists_eq_add_of_le h
  rw [hm, Nat.add_sub_cancel_left, Nat.pow_add]
  calc v % 2 ^ m * 2 ^ lo + w % 2 ^ lo < v % 2 ^ m * 2 ^ lo + 2 ^ lo := Nat.add_lt_add_left (Nat.mod_lt _ (Nat.two_pow_pos _)) _
    _ = (v % 2 ^ m + 1) * 2 ^ lo := by ring
    _ ≤ 2 ^ m * 2 ^ lo := Nat.mul_le_mul_right _ (Nat.mod_lt _ (Nat.two_pow_pos _))
    _ = 2 ^ lo * 2 ^ m := Nat.mul_comm ..
theorem putBits_lt (h : lo ≤ hi + 1) (hh : hi < 64) (hw : w < 2 ^ 64) : putBits w hi lo v < 2 ^ 64 := by
  obtain ⟨m, hm⟩ := Nat.exists_eq_add_of_le (show hi + 1 ≤ 64 from hh)
  rw [putBits_eq h]
  have hb := putBits_below_lt (w := w) (v := v) h
  rw [hm, Nat.pow_add 2 (hi + 1)] at hw ⊢
  have hd : w / 2 ^ (hi + 1) < 2 ^ m := Nat.div_lt_of_lt_mul hw
  calc _ < w / 2 ^ (hi + 1) * 2 ^ (hi + 1) + 2 ^ (hi + 1) := Nat.add_lt_add_left hb _
    _ = (w / 2 ^ (hi + 1) + 1) * 2 ^ (hi + 1) := by ring
    _ ≤ 2 ^ m * 2 ^ (hi + 1) := Nat.mul_le_mul_right _ hd
    _ = 2 ^ (hi + 1) * 2 ^ m := Nat.mul_comm ..
theorem bits_putBits_self (h : lo ≤ hi + 1) (hv : v < 2 ^ (hi + 1 - lo)) : bits (putBits w hi lo v) hi lo = v := by
  change fld _ lo (hi + 1 - lo) = v
  rw [putBits_eq h, Nat.mod_eq_of_lt hv, fld_below (by rw [Nat.add_sub_cancel' h, Nat.mod_self]),
    fld_place rfl hv (Nat.mod_lt _ (Nat.two_pow_pos _))]
theorem bits_putBits_above (h : lo ≤ hi + 1) (hl : hi < lo') : bits (putBits w hi lo v) hi' lo' = bits w hi' lo' := by
  obtain ⟨m, rfl⟩ := Nat.exists_eq_add_of_le (show hi + 1 ≤ lo' from hl)
  rw [bits, bits, putBits_eq h, Nat.pow_add 2 (hi + 1), ← Nat.div_div_eq_div_mul, ← Nat.div_div_eq_div_mul, Nat.mul_comm (w / _),
    Nat.mul_add_div (Nat.two_pow_pos _), Nat.div_eq_of_lt (putBits_below_lt h), Nat.add_zero]

end

/-! ### Fields of a card -/

section
variable {x : Ctx} {n k m j hi lo hi' lo' v : Nat} (hr : risingFrom 0 x.cards = true)
include hr

theorem cf_setCw_ne (h : 32 * m + j ≠ 32 * n + k) : (x.setCw n k v).cf m j hi lo = x.cf m j hi lo := by
  rw [Ctx.cf, Ctx.cf, cw_setCw_ne _ hr h]
theorem cf_setCf_ne (h : 32 * m + j ≠ 32 * n + k) : (x.setCf n k hi' lo' v).cf m j hi lo = x.cf m j hi lo := cf_setCw_ne hr h
theorem cw_setCf_self (h : lo ≤ hi + 1) (hh : hi < 64) : (x.setCf n k hi lo v).cw n k = putBits (x.cw n k) hi lo v := by
  rw [Ctx.setCf, cw_setCw_self _ _ _ hr, toNat_w64 (putBits_lt h hh (cw_lt x n k))]
theorem cf_setCf_self (h : lo ≤ hi + 1) (hh : hi < 64) (hv : v < 2 ^ (hi + 1 - lo)) : (x.setCf n k hi lo v).cf n k hi lo = v := by
  rw [Ctx.cf, cw_setCf_self hr h hh, bits_putBits_self h hv]
theorem cf_setCf_above (h : lo ≤ hi + 1) (hl : hi < lo') (hh : hi < 64) :
    (x.setCf n k hi lo v).cf n k hi' lo' = x.cf n k hi' lo' := by
  rw [Ctx.cf, cw_setCf_self hr h hh, bits_putBits_above h hl, Ctx.cf]

end

/-! ### A failed card (R30, R43) -/

/-- Card n of a context is FAILED with this fault code. -/
def FailedBy (n fcode : Nat) (x : Ctx) : Prop := x.cstate n = 5 ∧ x.cf n 23 63 56 = fcode

theorem FailedBy.congr {n fcode : Nat} {x y : Ctx} (h : FailedBy n fcode x) (hc : y.cards = x.cards) : FailedBy n fcode y :=
  ⟨(cf_congr hc ..).trans h.1, (cf_congr hc ..).trans h.2⟩

section
variable {x : Ctx} {n m fcode cstatus fblock time : Nat} (hr : risingFrom 0 x.cards = true)
include hr

theorem risingFrom_failCard : risingFrom 0 (x.failCard n cstatus fcode fblock time).cards = true := by
  unfold Ctx.failCard
  exact risingFrom_setCf _ _ _ _ _ (risingFrom_setCw _ _ _ (risingFrom_setCf _ _ _ _ _ (risingFrom_setCf _ _ _ _ _
    (risingFrom_setCf _ _ _ _ _ hr))))
theorem failedBy_failCard (hf : fcode < 256) : FailedBy n fcode (x.failCard n cstatus fcode fblock time) := by
  have h1 := risingFrom_setCf n 23 63 56 fcode hr
  have h2 := risingFrom_setCf n 23 55 48 cstatus h1
  have h3 := risingFrom_setCf n 23 47 24 fblock h2
  have h4 := risingFrom_setCw n 25 time h3
  refine ⟨cstate_setCf_state h4 (by decide), ?_⟩
  rw [Ctx.failCard, cf_setCf_ne h4 (by omega), cf_setCw_ne h3 (by omega), cf_setCf_above h2 (by decide) (by decide) (by decide),
    cf_setCf_above h1 (by decide) (by decide) (by decide), cf_setCf_self hr (by decide) (by decide) hf]
theorem cf_failCard_ne (h : m ≠ n) {j hi lo : Nat} (hj : j < 32) :
    (x.failCard n cstatus fcode fblock time).cf m j hi lo = x.cf m j hi lo := by
  have h1 := risingFrom_setCf n 23 63 56 fcode hr
  have h2 := risingFrom_setCf n 23 55 48 cstatus h1
  have h3 := risingFrom_setCf n 23 47 24 fblock h2
  have h4 := risingFrom_setCw n 25 time h3
  rw [Ctx.failCard, cf_setCf_ne h4 (by omega), cf_setCw_ne h3 (by omega), cf_setCf_ne h2 (by omega), cf_setCf_ne h1 (by omega),
    cf_setCf_ne hr (by omega)]

end

/-! ### What a block's statistics leave of a card (R396) -/

/-- Of card words that stand as a map: they still do, and every card's words below word 26 read the same. -/
def KeepsCards (x y : Ctx) : Prop :=
  risingFrom 0 x.cards = true → risingFrom 0 y.cards = true ∧ ∀ n k, k < 26 → y.cw n k = x.cw n k

namespace KeepsCards
variable {x y z : Ctx}

theorem of_eq (h : y.cards = x.cards) : KeepsCards x y := fun hr => ⟨h ▸ hr, fun n k _ => by rw [Ctx.cw, h, ← Ctx.cw]⟩
theorem trans (h : KeepsCards x y) (g : KeepsCards y z) : KeepsCards x z := fun hr =>
  have ⟨hy, hxy⟩ := h hr
  have ⟨hz, hyz⟩ := g hy
  ⟨hz, fun n k hk => (hyz n k hk).trans (hxy n k hk)⟩
theorem setCw (x : Ctx) (n : Nat) {k : Nat} (v : Nat) (hk : 26 ≤ k := by decide) (hk' : k < 32 := by decide) :
    KeepsCards x (x.setCw n k v) :=
  fun hr => ⟨risingFrom_setCw _ _ _ hr, fun m j hj => cw_setCw_ne _ hr (by omega)⟩
theorem addCf (x : Ctx) (n : Nat) {k : Nat} (hi lo v : Nat) (hk : 26 ≤ k := by decide) (hk' : k < 32 := by decide) :
    KeepsCards x (x.addCf n k hi lo v) := setCw x n _ hk hk'
theorem cf (h : KeepsCards x y) (hr : risingFrom 0 x.cards = true) (n : Nat) {k : Nat} (hi lo : Nat) (hk : k < 26 := by decide) :
    y.cf n k hi lo = x.cf n k hi lo := by rw [Ctx.cf, (h hr).2 n k hk, ← Ctx.cf]
theorem cstate (h : KeepsCards x y) (hr : risingFrom 0 x.cards = true) (n : Nat) : y.cstate n = x.cstate n := h.cf hr n _ _

end KeepsCards

theorem addStats_keepsCards (s : State) (k c : Nat) : KeepsCards (s.ctx c) ((s.addStats k).ctx c) := by
  unfold State.addStats
  by_cases h : c = (s.core k).res.ctx.val
  · rw [h, ctx_modCtx_self]
    exact ((((((KeepsCards.setCw _ _ _).trans (.addCf _ _ _ _ _)).trans (.addCf _ _ _ _ _)).trans (.addCf _ _ _ _ _)).trans
      (.setCw _ _ _)).trans (.addCf _ _ _ _ _))
  · rw [modCtx_eq, ctx_setCtx_ne _ _ h]
    exact .of_eq rfl

end Sys2Proof.Proofs
end

section
/-!
PROOFS. The stop of a context: every core of it is left, and the job of the fault is FAILED (R264, R344, R348).
-/
namespace Sys2Proof.Proofs
open Sys2Proof Sys2Proof.Machine Sys2Proof.Laws

/-! ### What telling the host and performing writes leave alone -/

/-- The cores, the loop nodes due, and every context's card words and jobs are the same. -/
structure SameJobs (s t : State) : Prop where
  cores : t.cores = s.cores
  reev : t.reev = s.reev
  cards : ∀ c, (t.ctx c).cards = (s.ctx c).cards
  jobs : ∀ c, (t.ctx c).jobs = (s.ctx c).jobs

namespace SameJobs
variable {s t u : State}

theorem of_eq (hk : t.cores = s.cores) (hr : t.reev = s.reev) (hc : t.ctxs = s.ctxs) : SameJobs s t :=
  have ctx (c : Nat) : t.ctx c = s.ctx c := congrArg (fun m => mgetD m c Ctx.init) hc
  ⟨hk, hr, fun c => by rw [ctx], fun c => by rw [ctx]⟩
theorem refl (s : State) : SameJobs s s := of_eq rfl rfl rfl
theorem trans (h : SameJobs s t) (g : SameJobs t u) : SameJobs s u :=
  ⟨g.cores.trans h.cores, g.reev.trans h.reev, fun c => (g.cards c).trans (h.cards c), fun c => (g.jobs c).trans (h.jobs c)⟩
/-- After a change that leaves the cores, the loop nodes and the contexts alone. -/
theorem after (h : SameJobs t u) (hk : t.cores = s.cores) (hr : t.reev = s.reev) (hc : t.ctxs = s.ctxs) : SameJobs s u :=
  (of_eq hk hr hc).trans h
theorem foldl {α : Type} {f : State → α → State} (hf : ∀ t x, SameJobs t (f t x)) (l : List α) (s : State) :
    SameJobs s (l.foldl f s) := by
  induction l generalizing s with
  | nil => exact refl s
  | cons x l ih => exact (hf s x).trans (ih _)
theorem core (h : SameJobs s t) (k : Nat) : t.core k = s.core k := congrArg (fun m => mgetD m k Core.init) h.cores
theorem modCtx (s : State) (n : Nat) {f : Ctx → Ctx} (hc : ∀ x, (f x).cards = x.cards := by exact fun _ => rfl)
    (hj : ∀ x, (f x).jobs = x.jobs := by exact fun _ => rfl) : SameJobs s (s.modCtx n f) :=
  ⟨rfl, rfl, fun c => field_modCtx Ctx.cards s n c hc, fun c => field_modCtx Ctx.jobs s n c hj⟩
theorem logEv (s : State) (e : Ev) : SameJobs s (s.logEv e) := by
  unfold State.logEv
  split <;> exact of_eq rfl rfl rfl
theorem sendVec (s : State) (n : Nat) : SameJobs s (s.sendVec n) := by
  unfold State.sendVec
  split <;> exact of_eq rfl rfl rfl
theorem raiseCtx (s : State) (c n : Nat) : SameJobs s (s.raiseCtx c n) := by
  unfold State.raiseCtx
  split
  · exact refl s
  · exact (modCtx s c).trans (sendVec _ _)
theorem freeze (s : State) : SameJobs s s.freeze := by
  unfold State.freeze State.raiseMod
  split
  · exact refl s
  · split
    · exact of_eq rfl rfl rfl
    · exact (sendVec _ _).after rfl rfl rfl

theorem clearRows (s : State) (as : List Nat) : SameJobs s (s.clearRows as) := by
  refine foldl (fun t w => ?_) _ s
  unfold State.clearWay
  split
  · exact of_eq rfl rfl rfl
  · exact refl t
theorem memWrite (s : State) (g : Nat) (v : View) (cells : List Host.Cell) : SameJobs s (s.memWrite g v cells) := by
  refine (clearRows s (cells.map fun c => c.1)).trans ?_
  unfold State.memWrite State.perform
  split <;> exact of_eq rfl rfl rfl
theorem rowRelease (s : State) : SameJobs s s.rowRelease :=
  (foldl (fun t _ => memWrite t _ _ _) _ _).after rfl rfl rfl

theorem cqWrite (s : State) (c : Nat) (w0 w1 : Word) (irq : Bool) : SameJobs s (s.cqWrite c w0 w1 irq) := by
  unfold State.cqWrite
  extract_lets t a v next d s1 s2
  have h1 : SameJobs s s1 := by
    dsimp only [s1]
    split
    · exact (logEv _ _).after rfl rfl rfl
    · exact (memWrite _ _ _ _).after rfl rfl rfl
  have h2 : SameJobs s s2 := h1.trans (modCtx s1 c)
  split
  · exact h2.trans (raiseCtx _ _ _)
  · exact h2
theorem cqPut (s : State) (c : Nat) (w0 w1 : Word) (irq : Bool) : SameJobs s (s.cqPut c w0 w1 irq) := by
  unfold State.cqPut
  dsimp only
  split
  · exact cqWrite s c w0 w1 irq
  · split
    · exact modCtx s c
    · split
      · exact ((modCtx s c).trans (logEv _ _)).trans (raiseCtx _ _ _)
      · exact (modCtx s c).trans (logEv _ _)
theorem endEntry (s : State) (c n : Nat) (snap : List Word) : SameJobs s (s.endEntry c n snap) := by
  unfold State.endEntry
  dsimp only
  split
  · exact cqPut s c _ _ _
  · exact refl s

end SameJobs

/-! ### What a stop does before it leaves the cores (R264, R344) -/

/-- Every core's block is the same; so are every context's card words that a block's statistics leave alone. -/
structure SameResidents (s t : State) : Prop where
  blk : ∀ k, (t.core k).blk = (s.core k).blk
  cards : ∀ c, KeepsCards (s.ctx c) (t.ctx c)

/-- An entry of a map whose values are changed one by one. -/
theorem mget_map {α β : Type} (f : α → β) (m : List (Nat × α)) (k : Nat) :
    mget (m.map fun e => (e.1, f e.2)) k = (mget m k).map f := by
  induction m with
  | nil => rfl
  | cons e m ih =>
    rw [List.map_cons, mget, mget, ih]
    split
    · rfl
    · split <;> rfl
theorem mgetD_map {α : Type} (f : α → α) (m : List (Nat × α)) (k : Nat) {d : α} (hd : f d = d) :
    mgetD (m.map fun e => (e.1, f e.2)) k d = f (mgetD m k d) := by
  rw [mgetD, mget_map, mgetD]
  cases mget m k with
  | none => exact hd.symm
  | some x => rfl

/-- A core at which the running collectives of older attempts of a group complete superseded (R344). -/
def superseded (c g : Nat) (att : BitVec 16) (x : Core) : Core :=
  { x with sprun := x.sprun.map fun r =>
      if r.ctx.val = c ∧ r.grp.val = g ∧ r.cmd.form < 3 ∧ !r.done ∧ r.att != att then
        { r with status := 0x56, info := 0, done := true, outq := [] } else r }

namespace SameResidents
variable {s t u : State}

theorem of_cards (hb : ∀ k, (t.core k).blk = (s.core k).blk) (hc : ∀ c, (t.ctx c).cards = (s.ctx c).cards) : SameResidents s t :=
  ⟨hb, fun c => .of_eq (hc c)⟩
theorem ofJobs (h : SameJobs s t) : SameResidents s t := of_cards (fun k => by rw [h.core]) h.cards
theorem refl (s : State) : SameResidents s s := ofJobs (.refl s)
theorem trans (h : SameResidents s t) (g : SameResidents t u) : SameResidents s u :=
  ⟨fun k => (g.blk k).trans (h.blk k), fun c => (h.cards c).trans (g.cards c)⟩
theorem foldl {α : Type} {f : State → α → State} (hf : ∀ t x, SameResidents t (f t x)) (l : List α) (s : State) :
    SameResidents s (l.foldl f s) := by
  induction l generalizing s with
  | nil => exact refl s
  | cons x l ih => exact (hf s x).trans (ih _)
theorem modCore (s : State) (k : Nat) {f : Core → Core} (hf : ∀ c, (f c).blk = c.blk := by exact fun _ => rfl) :
    SameResidents s (s.modCore k f) := by
  refine of_cards (fun j => ?_) fun _ => rfl
  by_cases h : j = k
  · rw [h, core_modCore_self, hf]
  · rw [core_modCore_ne s f h]

theorem addStats (s : State) (k : Nat) : SameResidents s (s.addStats k) := ⟨fun _ => rfl, addStats_keepsCards s k⟩
theorem performComm (s : State) (k : Nat) : SameResidents s (s.performComm k) := by
  unfold State.performComm
  split
  · exact refl s
  · dsimp only
    split
    · exact ofJobs (.clearRows s _)
    · exact (ofJobs (.memWrite s _ _ _)).trans (modCore _ k)
theorem flushComm (n : Nat) (s : State) (k : Nat) : SameResidents s (s.flushComm n k) := by
  induction n generalizing s with
  | zero => exact refl s
  | succ n ih => exact (performComm s k).trans (ih _)
theorem sendTx (s : State) (own : Option (Nat × Nat)) (rank dev : Nat) (p : Packet) : SameResidents s (s.sendTx own rank dev p) := by
  unfold State.sendTx State.toPort
  dsimp only
  split <;> exact ofJobs (.of_eq rfl rfl rfl)
theorem adoptAtt (s : State) (c g : Nat) (att : BitVec 16) : SameResidents s (s.adoptAtt c g att) := by
  unfold State.adoptAtt
  refine SameResidents.trans ?_ (ofJobs (.modCtx _ c (fun x => ?_) fun x => ?_))
  · refine of_cards (fun k => ?_) fun _ => rfl
    have h := congrArg Core.blk (mgetD_map (superseded c g att) s.cores k (d := Core.init) rfl)
    exact h
  all_goals split <;> rfl
theorem abortGroup (s : State) (c g : Nat) : SameResidents s (s.abortGroup c g) := by
  unfold State.abortGroup
  split
  · exact refl s
  · refine (adoptAtt s c g _).trans (foldl (fun t d => ?_) _ _)
    split
    · exact refl t
    · exact sendTx t _ _ _ _

end SameResidents

end Sys2Proof.Proofs
end

section
/-!
PROOFS. What a stop leaves of its context: no core holds a block of it, and the job of the fault is FAILED (R30, R44, R348).
-/
namespace Sys2Proof.Proofs
open Sys2Proof Sys2Proof.Machine Sys2Proof.Laws

/-! ### The cores of a stopped context -/

/-- No core holds a block of context c. -/
def Vacant (c : Nat) (s : State) : Prop := ∀ x ∈ s.cores, (x.2.blk.any fun r => r.ctx.val == c) = false

theorem Vacant.coresOf {c : Nat} {s : State} (h : Vacant c s) (p : Resident → Bool) : s.coresOf c p = [] := by
  refine List.filterMap_eq_nil_iff.2 fun x hx => if_neg fun hp => ?_
  have hx := h x hx
  cases hb : x.2.blk with
  | none => simp [hb] at hp
  | some r =>
    rw [hb, Option.any_some] at hx
    simp [hb, hx] at hp

/-- What a stop of context c makes of a core. -/
def unseated (c : Nat) (x : Core) : Core := if x.blk.any fun r => r.ctx.val == c then x.leave else x

theorem unseated_blk (c : Nat) (x : Core) : ((unseated c x).blk.any fun r => r.ctx.val == c) = false := by
  unfold unseated
  split
  case isTrue => rfl
  case isFalse h => exact Bool.not_eq_true _ ▸ h
theorem unseated_of_any {c : Nat} {x : Core} (h : (x.blk.any fun r => r.ctx.val == c) = true) : (unseated c x).blk = none := by
  rw [unseated, if_pos h]
  rfl

theorem map_unseat (c : Nat) (m : Map Core) :
    (m.map fun x => if x.2.blk.any fun r => r.ctx.val == c then (x.1, x.2.leave) else x) = m.map fun x => (x.1, unseated c x.2) := by
  refine List.map_congr_left fun x _ => ?_
  unfold unseated
  split <;> rfl
theorem vacant_map {c : Nat} {s : State} {m : Map Core} (h : s.cores = m.map fun x => (x.1, unseated c x.2)) : Vacant c s := by
  intro x hx
  rw [h] at hx
  obtain ⟨y, -, rfl⟩ := List.mem_map.1 hx
  exact unseated_blk c y.2

/-! ### The jobs of a stopped context -/

section
variable {c : Nat} {s : State} (hv : Vacant c s)
include hv

/-- A job whose blocks have left their cores fails: its card's words change, and the cores do not. -/
theorem failOne_of_vacant (n cstatus fcode fblock : Nat) :
    (s.failOne c n cstatus fcode fblock false).cores = s.cores ∧
      ((s.failOne c n cstatus fcode fblock false).ctx c).cards = ((s.ctx c).failCard n cstatus fcode fblock s.rtime).cards := by
  unfold State.failOne
  rw [hv.coresOf]
  extract_lets snap ks s1 s2 s3 runs s4 s5
  have h := SameJobs.endEntry (s5.wakeNodes c n) c n snap
  have h4 : s4.ctx c = s.ctx c := rfl
  have h5 : (s5.ctx c).cards = ((s4.ctx c).failCard n cstatus fcode fblock s.rtime).cards := by
    dsimp only [s5]
    rw [ctx_modCtx_self]
  have hw : (s5.wakeNodes c n).ctx c = s5.ctx c := rfl
  have hk : (s5.wakeNodes c n).cores = s4.cores := rfl
  refine ⟨h.cores.trans hk, (h.cards c).trans ?_⟩
  rw [hw, h5, h4]

end

/-- The end of one job at the stop of context c that the job `card` causes (R348). -/
def endJob (c card fcode fblock : Nat) (x : State) (n : Nat) : State :=
  if some card = some n then x.failOne c n 0x20 fcode fblock false else x.failOne c n 0x21 0x65 0 false

theorem endJob_cores {c card fcode fblock : Nat} {s : State} (hv : Vacant c s) (n : Nat) :
    (endJob c card fcode fblock s n).cores = s.cores := by
  unfold endJob
  split <;> exact (failOne_of_vacant hv ..).1
theorem endJob_vacant {c card fcode fblock : Nat} {s : State} (hv : Vacant c s) (n : Nat) :
    Vacant c (endJob c card fcode fblock s n) := by
  unfold Vacant
  rw [endJob_cores hv]
  exact hv
theorem foldl_endJob_cores {c card fcode fblock : Nat} (l : List Nat) {s : State} (hv : Vacant c s) :
    (l.foldl (endJob c card fcode fblock) s).cores = s.cores := by
  induction l generalizing s with
  | nil => rfl
  | cons n l ih => exact (ih (endJob_vacant hv n)).trans (endJob_cores hv n)

section
variable {c card fcode fblock : Nat} {s : State} (hv : Vacant c s) (hr : risingFrom 0 (s.ctx c).cards = true)
include hv hr

theorem risingFrom_endJob (n : Nat) : risingFrom 0 ((endJob c card fcode fblock s n).ctx c).cards = true := by
  unfold endJob
  split <;> rw [(failOne_of_vacant hv ..).2] <;> exact risingFrom_failCard hr
theorem endJob_self (hf : fcode < 256) : FailedBy card fcode ((endJob c card fcode fblock s card).ctx c) := by
  rw [endJob, if_pos rfl]
  exact (failedBy_failCard hr hf).congr (failOne_of_vacant hv ..).2
theorem endJob_ne {n : Nat} (h : card ≠ n) (hx : FailedBy card fcode (s.ctx c)) :
    FailedBy card fcode ((endJob c card fcode fblock s n).ctx c) := by
  rw [endJob, if_neg (by simpa using h)]
  refine FailedBy.congr ⟨?_, ?_⟩ (failOne_of_vacant hv ..).2
  · exact (cf_failCard_ne hr h (by decide)).trans hx.1
  · exact (cf_failCard_ne hr h (by decide)).trans hx.2

end

/-- Among the jobs that end, the job of the fault ends FAILED with the fault's code. -/
theorem failedBy_foldl_endJob {c card fcode fblock : Nat} (hf : fcode < 256) (l : List Nat) {s : State} (hv : Vacant c s)
    (hr : risingFrom 0 (s.ctx c).cards = true) (h : card ∈ l ∨ FailedBy card fcode (s.ctx c)) :
    FailedBy card fcode ((l.foldl (endJob c card fcode fblock) s).ctx c) := by
  induction l generalizing s with
  | nil => exact h.resolve_left List.not_mem_nil
  | cons n l ih =>
    refine ih (endJob_vacant hv n) (risingFrom_endJob hv hr n) ?_
    by_cases hn : card = n
    · exact .inr (hn ▸ endJob_self hv hr hf)
    · exact h.imp (fun h => (List.mem_cons.1 h).resolve_left hn) (endJob_ne hv hr hn)

/-! ### The stop -/

/-- After a stop every core that held a block of the context holds none, and the job of the fault, if it ran, is FAILED. -/
theorem stopWork_ends {s : State} {c card fcode : Nat} (fblock : Nat) (w : List Word) (hf : fcode < 256) :
    (∀ j, ((s.core j).blk.any fun r => r.ctx.val == c) = true → ((s.stopWork c (some card) fcode fblock w).core j).blk = none) ∧
      (card < 4096 → risingFrom 0 (s.ctx c).cards = true → (s.ctx c).cstate card = 2 ∨ (s.ctx c).cstate card = 3 →
        FailedBy card fcode ((s.stopWork c (some card) fcode fblock w).ctx c)) := by
  unfold State.stopWork
  extract_lets live mine a s0 s1 s2 t armed s3
  have ha : SameResidents s a :=
    (SameResidents.foldl (fun t g => .abortGroup t c g) _ s).trans (.foldl .addStats _ _)
  have h0 : SameResidents s s0 := by
    refine SameResidents.trans ?_ (.foldl (fun t k => .flushComm _ t k) _ _)
    exact ha.trans (.ofJobs ((SameJobs.rowRelease _).after rfl rfl rfl))
  have hcores : s2.cores = s0.cores.map fun x => (x.1, unseated c x.2) := map_unseat c s0.cores
  have hcards : (s2.ctx c).cards = (s0.ctx c).cards :=
    field_modCtx Ctx.cards s1 c c fun x => by rw [Ctx.fillErr]; split <;> rfl
  have hv : Vacant c s2 := vacant_map hcores
  have hs3 : s3 = armed.foldl (endJob c card fcode fblock) s2 := rfl
  clear_value s3
  have hlast := ((SameJobs.modCtx { s3 with reev := s3.reev.filter fun a => a.1.val != c } c
    (f := fun t => { t with recs := [], gangs := [], cks := [] })).trans (.freeze _)).trans (.raiseCtx _ c 1)
  refine ⟨fun j hj => ?_, fun hn hr hlive => ?_⟩
  · have h2 : s2.core j = unseated c (s0.core j) := by
      rw [State.core, hcores, mgetD_map _ _ _ rfl, ← State.core]
    have h3 : s3.core j = s2.core j := by rw [State.core, hs3, foldl_endJob_cores _ hv, ← State.core]
    rw [hlast.core j]
    change (s3.core j).blk = none
    rw [h3, h2, unseated_of_any (by rw [h0.blk, hj])]
  · have hk : KeepsCards (s.ctx c) (s2.ctx c) := (h0.cards c).trans (.of_eq hcards)
    have hmem : card ∈ armed :=
      List.mem_filter.2 ⟨mem_upto.2 (by omega), by simpa [t, hk.cstate hr] using hlive⟩
    have h3 : FailedBy card fcode (s3.ctx c) := hs3 ▸ failedBy_foldl_endJob hf armed hv (hk hr).1 (.inl hmem)
    exact h3.congr (hlast.cards c)

end Sys2Proof.Proofs
end

section
/-!
PROOFS. An expired watchdog, a starved core and a refused encoding stop their context, whose record names the fault (R109, R348 to
R350, R359).
-/
namespace Sys2Proof.Proofs
open Sys2Proof Sys2Proof.Machine Sys2Proof.Laws

/-! ### The words of an error record (R349) -/

/-- Every part of an error fits the field of word 0 that holds it. -/
structure FitsWord0 (e : CtxErr) : Prop where
  code : e.code < 256
  detail : e.detail < 256
  stream : e.stream < 4
  card : e.card < 4096
  agent : e.agent < 8
  block : e.block < 2 ^ 24

theorem words_word0 {e : CtxErr} (time : Nat) (h : FitsWord0 e) : wd (e.words time) 0 = e.code * 2 ^ 56 + e.detail * 2 ^ 48 +
    e.stream * 2 ^ 46 + e.core / 64 % 2 * 2 ^ 45 + e.core % 64 * 2 ^ 39 + e.card * 2 ^ 27 + e.agent * 2 ^ 24 + e.block := by
  obtain ⟨hcode, hdetail, hstream, hcard, hagent, hblock⟩ := h
  exact toNat_w64 (by omega)
theorem words_word1 {e : CtxErr} (time : Nat) (hline : e.line < 2 ^ 24) (hlane : e.lane < 8) :
    wd (e.words time) 1 = e.line * 2 ^ 40 + e.lane * 2 ^ 37 + e.lseq % 2 ^ 37 := toNat_w64 (by omega)

theorem stm_code_lt (m : Stm) : Stm.code m < 4 := by cases m <;> decide
theorem fitsWord0_errAt {s : State} {k code detail : Nat} (m : Stm) (p : Pos) (aux : Nat) (hc : code < 256) (hd : detail < 256)
    (hn : (s.core k).res.card < 4096) (hb : (s.core k).res.block < 2 ^ 24) : FitsWord0 (s.errAt k m p code detail aux) :=
  ⟨hc, hd, stm_code_lt m, hn, Nat.succ_pos 7, hb⟩
theorem fitsWord0_errAgent {s : State} {k agent code detail : Nat} (aux : Nat) (ha : agent < 8) (hc : code < 256)
    (hd : detail < 256) (hn : (s.core k).res.card < 4096) (hb : (s.core k).res.block < 2 ^ 24) :
    FitsWord0 (s.errAgent k agent code detail aux) := ⟨hc, hd, Nat.lt_succ_self 3, hn, ha, hb⟩

/-! ### The stop of a context -/

/-- Context c has stopped between s and t with this code in its record: the cores that held a block of it hold none, and the job
of this card, if it ran, is FAILED with the code. -/
def StopsWith (s t : State) (c card code : Nat) : Prop :=
  (t.ctx c).stopped = true ∧ wd (t.ctx c).err 0 / 2 ^ 56 = code ∧
    (∀ j, ((s.core j).blk.any fun r => r.ctx.val == c) = true → (t.core j).blk = none) ∧
    (risingFrom 0 (s.ctx c).cards = true → (s.ctx c).cstate card = 2 ∨ (s.ctx c).cstate card = 3 → FailedBy card code (t.ctx c))

theorem contextStop_stops {s : State} {c : Nat} {e : CtxErr} (h : FitsWord0 e) (hs : (s.ctx c).stopped = false) (he : s.noError c) :
    StopsWith s (s.contextStop c e.code e) c e.card e.code := by
  have hr := contextStopBy_record (some e.card) e.code e hs he
  unfold State.contextStop
  refine ⟨hr.1, ?_, ?_⟩
  · rw [hr.2]
    exact words_code s.rtime h.code h.detail h.stream h.card h.agent h.block
  · unfold State.contextStopBy
    dsimp only
    rw [if_neg (by rw [hs]; decide)]
    generalize Ev.mk .. = ev
    have hlog := SameJobs.logEv s ev
    have hend := stopWork_ends (s := s.logEv ev) (c := c) (card := e.card) e.block (e.words s.rtime) h.code
    refine ⟨fun j hj => hend.1 j (by rw [hlog.core, hj]), fun hrise hlive => hend.2 h.card ?_ ?_⟩
    · rw [hlog.cards, hrise]
    · rw [logEv_ctx]
      exact hlive

/-! ### What stops it -/

theorem exec_watchdogExpiry {s : State} {c : Fin 8} {k : Nat} {ks : List Nat} (hd : s.down = false) (hc : s.hasCtx c = true)
    (hs : (s.ctx c).stopped = false) (hw : (s.ctx c).wdlim.toNat * 1000000 ≤ (s.ctx c).wdcnt)
    (hk : (s.coresOf c fun _ => true) = k :: ks) :
    exec (.watchdogExpiry c) s = .next (s.contextStop c 0x2F (s.errAgent k 7 0x2F 0 0)) := by
  change execWatchdogExpiry c s = _
  unfold execWatchdogExpiry
  dsimp only
  rw [if_neg (by simp [hd, hc, hs]; omega), hk]
theorem exec_queueStarvation {s : State} {k : Nat} (hb : (s.core k).blk.isSome = true) (hd : s.down = false)
    (hh : (s.ctx (s.core k).res.ctx.val).halted = false) (hk : 2 ^ 20 ≤ (s.core k).starve) :
    exec (.queueStarvation k) s =
      .next (s.contextStop (s.core k).res.ctx.val 0x2B (s.errAt k .c (s.core k).r.c.pos 0x2B 0 0)) := by
  change execQueueStarvation k s = _
  unfold execQueueStarvation
  dsimp only
  obtain ⟨r, hr⟩ := Option.isSome_iff_exists.1 hb
  rw [if_neg (by simp [hr, hd, hh]; omega)]

/-- The error of a form at a lane that the checks refuse (R109, R349). -/
def refusal (s : State) (code detail lane : Nat) : CtxErr := s.errAt s.cur s.strm { s.st.pos with lane := lane } code detail 0

theorem exec_illegalEncoding (s : State) (code detail lane : BitVec 8) : exec (.illegalEncoding code detail lane) s =
    .next ((s.atLane lane.toNat).contextStop s.cx code.toNat (refusal s code.toNat detail.toNat lane.toNat)) := by
  have hres : (s.atLane lane.toNat).res = s.res := res_modSt _ _
  have hst : (s.atLane lane.toNat).st = { s.st with pos := { s.st.pos with lane := lane.toNat } } := st_modSt _ _
  change execIllegalEncoding code detail lane s = _
  rw [execIllegalEncoding, State.fatal, State.errAt, ← State.me, ← State.res, State.cx, hres, hst]
  rfl
theorem blk_atLane (s : State) (n j : Nat) : ((s.atLane n).core j).blk = (s.core j).blk := by
  by_cases h : j = s.cur
  · rw [h]
    change (s.atLane n).me.blk = s.me.blk
    simp [State.atLane, State.modSt, State.setSt, Core.setStr]
  · exact congrArg Core.blk (core_setCore_ne _ _ h)

/-- A refused form stops its context as a fault at its lane does. -/
theorem refusal_stops {s : State} {code detail lane : Nat} (h : FitsWord0 (refusal s code detail lane))
    (hs : (s.ctx s.cx).stopped = false) (he : s.noError s.cx) :
    StopsWith s ((s.atLane lane).contextStop s.cx code (refusal s code detail lane)) s.cx s.res.card code := by
  obtain ⟨hstop, hcode, hcores, hjob⟩ := contextStop_stops (s := s.atLane lane) (c := s.cx) h hs he
  exact ⟨hstop, hcode, fun j hj => hcores j (by rw [blk_atLane, hj]), hjob⟩

theorem refusal_record {s : State} {code detail lane : Nat} (hs : (s.ctx s.cx).stopped = false) (he : s.noError s.cx) :
    (((s.atLane lane).contextStop s.cx code (refusal s code detail lane)).ctx s.cx).err =
      (refusal s code detail lane).words s.rtime := by
  have hctx : (s.atLane lane).ctx s.cx = s.ctx s.cx := rfl
  exact (contextStopBy_record (s := s.atLane lane) (c := s.cx) (some (refusal s code detail lane).card) code
    (refusal s code detail lane) (hctx ▸ hs) (by rw [State.noError, hctx]; exact he)).2

/-! ### The fields of a record (R349) -/

/-- The fields of word 0 read back. -/
theorem word0_fields {e : CtxErr} {w : Nat} (h : FitsWord0 e) (hw : w = e.code * 2 ^ 56 + e.detail * 2 ^ 48 + e.stream * 2 ^ 46 +
    e.core / 64 % 2 * 2 ^ 45 + e.core % 64 * 2 ^ 39 + e.card * 2 ^ 27 + e.agent * 2 ^ 24 + e.block) :
    bits w 63 56 = e.code ∧ bits w 55 48 = e.detail ∧ bits w 47 46 = e.stream ∧ bits w 45 45 = e.core / 64 % 2 ∧
      bits w 44 39 = e.core % 64 ∧ bits w 38 27 = e.card ∧ bits w 26 24 = e.agent ∧ bits w 23 0 = e.block := by
  obtain ⟨hcode, hdetail, hstream, hcard, hagent, hblock⟩ := h
  unfold bits
  refine ⟨?_, ?_, ?_, ?_, ?_, ?_, ?_, ?_⟩ <;> omega
/-- The fields of word 1 read back. -/
theorem word1_fields {line lane lseq w : Nat} (hl : line < 2 ^ 24) (hn : lane < 8)
    (hw : w = line * 2 ^ 40 + lane * 2 ^ 37 + lseq % 2 ^ 37) :
    bits w 63 40 = line ∧ bits w 39 37 = lane ∧ bits w 36 0 = lseq % 2 ^ 37 := by
  unfold bits
  refine ⟨?_, ?_, ?_⟩ <;> omega

end Sys2Proof.Proofs
end

section
/-!
PROOFS. A finished block leaves its core clean and its record frees; with the last block the job is DONE (R392, R393).
-/
namespace Sys2Proof.Proofs
open Sys2Proof Sys2Proof.Machine Sys2Proof.Laws

/-! ### The books of a retirement (R392) -/

/-- What the retirement of the block on core c makes of its context x. -/
structure Retired (c : Core) (x y : Ctx) : Prop where
  rising : risingFrom 0 y.cards = true
  left : y.cf c.res.card 22 39 16 = x.cf c.res.card 22 39 16 - 1
  recs : y.recs = mdel x.recs (gkey c.res.card c.res.block)
  rekeyed : risingFrom 0 x.jobs = true → risingFrom 0 y.jobs = true
  jobs : ∀ j ∈ y.jobs, ∃ i ∈ x.jobs, j.2.snap = i.2.snap
  wdcnt : y.wdcnt = 0

theorem mem_of_mget {α : Type} {m : List (Nat × α)} {k : Nat} {x : α} (h : mget m k = some x) : (k, x) ∈ m := by
  induction m with
  | nil => cases h
  | cons e m ih =>
    rw [mget] at h
    split at h
    case isTrue hk => exact List.mem_cons.2 (.inl (Prod.ext hk (Option.some.inj h).symm))
    case isFalse =>
      split at h
      · cases h
      · exact List.mem_cons_of_mem _ (ih h)

/-- Two contexts that differ in their gangs alone. -/
def OnlyGangs (x y : Ctx) : Prop := ∃ g, y = { x with gangs := g }

theorem OnlyGangs.trans {x y z : Ctx} (h : OnlyGangs x y) (h' : OnlyGangs y z) : OnlyGangs x z := by
  obtain ⟨g, rfl⟩ := h
  obtain ⟨g', rfl⟩ := h'
  exact ⟨g', rfl⟩
theorem onlyGangs_gangLeave (s : State) (c card gang : Nat) : OnlyGangs (s.ctx c) ((s.gangLeave c card gang).ctx c) := by
  unfold State.gangLeave
  rw [ctx_modCtx_self]
  dsimp only
  split <;> exact ⟨_, rfl⟩
theorem gangLeave_mem (s : State) (c card gang : Nat) : (s.gangLeave c card gang).mem = s.mem := rfl
theorem gangLeave_reev (s : State) (c card gang : Nat) : (s.gangLeave c card gang).reev = s.reev := rfl
theorem onlyGangs_gangRelease (x : Ctx) (card gang : Nat) : OnlyGangs x (x.gangRelease card gang) := by
  unfold Ctx.gangRelease
  split
  · exact ⟨x.gangs, rfl⟩
  · split <;> exact ⟨_, rfl⟩

/-- What a retirement writes in its context: the flags and the count of the card, the record, the dependence view, the watchdog. -/
def retireCtx (c : Core) (t : Ctx) : Ctx :=
  let left := t.cf c.res.card 22 39 16 - 1
  { (t.setCf c.res.card 31 63 56 (t.cf c.res.card 31 63 56 ||| c.allFlags)).setCf c.res.card 22 39 16 left with
    recs := mdel t.recs (gkey c.res.card c.res.block)
    jobs := match mget t.jobs c.res.card with
      | some j => mset t.jobs c.res.card { j with dview := j.dview.join c.clk }
      | none => t.jobs
    wdcnt := 0 }

section
variable {t : Ctx} (c : Core) (hr : risingFrom 0 t.cards = true)

theorem retireCtx_cards : (retireCtx c t).cards = ((t.setCf c.res.card 31 63 56 (t.cf c.res.card 31 63 56 ||| c.allFlags)).setCf
    c.res.card 22 39 16 (t.cf c.res.card 22 39 16 - 1)).cards := rfl
include hr in
theorem risingFrom_retireCtx : risingFrom 0 (retireCtx c t).cards = true := by
  rw [retireCtx_cards]
  exact risingFrom_setCf _ _ _ _ _ (risingFrom_setCf _ _ _ _ _ hr)
include hr in
theorem retireCtx_left : (retireCtx c t).cf c.res.card 22 39 16 = t.cf c.res.card 22 39 16 - 1 := by
  have hlt : t.cf c.res.card 22 39 16 < 2 ^ 24 := Nat.mod_lt _ (by decide)
  rw [cf_congr (retireCtx_cards c), cf_setCf_self (risingFrom_setCf _ _ _ _ _ hr) (by decide) (by decide) (by omega)]
theorem retireCtx_rekeyed (h : risingFrom 0 t.jobs = true) : risingFrom 0 (retireCtx c t).jobs = true := by
  unfold retireCtx
  dsimp only
  split
  · exact risingFrom_mset _ h (Nat.zero_le _)
  · exact h
theorem retireCtx_snap : ∀ j ∈ (retireCtx c t).jobs, ∃ i ∈ t.jobs, j.2.snap = i.2.snap := by
  intro j hj
  unfold retireCtx at hj
  dsimp only at hj
  split at hj
  case h_1 i hi =>
    rcases mem_mset hj with rfl | hj
    · exact ⟨_, mem_of_mget hi, rfl⟩
    · exact ⟨j, hj, rfl⟩
  case h_2 => exact ⟨j, hj, rfl⟩

end

/-- A retirement cleans the core and settles the context's books; then the job is done, or the block's gang may join its queue. -/
theorem retire_books {s : State} {k x : Nat} {c : Core} (hc : s.core k = c) (hx : c.res.ctx.val = x)
    (hr : risingFrom 0 (s.ctx x).cards = true) :
    ∃ t : State, t.core k = c.leave ∧ t.mem = s.mem ∧ t.reev = s.reev ∧ Retired c (s.ctx x) (t.ctx x) ∧ s.retire k =
      if (t.ctx x).cf c.res.card 22 39 16 = 0 then (t.jobDone x c.res.card).campionEnd
      else t.gangRejoin x c.res.card c.res.gang := by
  subst hc hx
  unfold State.retire
  extract_lets c r x gone s1 s2 s3 s4
  have hb : SameBlocks s s1 := (SameBlocks.addStats s k).trans (.ackRvks _ k)
  have hlog : SameJobs (s.addStats k) s1 := .foldl (fun t _ => .logEv t _) _ _
  have hk : KeepsCards (s.ctx x) (s1.ctx x) := (addStats_keepsCards s k x).trans (.of_eq (hlog.cards x))
  obtain ⟨hr1, -⟩ := hk hr
  have h3 : s3.ctx x = retireCtx c (s1.ctx x) := ctx_modCtx_self s2 x _
  have hleave := onlyGangs_gangLeave s3 x r.card r.gang
  have hrel : OnlyGangs ((s3.gangLeave x r.card r.gang).ctx x) (s4.ctx x) := by
    dsimp only [s4]
    rw [ctx_modCtx_self]
    exact onlyGangs_gangRelease _ _ _
  rw [h3] at hleave
  obtain ⟨g, h4⟩ := hleave.trans hrel
  have hcore : s4.core k = c.leave := by
    dsimp only [s4]
    rw [modCtx_eq, core_setCtx, core_modCore_self]
    exact congrArg Core.leave (hb.core k)
  have hcards : (s4.ctx x).cards = (retireCtx c (s1.ctx x)).cards := by rw [h4]
  have hmem : s4.mem = s1.mem := gangLeave_mem s3 x r.card r.gang
  have hreev : s4.reev = s1.reev := gangLeave_reev s3 x r.card r.gang
  clear_value s4
  refine ⟨s4, hcore, hmem.trans hb.mem, hreev.trans hlog.reev, ⟨?_, ?_, ?_, ?_, ?_, ?_⟩, rfl⟩
  · rw [hcards]
    exact risingFrom_retireCtx c hr1
  · rw [cf_congr hcards, retireCtx_left c hr1, hk.cf hr]
  · rw [h4]
    exact congrArg (mdel · _) (hb.recs x)
  · rw [h4, ← hb.jobs]
    exact retireCtx_rekeyed c
  · rw [h4, ← hb.jobs]
    exact retireCtx_snap c
  · rw [h4]
    rfl

end Sys2Proof.Proofs
end

section
/-!
PROOFS. Retirement, and the ends of blocks and contexts, settled (R109, R348 to R350, R359, R392, R393).
-/
namespace Sys2Proof.Proofs
open Sys2Proof Sys2Proof.Machine Sys2Proof.Laws

/-! ### A gang that waits may join its queue again (R392) -/

theorem onlyQueues_gangRejoin (s : State) (c card gang : Nat) : OnlyQueues s (s.gangRejoin c card gang) := by
  unfold State.gangRejoin
  split
  · exact .refl s
  · exact .enqueue s c _

theorem mget_stampRecs_none {time : BitVec 32} {key : Nat} (es : List (Nat × Rec)) {m : Map Rec} (h : mget m key = none)
    (he : ∀ x ∈ es, x.1 ≠ key) : mget (stampRecs time es m) key = none := by
  induction es generalizing m with
  | nil => exact h
  | cons x es ih =>
    refine ih ?_ fun y hy => he y (List.mem_cons_of_mem _ hy)
    exact (mget_mset_ne _ _ (he x List.mem_cons_self).symm).trans h

section
variable {s : State} {c key : Nat} (h : mget (s.ctx c).recs key = none) (hr : risingFrom 0 (s.ctx c).recs = true)
include h hr

/-- Joining a queue makes no record. -/
theorem mget_enqueue_none (j : Nat) : mget ((s.enqueue c j).ctx c).recs key = none := by
  cases hj : mget (s.ctx c).recs j with
  | none =>
    rw [State.enqueue, hj]
    exact h
  | some r =>
    rcases enqueue_cases hj with he | ⟨es, g, hes, he⟩ <;> rw [he]
    · exact h
    · rw [joinQueue, appendReady_ctx, ctx_modCtx_self]
      refine mget_stampRecs_none es h fun x hx hk => ?_
      rcases hes x hx with rfl | hm
      · rw [← hk] at h
        rw [hj] at h
        cases h
      · rw [← hk, mget_of_mem hr hm] at h
        cases h
theorem mget_gangRejoin_none (card gang : Nat) : mget ((s.gangRejoin c card gang).ctx c).recs key = none := by
  unfold State.gangRejoin
  split
  · exact h
  · exact mget_enqueue_none h hr _

end

/-! ### The last block (R393) -/

/-- A context with no loop node wakes none. -/
theorem wakeNodes_of_none {s : State} {c n : Nat} (h : ∀ j ∈ (s.ctx c).jobs, bits (wd j.2.snap 0) 27 25 ≠ 2) :
    s.wakeNodes c n = s := by
  unfold State.wakeNodes
  dsimp only
  rw [List.filterMap_eq_nil_iff.2, List.append_nil]
  intro j hj
  exact if_neg (by simp [h j hj])

theorem setCw_cards_congr {x y : Ctx} {n k v : Nat} (h : y.cards = x.cards) : (y.setCw n k v).cards = (x.setCw n k v).cards := by
  rw [Ctx.setCw, Ctx.setCw, h]
theorem setCf_cards_congr {x y : Ctx} {n k hi lo v : Nat} (h : y.cards = x.cards) :
    (y.setCf n k hi lo v).cards = (x.setCf n k hi lo v).cards := by
  rw [Ctx.setCf, Ctx.setCf, Ctx.cw, Ctx.cw, h]
  exact setCw_cards_congr h

/-- What the completion of a job changes of its context's cards and jobs. -/
theorem jobDone_effect {s : State} {c n : Nat} (hr : s.reev = []) (hj : ∀ j ∈ (s.ctx c).jobs, bits (wd j.2.snap 0) 27 25 ≠ 2) :
    (s.jobDone c n).reev = [] ∧ (s.jobDone c n).cores = s.cores ∧
      ((s.jobDone c n).ctx c).cards = ((((s.ctx c).setCw n 25 s.rtime).setCf n 23 55 48 0).setCf n 0 31 28 4).cards ∧
      ((s.jobDone c n).ctx c).jobs = mdel (s.ctx c).jobs n := by
  unfold State.jobDone
  extract_lets snap v ls s1 s2
  have hq : OnlyQueues { s with links := s.links.filter fun l => !(l.ctx.val == c && l.prod == n) } s1 := .decJoins _ _ _ _
  have hjobs : (s2.ctx c).jobs = mdel (s.ctx c).jobs n := by
    dsimp only [s2]
    rw [ctx_modCtx_self]
    exact congrArg (mdel · n) (hq.jobs c)
  have hcards : (s2.ctx c).cards = ((((s.ctx c).setCw n 25 s.rtime).setCf n 23 55 48 0).setCf n 0 31 28 4).cards := by
    dsimp only [s2]
    have htag : (s1.tagFree c n).ctx c = s1.ctx c := rfl
    rw [ctx_modCtx_self, htag]
    dsimp only
    exact setCf_cards_congr (setCf_cards_congr (setCw_cards_congr (hq.cards c)))
  have hcores : s2.cores = s1.cores := rfl
  have hreev : s2.reev = s1.reev := rfl
  clear_value s2
  have hwake : s2.wakeNodes c n = s2 := wakeNodes_of_none fun j h => hj j (mem_mdel (hjobs ▸ h))
  have hend := SameJobs.endEntry s2 c n snap
  rw [hwake]
  exact ⟨hend.reev.trans (hreev.trans (hq.reev.trans hr)), hend.cores.trans (hcores.trans hq.cores), (hend.cards c).trans hcards,
    (hend.jobs c).trans hjobs⟩

/-- A completed job is DONE, its status is 0, and it is no live job any more. -/
theorem jobDone_done {x y : Ctx} {n time : Nat} (hr : risingFrom 0 x.cards = true)
    (h : y.cards = (((x.setCw n 25 time).setCf n 23 55 48 0).setCf n 0 31 28 4).cards) :
    y.cstate n = 4 ∧ y.cf n 23 55 48 = 0 := by
  have h1 := risingFrom_setCw n 25 time hr
  have h2 := risingFrom_setCf n 23 55 48 0 h1
  refine ⟨(cf_congr h ..).trans (cstate_setCf_state h2 (by decide)), ?_⟩
  rw [cf_congr h, cf_setCf_ne h2 (by omega), cf_setCf_self h1 (by decide) (by decide) (by decide)]

/-! ### The retirement -/

theorem exec_blockRetirement {s : State} {k : Nat} (ha : s.asks k = true) (he : (s.core k).ended = true)
    (hb : s.enginesBusy k = false) (hq : (s.core k).q24 = []) (hc : (s.core k).comm = []) (hm : (s.core k).mark ≠ .dying) :
    exec (.blockRetirement k) s = .next (s.retire k) := by
  change execBlockRetirement k s = _
  unfold execBlockRetirement
  dsimp only
  rw [if_neg (by simp [ha, he, hb, hq, hc, hm])]

section
variable {s : State} {k x m : Nat} {c : Core} (hc : s.core k = c) (hx : c.res.ctx.val = x)
  (hr : risingFrom 0 (s.ctx x).cards = true)
include hc hx hr

/-- A block that is not its job's last leaves its core clean, and its record frees. -/
theorem retire_notLast (hm : (s.ctx x).cf c.res.card 22 39 16 = m + 2) (hrec : risingFrom 0 (s.ctx x).recs = true) :
    let t := s.retire k
    t.core k = c.leave ∧ (t.ctx x).cf c.res.card 22 39 16 = m + 1 ∧
      mget (t.ctx x).recs (gkey c.res.card c.res.block) = none ∧ (t.ctx x).wdcnt = 0 ∧ t.mem = s.mem := by
  obtain ⟨t, hcore, hmem, -, ht, he⟩ := retire_books hc hx hr
  have hleft := ht.left
  rw [hm] at hleft
  rw [if_neg (by rw [hleft]; omega)] at he
  rw [he]
  have hq := onlyQueues_gangRejoin t x c.res.card c.res.gang
  have hnone : mget (t.ctx x).recs (gkey c.res.card c.res.block) = none := by
    rw [ht.recs, mget_mdel_self _ hrec]
  refine ⟨(congrArg (mgetD · k Core.init) hq.cores).trans hcore, (cf_congr (hq.cards _) ..).trans hleft, ?_, ?_,
    hq.mem.trans hmem⟩
  · refine mget_gangRejoin_none hnone ?_ _ _
    rw [ht.recs]
    exact risingFrom_mdel _ hrec
  · obtain ⟨q, hctx⟩ := hq.ctx x
    rw [hctx]
    exact ht.wdcnt

/-- With its last block a job is DONE. -/
theorem retire_last (hm : (s.ctx x).cf c.res.card 22 39 16 = 1) (hreev : s.reev = [])
    (hj : risingFrom 0 (s.ctx x).jobs = true) (hnode : ∀ j ∈ (s.ctx x).jobs, bits (wd j.2.snap 0) 27 25 ≠ 2) :
    let t := s.retire k
    t.core k = c.leave ∧ (t.ctx x).cstate c.res.card = 4 ∧ (t.ctx x).cf c.res.card 23 55 48 = 0 ∧
      mget (t.ctx x).jobs c.res.card = none := by
  obtain ⟨t, hcore, -, hr', ht, he⟩ := retire_books hc hx hr
  rw [if_pos (by rw [ht.left, hm])] at he
  have hsnap : ∀ j ∈ (t.ctx x).jobs, bits (wd j.2.snap 0) 27 25 ≠ 2 := fun j hj => by
    obtain ⟨i, hi, hs⟩ := ht.jobs j hj
    rw [hs]
    exact hnode i hi
  obtain ⟨hend, hcores, hcards, hjobs⟩ := jobDone_effect (n := c.res.card) (hr'.trans hreev) hsnap
  rw [campionEnd_of_none hend] at he
  rw [he]
  obtain ⟨hdone, hstatus⟩ := jobDone_done ht.rising hcards
  refine ⟨(congrArg (mgetD · k Core.init) hcores).trans hcore, hdone, hstatus, ?_⟩
  rw [hjobs, mget_mdel_self _ (ht.rekeyed hj)]

end

/-! ### The statement -/

/-- Settles O50: a retirement's books are those of R392 with the job's completion after the last block, and every stop fills the
record, leaves the cores of its context and fails the job of the fault. -/
theorem blocksAndContextsEnd : Obligations.BlocksAndContextsEnd := by
  unfold Obligations.BlocksAndContextsEnd
  intro s
  refine ⟨?_, ?_, ?_, ?_⟩
  · intro k c x n ha he hb hq hc hm hr
    refine ⟨fun m hleft hrec => ?_, fun hleft hreev hj hnode => ?_⟩
    · obtain ⟨hcore, hcount, hnone, hwd, hmem⟩ := retire_notLast rfl rfl hr hleft hrec
      refine ⟨s.retire k, exec_blockRetirement ha he hb hq hc hm, ?_⟩
      rw [hcore]
      exact ⟨rfl, rfl, rfl, rfl, hcount, hnone, hwd, sameMemory_of_mem hmem⟩
    · obtain ⟨hcore, hdone, hstatus, hnone⟩ := retire_last rfl rfl hr hleft hreev hj hnode
      refine ⟨s.retire k, exec_blockRetirement ha he hb hq hc hm, ?_⟩
      rw [hcore]
      exact ⟨rfl, hdone, hstatus, hnone⟩
  · intro c k ks hd hc hw hk hcard hblock hs hn
    exact ⟨_, exec_watchdogExpiry hd hc hs hw hk, contextStop_stops (e := s.errAgent k 7 0x2F 0 0)
      (fitsWord0_errAgent 0 (by decide) (by decide) (by decide) hcard hblock) hs hn⟩
  · intro k hb hd hh hk hcard hblock hs hn
    exact ⟨_, exec_queueStarvation hb hd hh hk, contextStop_stops (e := s.errAt k .c (s.core k).r.c.pos 0x2B 0 0)
      (fitsWord0_errAt _ _ _ (by decide) (by decide) hcard hblock) hs hn⟩
  · intro code detail lane hlane
    have hfits (hcard : s.res.card < 4096) (hblock : s.res.block < 2 ^ 24) :
        FitsWord0 (refusal s code.toNat detail.toNat lane.toNat) := fitsWord0_errAt _ _ _ code.isLt detail.isLt hcard hblock
    refine ⟨fun hcard hblock hs hn => ?_, fun hcard hblock hcur hline htime hs hn => ?_⟩
    · exact ⟨_, exec_illegalEncoding s code detail lane, refusal_stops (hfits hcard hblock) hs hn⟩
    · refine ⟨_, exec_illegalEncoding s code detail lane, ?_⟩
      dsimp only
      rw [refusal_record hs hn]
      obtain ⟨hcode, hdetail, hstream, hdie, hcore, hn, hagent, hb⟩ :=
        word0_fields (hfits hcard hblock) (words_word0 s.rtime (hfits hcard hblock))
      obtain ⟨hl, hi, hq⟩ := word1_fields hline hlane
        (words_word1 (e := refusal s code.toNat detail.toNat lane.toNat) s.rtime hline hlane)
      exact ⟨hcode, hdetail, hstream, hdie.trans (Nat.mod_eq_of_lt (by exact Nat.div_lt_of_lt_mul hcur)), hcore, hn, hagent, hb,
        hl, hi, hq, toNat_w64 htime, rfl⟩

end Sys2Proof.Proofs
end

section
/-!
PROOFS. The integer operations as operations on bit vectors: at every width, the model's numbers and flags are the manual's (R141,
R142).
-/
namespace Sys2Proof.Proofs
open Sys2Proof Sys2Proof.Machine Sys2Proof.Laws

/-! ### Signed readings, and integers modulo 2^n -/

theorem sgn_eq_toInt_ofNat (n w : Nat) : sgn n w = (BitVec.ofNat n w).toInt := by
  have hw : (w % 2 ^ n : Int) = (w % 2 ^ n : Nat) := by push_cast; rfl
  rw [sgn, BitVec.toInt_eq_toNat_cond, BitVec.toNat_ofNat, hw]
  split <;> split <;> omega
theorem sgn_toNat {n : Nat} (x : BitVec n) : sgn n x.toNat = x.toInt := by
  rw [sgn_eq_toInt_ofNat, BitVec.ofNat_toNat, BitVec.setWidth_eq]
theorem ofNat_wrap (n : Nat) (i : Int) : BitVec.ofNat n (wrap n i) = BitVec.ofInt n i := by
  refine BitVec.eq_of_toNat_eq ?_
  rw [BitVec.toNat_ofNat, BitVec.toNat_ofInt, wrap, Nat.mod_eq_of_lt]
  have h : (0 : Int) < (2 ^ n : Nat) := Int.natCast_pos.2 (Nat.two_pow_pos n)
  have := Int.emod_nonneg i h.ne'
  have := Int.emod_lt_of_pos i h
  omega
/-- A number read as signed and taken at 64 bits is its sign extension. -/
theorem w64_wrap_sgn (n v : Nat) : w64 (wrap 64 (sgn n v)) = (BitVec.ofNat n v).signExtend 64 := by
  rw [w64, ofNat_wrap, sgn_eq_toInt_ofNat, BitVec.signExtend]

/-! ### Each operation (R141) -/

/-- A model's operation is one on bit vectors: its result modulo 2^n, and its flags. -/
def Computes (op : Nat → Nat → Nat → Nat × Nat) (f : (n : Nat) → BitVec n → BitVec n → BitVec n)
    (g : (n : Nat) → BitVec n → BitVec n → Nat) : Prop :=
  ∀ n, 0 < n → ∀ x y : BitVec n, BitVec.ofNat n (op n x.toNat y.toNat).1 = f n x y ∧ (op n x.toNat y.toNat).2 = g n x y
/-- No flag is set. -/
def noFlags (n : Nat) (_ _ : BitVec n) : Nat := 0

/-- An operation without flags, by the value of its result. -/
theorem computes_plain {op : Nat → Nat → Nat → Nat} {f : (n : Nat) → BitVec n → BitVec n → BitVec n}
    (h : ∀ n, 0 < n → ∀ x y : BitVec n, op n x.toNat y.toNat % 2 ^ n = (f n x y).toNat) : Computes (plain op) f noFlags :=
  fun n hn x y => ⟨BitVec.eq_of_toNat_eq ((BitVec.toNat_ofNat ..).trans (h n hn x y)), rfl⟩

theorem computes_add : Computes (plain aluAdd) (fun _ x y => x + y) noFlags :=
  computes_plain fun n _ x y => by rw [aluAdd, Nat.mod_mod, BitVec.toNat_add]
theorem computes_sub : Computes (plain aluSub) (fun _ x y => x - y) noFlags :=
  computes_plain fun n _ x y => by
    rw [aluSub, Nat.mod_mod, BitVec.toNat_sub, Nat.mod_eq_of_lt y.isLt, Nat.add_comm x.toNat, Nat.sub_add_comm y.isLt.le]
theorem computes_mul : Computes (plain aluMul) (fun _ x y => x * y) noFlags :=
  computes_plain fun n _ x y => by rw [aluMul, Nat.mod_mod, BitVec.toNat_mul]
theorem computes_mulh : Computes (plain aluMulh) highS noFlags := fun n _ x y => by
  refine ⟨?_, rfl⟩
  rw [plain, aluMulh, ofNat_wrap, sgn_toNat, sgn_toNat, highS, Nat.cast_pow, Nat.cast_ofNat]
theorem computes_mulhn : Computes (plain aluMulhn) highU noFlags := fun _ _ _ _ => ⟨rfl, rfl⟩

theorem toNat_eq_zero_iff {n : Nat} {y : BitVec n} : y.toNat = 0 ↔ y = 0 := by
  rw [← BitVec.toNat_inj]
  rfl
/-- The one signed quotient that does not fit, as the model tests for it. -/
theorem overflow_iff {n : Nat} (hn : 0 < n) (x y : BitVec n) :
    (x.toNat == 2 ^ (n - 1) && y.toNat == 2 ^ n - 1) = true ↔ x = BitVec.intMin n ∧ y = BitVec.allOnes n := by
  rw [Bool.and_eq_true, beq_iff_eq, beq_iff_eq, ← BitVec.toNat_inj, ← BitVec.toNat_inj, BitVec.toNat_intMin, BitVec.toNat_allOnes,
    Nat.mod_eq_of_lt (Nat.pow_lt_pow_right (by decide) (Nat.sub_lt hn (by decide)))]
theorem divFlagsS_of_ne {n : Nat} (hn : 0 < n) (x : BitVec n) {y : BitVec n} (hy : ¬ y = 0) :
    flagIf (x.toNat == 2 ^ (n - 1) && y.toNat == 2 ^ n - 1) fIO = divFlagsS n x y := by
  rw [flagIf, divFlagsS, if_neg hy]
  simp only [overflow_iff hn]
theorem ofInt_tdiv {n : Nat} (x y : BitVec n) : BitVec.ofInt n (x.toInt.tdiv y.toInt) = x.sdiv y :=
  BitVec.eq_of_toInt_eq (by rw [BitVec.toInt_ofInt, BitVec.toInt_sdiv])
theorem ofInt_tmod {n : Nat} (x y : BitVec n) : BitVec.ofInt n (x.toInt.tmod y.toInt) = x.srem y := by
  rw [← BitVec.toInt_srem, BitVec.ofInt_toInt]
theorem ofNat_ones (n : Nat) : BitVec.ofNat n (2 ^ n - 1) = BitVec.allOnes n :=
  BitVec.eq_of_toNat_eq (by rw [BitVec.toNat_ofNat, BitVec.toNat_allOnes, Nat.mod_eq_of_lt (Nat.sub_lt (Nat.two_pow_pos n) Nat.one_pos)])

theorem computes_div : Computes aluDiv quotS divFlagsS := fun n hn x y => by
  unfold aluDiv
  by_cases hy : y = 0
  · rw [if_pos (toNat_eq_zero_iff.2 hy), quotS, divFlagsS, if_pos hy, if_pos hy]
    exact ⟨ofNat_ones n, rfl⟩
  · rw [if_neg (mt toNat_eq_zero_iff.1 hy), divFlagsS_of_ne hn x hy, quotS, if_neg hy, ofNat_wrap, sgn_toNat, sgn_toNat, ofInt_tdiv]
    exact ⟨rfl, rfl⟩
theorem computes_rem : Computes aluRem remS divFlagsS := fun n hn x y => by
  unfold aluRem
  by_cases hy : y = 0
  · rw [if_pos (toNat_eq_zero_iff.2 hy), remS, divFlagsS, if_pos hy, if_pos hy]
    exact ⟨by rw [BitVec.ofNat_toNat, BitVec.setWidth_eq], rfl⟩
  · rw [if_neg (mt toNat_eq_zero_iff.1 hy), divFlagsS_of_ne hn x hy, remS, if_neg hy, ofNat_wrap, sgn_toNat, sgn_toNat, ofInt_tmod]
    exact ⟨rfl, rfl⟩
theorem computes_divn : Computes aluDivn quotU divFlagsU := fun n _ x y => by
  unfold aluDivn
  by_cases hy : y = 0
  · rw [if_pos (toNat_eq_zero_iff.2 hy), quotU, divFlagsU, if_pos hy, if_pos hy]
    exact ⟨ofNat_ones n, rfl⟩
  · rw [if_neg (mt toNat_eq_zero_iff.1 hy), quotU, divFlagsU, if_neg hy, if_neg hy, ← BitVec.toNat_udiv]
    exact ⟨by rw [BitVec.ofNat_toNat, BitVec.setWidth_eq], rfl⟩
theorem computes_remn : Computes aluRemn remU divFlagsU := fun n _ x y => by
  unfold aluRemn
  by_cases hy : y = 0
  · rw [if_pos (toNat_eq_zero_iff.2 hy), remU, divFlagsU, if_pos hy, if_pos hy]
    exact ⟨by rw [BitVec.ofNat_toNat, BitVec.setWidth_eq], rfl⟩
  · rw [if_neg (mt toNat_eq_zero_iff.1 hy), remU, divFlagsU, if_neg hy, if_neg hy, ← BitVec.toNat_umod]
    exact ⟨by rw [BitVec.ofNat_toNat, BitVec.setWidth_eq], rfl⟩

theorem computes_and : Computes (plain fun _ x y => Nat.land x y) (fun _ x y => x &&& y) noFlags :=
  computes_plain fun _ _ x y => Nat.mod_eq_of_lt (x &&& y).isLt
theorem computes_or : Computes (plain fun _ x y => Nat.lor x y) (fun _ x y => x ||| y) noFlags :=
  computes_plain fun _ _ x y => Nat.mod_eq_of_lt (x ||| y).isLt
theorem computes_xor : Computes (plain fun _ x y => Nat.xor x y) (fun _ x y => x ^^^ y) noFlags :=
  computes_plain fun _ _ x y => Nat.mod_eq_of_lt (x ^^^ y).isLt
theorem computes_shl : Computes (plain aluShl) (fun n x y => x <<< (y.toNat % n)) noFlags :=
  computes_plain fun n _ x y => by rw [aluShl, Nat.mod_mod, BitVec.toNat_shiftLeft, Nat.shiftLeft_eq]
theorem computes_shr : Computes (plain aluShr) (fun n x y => x >>> (y.toNat % n)) noFlags :=
  computes_plain fun n _ x y => by
    rw [aluShr, ← Nat.shiftRight_eq_div_pow, ← BitVec.toNat_ushiftRight, Nat.mod_eq_of_lt (BitVec.isLt _)]
theorem computes_sar : Computes (plain aluSar) (fun n x y => x.sshiftRight (y.toNat % n)) noFlags := fun n _ x y => by
  refine ⟨?_, rfl⟩
  change _ = BitVec.ofInt n (x.toInt >>> (y.toNat % n))
  rw [plain, aluSar, ofNat_wrap, sgn_toNat, Int.shiftRight_eq_div_pow]
theorem computes_rotl : Computes (plain aluRotl) (fun n x y => x.rotateLeft (y.toNat % n)) noFlags :=
  computes_plain fun n hn x y => by
    have hk : y.toNat % n < n := Nat.mod_lt _ hn
    rw [aluRotl, Nat.mod_mod, BitVec.toNat_rotateLeft, Nat.mod_eq_of_lt hk]
    generalize y.toNat % n = k at hk
    obtain ⟨m, rfl⟩ := Nat.exists_eq_add_of_le hk.le
    rw [Nat.add_sub_cancel_left, Nat.shiftRight_eq_div_pow]
    have hlow : x.toNat / 2 ^ m < 2 ^ k := Nat.div_lt_of_lt_mul (x.isLt.trans_eq (by rw [← Nat.pow_add, Nat.add_comm]))
    have hhigh : x.toNat <<< k % 2 ^ (k + m) = 2 ^ k * (x.toNat % 2 ^ m) := by
      rw [Nat.shiftLeft_eq, Nat.mul_comm, Nat.pow_add, Nat.mul_mod_mul_left]
    rw [hhigh, ← Nat.two_pow_add_eq_or_of_lt hlow, Nat.add_mod, ← Nat.shiftLeft_eq, hhigh,
      Nat.mod_eq_of_lt (hlow.trans_le (Nat.pow_le_pow_right (by decide) (by omega))), Nat.mod_eq_of_lt]
    calc 2 ^ k * (x.toNat % 2 ^ m) + x.toNat / 2 ^ m < 2 ^ k * (x.toNat % 2 ^ m) + 2 ^ k := Nat.add_lt_add_left hlow _
      _ = 2 ^ k * (x.toNat % 2 ^ m + 1) := by ring
      _ ≤ 2 ^ k * 2 ^ m := Nat.mul_le_mul_left _ (Nat.mod_lt _ (Nat.two_pow_pos _))
      _ = 2 ^ (k + m) := (Nat.pow_add ..).symm

/-! ### At the width of a form (R141) -/

section
variable {op : Nat → Nat → Nat → Nat × Nat} {f : (n : Nat) → BitVec n → BitVec n → BitVec n}
  {g : (n : Nat) → BitVec n → BitVec n → Nat}

/-- At width 64 the operation works on whole words. -/
theorem Computes.word (h : Computes op f g) (x y : Word) : w64 (op 64 x.toNat y.toNat).1 = f 64 x y := (h 64 (by decide) x y).1
theorem Computes.atWidth (h : Computes op f g) (w : Bool) (x y : Word) :
    widen w (op (wOf w) (x.toNat % 2 ^ wOf w) (y.toNat % 2 ^ wOf w)).1 = atWidth w f x y ∧
      (op (wOf w) (x.toNat % 2 ^ wOf w) (y.toNat % 2 ^ wOf w)).2 = flagsAt w g x y := by
  cases w with
  | false =>
    have hm (z : Word) : z.toNat % 2 ^ wOf false = z.toNat := Nat.mod_eq_of_lt z.isLt
    rw [hm, hm]
    exact h 64 (by decide) x y
  | true =>
    have hm (z : Word) : z.toNat % 2 ^ wOf true = (z.setWidth 32).toNat := (BitVec.toNat_setWidth 32 z).symm
    obtain ⟨hval, hfl⟩ := h 32 (by decide) (x.setWidth 32) (y.setWidth 32)
    rw [hm, hm]
    exact ⟨(w64_wrap_sgn 32 _).trans (congrArg _ hval), hfl⟩

end

end Sys2Proof.Proofs
end

section
/-!
PROOFS. How a form of a scalar stream completes: what taking its tokens and leaving it change, and the completion of a form that
writes a scalar (R81, R86, R125).
-/
namespace Sys2Proof.Proofs
open Sys2Proof Sys2Proof.Machine Sys2Proof.Laws

/-! ### Changes of the stream, of the tokens and of the core -/

theorem str_wake (c : Core) (m : Stm) : c.wake.str m = (c.str m).wake := by cases m <;> rfl
@[simp] theorem orFlags_zero (s : State) (f : Stream → Stream) : (s.modSt f).orFlags 0 = s.modSt f := by simp [State.orFlags]

section
variable {α : Type} (s : State)

/-- A part of the core that is none of its registers stays as the stream changes. -/
theorem field_modSt (g : Core → α) (f : Stream → Stream) (hg : ∀ c r, g { c with r := r } = g c := by exact fun _ _ => rfl) :
    g (s.modSt f).me = g s.me := by
  rw [modSt_eq, setSt_eq, me_modMe]
  exact hg _ _
theorem field_setToks (g : Core → α) (t : Tokens) (hg : ∀ c r, g { c with r := r } = g c := by exact fun _ _ => rfl) :
    g (s.setToks t).me = g s.me := by
  rw [State.setToks, State.modRegs, me_modMe, hg]
/-- Registers of the core that are none of a stream's stay as the stream changes. -/
theorem regs_modSt (g : Regs → α) (f : Stream → Stream)
    (hg : ∀ r m x, g (r.setStr m x) = g r := by exact fun _ m _ => by cases m <;> rfl) :
    g (s.modSt f).me.r = g s.me.r := by
  rw [modSt_eq, setSt_eq, me_modMe]
  exact hg _ _ _
theorem regs_setToks (g : Regs → α) (t : Tokens) (hg : ∀ r t, g { r with tok := t } = g r := by exact fun _ _ => rfl) :
    g (s.setToks t).me.r = g s.me.r := by
  rw [State.setToks, State.modRegs, me_modMe, hg]

/-! ### Tokens taken (R86) -/

theorem field_takes (h : Head) (g : Core → α) (hg : ∀ c r, g { c with r := r } = g c := by exact fun _ _ => rfl) :
    g (s.takes h).me = g s.me := by
  rw [takes_eq]
  split
  · rw [orderReads_eq, field_modSt _ g _ hg, field_setToks _ g _ hg]
  · rw [field_setToks _ g _ hg]
theorem regs_takes (h : Head) (g : Regs → α) (hs : ∀ r m x, g (r.setStr m x) = g r := by exact fun _ m _ => by cases m <;> rfl)
    (ht : ∀ r t, g { r with tok := t } = g r := by exact fun _ _ => rfl) :
    g (s.takes h).me.r = g s.me.r := by
  rw [takes_eq]
  split
  · rw [orderReads_eq, regs_modSt _ g _ hs, regs_setToks _ g _ ht]
  · rw [regs_setToks _ g _ ht]
theorem stream_takes (h : Head) (g : Stream → α) (hg : ∀ x n, g (x.orderReads n) = g x := by exact fun _ _ => rfl) :
    g (s.takes h).st = g s.st := by
  rw [st_takes]
  split
  · exact hg _ _
  · rfl

end

@[simp] theorem ctx_takes (s : State) (h : Head) (c : Nat) : (s.takes h).ctx c = s.ctx c := by rw [takes_eq]; split <;> rfl
@[simp] theorem res_takes (s : State) (h : Head) : (s.takes h).res = s.res := field_takes s h Core.res
@[simp] theorem cx_takes (s : State) (h : Head) : (s.takes h).cx = s.cx := congrArg (fun r : Resident => r.ctx.val) (res_takes s h)
@[simp] theorem pm_takes (s : State) (h : Head) (i : PIx) : (s.takes h).st.pm i = s.st.pm i :=
  stream_takes s h (fun x => x.pm i)
@[simp] theorem pos_takes (s : State) (h : Head) : (s.takes h).st.pos = s.st.pos := stream_takes s h (·.pos)
@[simp] theorem s_takes (s : State) (h : Head) : (s.takes h).st.s = s.st.s := stream_takes s h (·.s)
@[simp] theorem tflags_takes (s : State) (h : Head) : (s.takes h).st.tflags = s.st.tflags :=
  stream_takes s h (·.tflags)
@[simp] theorem f32_takes (s : State) (h : Head) (i : SIx) : (s.takes h).f32 i = s.f32 i := by rw [State.f32, State.f32, sr_takes]
@[simp] theorem sq_takes (s : State) (h : Head) (q : Nat) : (s.takes h).sq q = s.sq q :=
  regs_takes s h (fun r => r.qs[Fin.ofNat 4 q])

/-! ### A form left (R81, R86) -/

theorem leaves_eq (s : State) (h : Head) :
    s.leaves h = (if h.pn || h.pp then (s.setToks (pushTokens s.toks s.strm h)).orderReads
      else s.setToks (pushTokens s.toks s.strm h)).advance := rfl
theorem st_advance (s : State) : s.advance.st = s.st.advance := by
  change ((s.modSt Stream.advance).modMe Core.wake).me.str s.strm = _
  rw [me_modMe, str_wake]
  change (s.modSt Stream.advance).st.wake = _
  rw [st_modSt, wake_of_run rfl]
theorem st_leaves (s : State) (h : Head) :
    (s.leaves h).st = (if h.pn || h.pp then s.st.orderReads s.wseq else s.st).advance := by
  rw [leaves_eq, st_advance]
  split
  · rw [st_orderReads, st_setToks, wseq_setToks]
  · rw [st_setToks]

section
variable {α : Type} (s : State) (h : Head)

/-- Of a stream, leaving a form changes its position and what it has begun alone. -/
theorem stream_leaves (g : Stream → α) (ho : ∀ x n, g (x.orderReads n) = g x := by exact fun _ _ => rfl)
    (ha : ∀ x : Stream, g x.advance = g x := by exact fun _ => rfl) :
    g (s.leaves h).st = g s.st := by
  rw [st_leaves, ha]
  split
  · exact ho _ _
  · rfl
/-- Of a core, leaving a form changes its registers and its starvation count alone. -/
theorem field_leaves (g : Core → α) (hg : ∀ c r, g { c with r := r } = g c := by exact fun _ _ => rfl)
    (hn : ∀ c n, g { c with starve := n } = g c := by exact fun _ _ => rfl) :
    g (s.leaves h).me = g s.me := by
  have hw (c : Core) : g c.wake = g c := (hn _ _).trans (hg _ _)
  have ha (t : State) : g t.advance.me = g t.me := by rw [State.advance, me_modMe, hw, field_modSt _ g _ hg]
  rw [leaves_eq, ha]
  split
  · rw [orderReads_eq, field_modSt _ g _ hg, field_setToks _ g _ hg]
  · rw [field_setToks _ g _ hg]

/-- Of a core's registers, those of its streams and its tokens alone. -/
theorem regs_leaves (g : Regs → α) (hs : ∀ r m x, g (r.setStr m x) = g r := by exact fun _ m _ => by cases m <;> rfl)
    (ht : ∀ r t, g { r with tok := t } = g r := by exact fun _ _ => rfl) :
    g (s.leaves h).me.r = g s.me.r := by
  have hw (c : Core) : g c.wake.r = g c.r := ((hs _ .v _).trans (hs _ .a _)).trans (hs c.r .c c.r.c.wake)
  have ha (t : State) : g t.advance.me.r = g t.me.r := by rw [State.advance, me_modMe, hw, regs_modSt _ g _ hs]
  rw [leaves_eq, ha]
  split
  · rw [orderReads_eq, regs_modSt _ g _ hs, regs_setToks _ g _ ht]
  · rw [regs_setToks _ g _ ht]

@[simp] theorem pos_leaves : (s.leaves h).st.pos = { s.st.pos with lane := s.st.pos.lane + 1 } := by
  rw [st_leaves]
  split <;> rfl
@[simp] theorem blk_leaves : (s.leaves h).st.blk = .run := by rw [st_leaves]; rfl
@[simp] theorem opbuf_leaves : (s.leaves h).st.opbuf = [] := by rw [st_leaves]; rfl
@[simp] theorem s_leaves : (s.leaves h).st.s = s.st.s := stream_leaves s h (·.s)
@[simp] theorem sr_leaves (i : SIx) : (s.leaves h).sr i = s.sr i := congrArg (fun v => v[i]) (s_leaves s h)
@[simp] theorem tflags_leaves : (s.leaves h).st.tflags = s.st.tflags := stream_leaves s h (·.tflags)
@[simp] theorem pm_leaves (i : PIx) : (s.leaves h).st.pm i = s.st.pm i :=
  stream_leaves s h (fun x => x.pm i)
@[simp] theorem mem_leaves : (s.leaves h).mem = s.mem := by rw [leaves_eq]; split <;> rfl
@[simp] theorem cur_leaves : (s.leaves h).cur = s.cur := by rw [leaves_eq]; split <;> rfl
@[simp] theorem ctx_leaves (c : Nat) : (s.leaves h).ctx c = s.ctx c := by rw [leaves_eq]; split <;> rfl

end

/-! ### Effects that leave a form's tokens and answers alone -/

/-- What the end of a form rests on is the same: the tokens, the stream, the answers that it waits for. -/
structure KeepsHead (s t : State) : Prop where
  toks : t.toks = s.toks
  strm : t.strm = s.strm
  await : t.st.await = s.st.await

namespace KeepsHead
variable {s t u : State}

theorem refl (s : State) : KeepsHead s s := ⟨rfl, rfl, rfl⟩
theorem trans (h : KeepsHead s t) (g : KeepsHead t u) : KeepsHead s u :=
  ⟨g.toks.trans h.toks, g.strm.trans h.strm, g.await.trans h.await⟩
theorem modSt (s : State) {f : Stream → Stream} (hf : ∀ x, (f x).await = x.await := by exact fun _ => rfl) :
    KeepsHead s (s.modSt f) := ⟨toks_modSt .., rfl, by rw [st_modSt, hf]⟩
theorem modMe (s : State) {f : Core → Core} (ht : ∀ c, (f c).r.tok = c.r.tok := by exact fun _ => rfl)
    (hs : ∀ c m, (f c).str m = c.str m := by exact fun _ m => by cases m <;> rfl) : KeepsHead s (s.modMe f) := by
  refine ⟨?_, rfl, ?_⟩
  · rw [State.toks, me_modMe, ht]
    rfl
  · change ((s.modMe f).me.str s.strm).await = _
    rw [me_modMe, hs]
    rfl
theorem modRegs (s : State) {f : Regs → Regs} (ht : ∀ r, (f r).tok = r.tok := by exact fun _ => rfl)
    (hs : ∀ r m, (f r).str m = r.str m := by exact fun _ m => by cases m <;> rfl) : KeepsHead s (s.modRegs f) :=
  modMe s (fun c => ht c.r) fun c m => hs c.r m
/-- After a change of no core. -/
theorem of_cores (hc : t.cores = s.cores) (hk : t.cur = s.cur) (hm : t.strm = s.strm) : KeepsHead s t := by
  have hme : t.me = s.me := by rw [State.me, State.me, hk, State.core, State.core, hc]
  exact ⟨by rw [State.toks, State.toks, hme], hm, by rw [State.st, State.st, hme, hm]⟩
theorem setS (s : State) (d : SIx) (v : Word) : KeepsHead s (s.setS d v) := modSt s
theorem orderReads (s : State) : KeepsHead s s.orderReads := modSt s

end KeepsHead

/-! ### Completion (R81, R86) -/

section
variable {s : State} {h : Head}

/-- Nothing holds a form back, whatever its guard: it has not begun to issue, its tokens are there and have room where they go, and
it waits for no answer. -/
structure Ready (s : State) (h : Head) : Prop where
  acted : s.st.acted = false
  popped : s.st.popped = false
  pops : canPop s.toks s.strm h = true
  pushes : canPush (popTokens s.toks s.strm h) s.strm h = true
  answered : s.unanswered h = false

theorem guardB_of_canIssue (hr : s.canIssue h) : s.guardB h.g = true :=
  let ⟨_, _, _, _, hg, _⟩ := hr
  hg
theorem guardB_of_canPass (hr : s.canPass h) : s.guardB h.g = false :=
  let ⟨_, _, _, _, hg, _⟩ := hr
  hg
theorem Ready.of_canIssue (hr : s.canIssue h) : Ready s h :=
  let ⟨ha, hp, hpop, hpush, _, hu⟩ := hr
  ⟨ha, hp, hpop, hpush, hu⟩
theorem Ready.of_canPass (hr : s.canPass h) : Ready s h :=
  let ⟨ha, hp, hpop, hpush, _, hu⟩ := hr
  ⟨ha, hp, hpop, hpush, hu⟩
theorem Ready.of_canIssueV (hr : s.canIssueV h) : Ready s h :=
  let ⟨ha, hp, hpop, hpush, _, hu⟩ := hr
  ⟨ha, hp, hpop, hpush, hu⟩

/-- A ready form whose effects are done and keep what its end rests on completes. -/
theorem Ready.issueG {eff : Bool → State → Res} {u : State} (hr : Ready s h) (he : eff (s.guardB h.g) (s.takes h) = .done u)
    (hk : KeepsHead (s.takes h) u) : s.issueG h eff = u.leaves h := by
  have hg : eff ((s.popFor h).guardB h.g) (s.popFor h) = .done u := (congrArg (eff · _) (guardB_takes s h h.g)).trans he
  have hu : u.unanswered h = false := by rw [State.unanswered, hk.await, await_takes]; exact hr.answered
  have hpush : canPush u.toks u.strm h = true := by rw [hk.toks, hk.strm, toks_takes, strm_takes]; exact hr.pushes
  simp only [State.issueG, hr.acted, hr.popped, hr.pops, Bool.false_eq_true, if_false, Bool.not_true, Bool.and_false, hg,
    State.finish, hu, hpush, if_true, State.leaves]
/-- A ready form whose guard holds. -/
theorem issue_completes {eff : State → Res} {u : State} (hr : s.canIssue h) (he : eff (s.takes h) = .done u)
    (hk : KeepsHead (s.takes h) u) : s.issue h eff = u.leaves h :=
  (Ready.of_canIssue hr).issueG ((if_pos (guardB_of_canIssue hr)).trans he) hk
theorem issue1_completes {eff : State → State} (hr : s.canIssue h) (hk : KeepsHead (s.takes h) (eff (s.takes h))) :
    s.issue1 h eff = (eff (s.takes h)).leaves h := issue_completes hr rfl hk

/-- A form that writes a scalar and flags once its tokens are taken gives them. -/
theorem issue_gives {eff : State → Res} {d : SIx} {v : Word} {f : Nat} (hr : s.canIssue h)
    (he : eff (s.takes h) = .done (((s.takes h).setS d v).orFlags (BitVec.ofNat 8 f))) : s.issue h eff = s.gives h d v f :=
  issue_completes hr he ((KeepsHead.setS ..).trans (.modSt _))
theorem issue1_gives {eff : State → State} {d : SIx} {v : Word} {f : Nat} (hr : s.canIssue h)
    (he : eff (s.takes h) = ((s.takes h).setS d v).orFlags (BitVec.ofNat 8 f)) : s.issue1 h eff = s.gives h d v f :=
  issue_gives hr (congrArg _ he)
/-- The same without flags. -/
theorem issue_writes {eff : State → Res} {d : SIx} {v : Word} (hr : s.canIssue h)
    (he : eff (s.takes h) = .done ((s.takes h).setS d v)) : s.issue h eff = s.gives h d v 0 :=
  issue_gives hr (he.trans (congrArg _ (orFlags_zero_setS ..).symm))
theorem issue1_writes {eff : State → State} {d : SIx} {v : Word} (hr : s.canIssue h)
    (he : eff (s.takes h) = (s.takes h).setS d v) : s.issue1 h eff = s.gives h d v 0 := issue_writes hr (congrArg _ he)

end

end Sys2Proof.Proofs
end

section
/-!
PROOFS. The integer register and immediate forms, settled (R141, R142).
-/
namespace Sys2Proof.Proofs
open Sys2Proof Sys2Proof.Machine Sys2Proof.Laws

section
variable {s : State} {h : Head} {op : Nat → Nat → Nat → Nat × Nat} {f : (n : Nat) → BitVec n → BitVec n → BitVec n}
  {g : (n : Nat) → BitVec n → BitVec n → Nat}

/-- A register form of an operation on bit vectors. -/
theorem issue1_aluForm (hr : s.canIssue h) (hc : Computes op f g) (d a b : SIx) (w : Bool) :
    s.issue1 h (aluForm op d a b w) = s.gives h d (atWidth w f (s.sr a) (s.sr b)) (flagsAt w g (s.sr a) (s.sr b)) := by
  obtain ⟨hval, hfl⟩ := hc.atWidth w (s.sr a) (s.sr b)
  refine issue1_gives hr ?_
  simp only [aluForm, sr_takes]
  rw [hval, hfl]
/-- An immediate form of one, its second operand the immediate as a word. -/
theorem issue1_aluImm {op : Nat → Nat → Nat → Nat} (hr : s.canIssue h) (hc : Computes (plain op) f g) (d a : SIx) (y : Word) :
    s.issue1 h (aluImm op d a y.toNat) = s.gives h d (f 64 (s.sr a) y) 0 := by
  refine issue1_writes hr ?_
  rw [aluImm, sr_takes, ← hc.word]
  rfl

end

/-- Settles O1: each form by what its operation computes at its width. -/
theorem integerRegisterFormsComplete : Obligations.IntegerRegisterFormsComplete := by
  unfold Obligations.IntegerRegisterFormsComplete
  intro s h d a b w hr r n0
  have completes {op : Nat → Nat → Nat → Nat × Nat} {f : (n : Nat) → BitVec n → BitVec n → BitVec n}
      {g : (n : Nat) → BitVec n → BitVec n → Nat} (hc : Computes op f g) : .next (s.issue1 h (aluForm op d a b w)) = r f g :=
    congrArg _ (issue1_aluForm hr hc d a b w)
  exact ⟨completes computes_add, completes computes_sub, completes computes_mul, completes computes_mulh, completes computes_mulhn,
    completes computes_div, completes computes_divn, completes computes_rem, completes computes_remn, completes computes_and,
    completes computes_or, completes computes_xor, completes computes_shl, completes computes_shr, completes computes_sar,
    completes computes_rotl⟩

/-- Settles O2: each form is its register counterpart at width 64, of the immediate as a word. -/
theorem integerImmediateFormsComplete : Obligations.IntegerImmediateFormsComplete := by
  unfold Obligations.IntegerImmediateFormsComplete
  intro s h d a i hr r x
  have signed {op : Nat → Nat → Nat → Nat} {f : (n : Nat) → BitVec n → BitVec n → BitVec n} (hc : Computes (plain op) f noFlags) :
      .next (s.issue1 h (aluImm op d a (imm6s i))) = r (f 64 x (i.signExtend 64)) :=
    congrArg _ (issue1_aluImm hr hc d a _)
  have unsigned {op : Nat → Nat → Nat → Nat} {f : (n : Nat) → BitVec n → BitVec n → BitVec n} (k : Word → Nat → Word)
      (hc : Computes (plain op) f noFlags) (hf : ∀ y, f 64 x y = k x (y.toNat % 64)) :
      .next (s.issue1 h (aluImm op d a i.toNat)) = r (k x i.toNat) := by
    have hi : (i.setWidth 64).toNat = i.toNat := BitVec.toNat_setWidth_of_le (by decide)
    have := issue1_aluImm hr hc d a (i.setWidth 64)
    rw [hi, hf, hi, Nat.mod_eq_of_lt i.isLt] at this
    exact congrArg _ this
  exact ⟨(signed computes_add :), (signed computes_mul :), (signed computes_and :), (signed computes_or :), (signed computes_xor :),
    (unsigned (fun x n => x <<< n) computes_shl fun _ => rfl :), (unsigned (fun x n => x >>> n) computes_shr fun _ => rfl :),
    (unsigned BitVec.sshiftRight computes_sar fun _ => rfl :), (unsigned BitVec.rotateLeft computes_rotl fun _ => rfl :)⟩

end Sys2Proof.Proofs
end

section
/-!
PROOFS. The move forms, choices, counts and bit fields, bit by bit, settled (R141, R143 to R145).
-/
namespace Sys2Proof.Proofs
open Sys2Proof Sys2Proof.Machine Sys2Proof.Laws

/-! ### Bits of the numbers that the forms compute -/

theorem getLsbD_w64 (n : Nat) {k : Nat} (hk : k < 64) : (w64 n).getLsbD k = n.testBit k := by
  rw [w64, getLsbD_ofNat_eq_bit n hk, bit_eq_testBit]
theorem testBit_bits (w hi lo k : Nat) : (bits w hi lo).testBit k = (decide (k < hi + 1 - lo) && w.testBit (lo + k)) := by
  rw [bits, Nat.testBit_mod_two_pow, Nat.testBit_div_two_pow, Nat.add_comm k]
/-- A field written holds the low bits of the value; the bits around it stay. -/
theorem testBit_putBits {w hi lo : Nat} (v k : Nat) (h : lo ≤ hi + 1) :
    (putBits w hi lo v).testBit k = if lo ≤ k ∧ k < hi + 1 then v.testBit (k - lo) else w.testBit k := by
  rw [putBits_eq h, Nat.mul_comm (w / _), Nat.testBit_two_pow_mul_add _ (putBits_below_lt h), Nat.mul_comm (v % _),
    Nat.testBit_two_pow_mul_add _ (Nat.mod_lt _ (Nat.two_pow_pos _)), Nat.testBit_mod_two_pow, Nat.testBit_mod_two_pow,
    Nat.testBit_div_two_pow]
  by_cases hk : k < hi + 1
  · by_cases hl : k < lo
    · rw [if_pos hk, if_pos hl, if_neg (by omega), decide_eq_true hl, Bool.true_and]
    · rw [if_pos hk, if_neg hl, if_pos ⟨by omega, hk⟩, decide_eq_true (by omega), Bool.true_and]
  · rw [if_neg hk, if_neg (by omega), Nat.sub_add_cancel (by omega)]

theorem lt_two_pow_bitLen (n : Nat) : n < 2 ^ bitLen n := by
  unfold bitLen
  split
  · omega
  · exact Nat.lt_log2_self
theorem testBit_bitLen_pred {n : Nat} (h : n ≠ 0) : n.testBit (bitLen n - 1) = true := by
  rw [bitLen, if_neg h]
  exact Nat.testBit_log2 h
theorem bitLen_le {n m : Nat} (h : n < 2 ^ m) : bitLen n ≤ m := by
  unfold bitLen
  split
  · exact Nat.zero_le _
  · exact (Nat.log2_lt ‹_›).2 h

/-- Trailing zeros: bits below the count are clear, and the bit at the count is set while it lies inside the width. -/
theorem ctzN_spec (m w : Nat) : ctzN m w ≤ m ∧ (∀ k, k < ctzN m w → w.testBit k = false) ∧
    (ctzN m w < m → w.testBit (ctzN m w) = true) := by
  induction m generalizing w with
  | zero => exact ⟨Nat.le_refl _, fun k hk => absurd hk (Nat.not_lt_zero k), fun h => absurd h (Nat.lt_irrefl 0)⟩
  | succ m ih =>
    obtain ⟨hle, hclear, hset⟩ := ih (w / 2)
    unfold ctzN
    split
    case isTrue hw => exact ⟨Nat.zero_le _, fun k hk => absurd hk (Nat.not_lt_zero k), fun _ => by simp [Nat.testBit_zero, hw]⟩
    case isFalse hw =>
      refine ⟨Nat.succ_le_succ hle, fun k hk => ?_, fun h => ?_⟩
      · cases k with
        | zero => simp [Nat.testBit_zero, hw]
        | succ k => rw [Nat.testBit_succ]; exact hclear k (Nat.lt_of_succ_lt_succ hk)
      · rw [Nat.testBit_succ]
        exact hset (Nat.lt_of_succ_lt_succ h)

/-- A count of one bits is the number of places that hold one. -/
theorem popc_eq_length_filter (m w : Nat) : popc m w = ((List.range m).filter fun k => w.testBit k).length := by
  induction m generalizing w with
  | zero => rfl
  | succ m ih =>
    have htail : ((List.range m).map Nat.succ).filter (fun k => w.testBit k) =
        ((List.range m).filter fun k => (w / 2).testBit k).map Nat.succ := by
      rw [List.filter_map]
      refine congrArg _ (List.filter_congr fun k _ => ?_)
      exact Nat.testBit_succ ..
    rw [popc, ih, List.range_succ_eq_map, List.filter_cons, htail, Nat.testBit_zero]
    rcases Nat.mod_two_eq_zero_or_one w with hw | hw <;> simp [hw, Nat.add_comm]
theorem popc_le (m w : Nat) : popc m w ≤ m := by
  rw [popc_eq_length_filter]
  exact (List.length_filter_le ..).trans_eq List.length_range

/-- A field moved down to bit 0, zeros or copies of its top bit above it. -/
theorem getLsbD_field (sg : Bool) (x p : Nat) {len k : Nat} (hl : 0 < len) (hk : k < 64) :
    (w64 (if sg then wrap 64 (sgn len (bits x (p + len - 1) p)) else bits x (p + len - 1) p)).getLsbD k =
      if k < len then x.testBit (p + k) else sg && x.testBit (p + len - 1) := by
  have hlen : p + len - 1 + 1 - p = len := by omega
  cases sg with
  | false =>
    rw [if_neg (by decide), getLsbD_w64 _ hk, testBit_bits, hlen]
    by_cases h : k < len <;> simp [h]
  | true =>
    have hbit (j : Nat) (hj : j < len) : (BitVec.ofNat len (bits x (p + len - 1) p)).getLsbD j = x.testBit (p + j) := by
      rw [getLsbD_ofNat_eq_bit _ hj, bit_eq_testBit, testBit_bits, hlen, decide_eq_true hj, Bool.true_and]
    rw [if_pos rfl, w64_wrap_sgn, BitVec.getLsbD_signExtend, decide_eq_true hk, Bool.true_and, Bool.true_and,
      BitVec.msb_eq_getLsbD_last, hbit (len - 1) (by omega), show p + (len - 1) = p + len - 1 by omega]
    exact ite_congr rfl (hbit k) fun _ => rfl

/-! ### The smaller and the larger of two operands (R141) -/

section
variable {α : Type} [LinearOrder α] {x y : Word} {m n : α}

theorem pick_min (hxy : m = n → x = y) : (if (decide (m < n) != false) = true then x else y) = if m ≤ n then x else y := by
  rcases lt_trichotomy m n with h | h | h
  · simp [h, h.le]
  · simp [h, hxy h]
  · simp [h.le, h.not_ge]
theorem pick_max (hxy : m = n → x = y) : (if (decide (m < n) != true) = true then x else y) = if m ≤ n then y else x := by
  rcases lt_trichotomy m n with h | h | h
  · simp [h, h.le]
  · simp [h, hxy h]
  · simp [h.le, h.not_ge]

end

section
variable {s : State} {h : Head}

/-- A form of one operand. -/
theorem issue1_unary (hr : s.canIssue h) (f : Nat → Nat) (d a : SIx) :
    s.issue1 h (unary f d a) = s.gives h d (w64 (f (s.sr a).toNat)) 0 :=
  issue1_writes hr (by rw [unary, sr_takes])
/-- A form that picks one of two operands. -/
theorem issue1_pickForm (hr : s.canIssue h) (mx sg : Bool) (d a b : SIx) : s.issue1 h (pickForm mx sg d a b) =
    s.gives h d (if ((if sg then (s.sr a).slt (s.sr b) else (s.sr a).ult (s.sr b)) != mx) = true then s.sr a else s.sr b) 0 :=
  issue1_writes hr (by simp only [pickForm, sr_takes])

end

theorem fieldLen_pos (n : BitVec 6) : 0 < fieldLen n := by
  unfold fieldLen
  split
  · decide
  · exact Nat.pos_of_ne_zero (mt toNat_eq_zero_iff.1 ‹_›)

/-- Settles O3: the forms one by one; a bit field, or a count, by the bits of its number. -/
theorem moveAndBitFieldFormsComplete : Obligations.MoveAndBitFieldFormsComplete := by
  unfold Obligations.MoveAndBitFieldFormsComplete
  refine ⟨fun s h d a b i l q hr => ?_, fun s h d a n p l sg c hr hn => ?_⟩
  · intro r x y
    have picks (mx sg : Bool) {v : Word}
        (hv : (if ((if sg then x.slt y else x.ult y) != mx) = true then x else y) = v) :
        .next (s.issue1 h (pickForm mx sg d a b)) = r v := hv ▸ congrArg _ (issue1_pickForm hr mx sg d a b)
    have writes (v : Word) : .next (s.issue1 h fun t => t.setS d v) = r v := congrArg _ (issue1_writes hr rfl)
    refine ⟨?_, writes _, writes _, writes _, ?_, ?_, ?_, ?_, ?_⟩
    · exact (congrArg _ (issue1_unary hr id d a)).trans (congrArg r (w64_toNat x))
    · exact (congrArg _ (issue1_aluImm hr computes_add d a (l.signExtend 64)) :)
    · exact picks false true (pick_min BitVec.eq_of_toInt_eq)
    · exact picks true true (pick_max BitVec.eq_of_toInt_eq)
    · exact picks false false (pick_min BitVec.eq_of_toNat_eq)
    · exact picks true false (pick_max BitVec.eq_of_toNat_eq)
  · intro len hlen x
    have hpos : 0 < len := fieldLen_pos l
    have hx : x.toNat < 2 ^ 64 := x.isLt
    have computes (f : Nat → Nat) : (.next (s.issue1 h (unary f d a)) : Out) = .next (s.gives h d (w64 (f x.toNat)) 0) :=
      congrArg _ (issue1_unary hr f d a)
    refine ⟨⟨_, computes _, ?_⟩, ⟨_, computes _, ?_⟩, ⟨_, computes _, ?_⟩, ⟨_, computes _, ?_, fun k hk => ?_⟩,
      ⟨_, computes _, fun k hk => getLsbD_field sg x.toNat p.toNat hpos hk⟩, ⟨_, congrArg _ (issue1_writes hr rfl), fun k hk => ?_⟩,
      congrArg _ (issue1_completes hr (.modSt _))⟩
    · have hle := bitLen_le hx
      rw [toNat_w64 (by omega)]
      refine ⟨by omega, fun k hk => Nat.testBit_lt_two_pow ?_, fun hlt => ?_⟩
      · exact (lt_two_pow_bitLen x.toNat).trans_le (Nat.pow_le_pow_right (by decide) (by omega))
      · have hne : x.toNat ≠ 0 := fun h0 => by simp [h0, bitLen] at hlt
        rw [show 63 - (64 - bitLen x.toNat) = bitLen x.toNat - 1 by omega]
        exact testBit_bitLen_pred hne
    · obtain ⟨hle, hclear, hset⟩ := ctzN_spec 64 x.toNat
      rw [toNat_w64 (by omega)]
      exact ⟨hle, hclear, hset⟩
    · rw [toNat_w64 ((popc_le 64 _).trans_lt (by decide)), popc_eq_length_filter]
      rfl
    · rw [toNat_w64 (putBits_lt (by decide) (by decide) hx), putBits]
      simp only [bits]
      omega
    · rw [getLsbD_w64 _ (by omega), testBit_putBits _ _ (by decide), if_neg (by omega)]
      rfl
    · have hfield : p.toNat + fieldLen l - 1 + 1 = p.toNat + len := Nat.sub_add_cancel (hpos.trans_le (Nat.le_add_left ..))
      simp only [sr_takes]
      rw [getLsbD_w64 _ hk, testBit_putBits _ _ ((Nat.le_add_right ..).trans hfield.ge), hfield]
      rfl

end Sys2Proof.Proofs
end

section
/-!
PROOFS. Compares and predicate logic, settled (R135, R146 to R148, R151).
-/
namespace Sys2Proof.Proofs
open Sys2Proof Sys2Proof.Machine Sys2Proof.Laws

/-! ### Writes of predicates (R135) -/

section
variable (x : Stream) {i j : PIx} (v : Word)

@[simp] theorem setP_s : (x.setP i v).s = x.s := by unfold Stream.setP; split <;> rfl
@[simp] theorem setP_await : (x.setP i v).await = x.await := by unfold Stream.setP; split <;> rfl
@[simp] theorem setP_tflags : (x.setP i v).tflags = x.tflags := by unfold Stream.setP; split <;> rfl
@[simp] theorem setP_pos : (x.setP i v).pos = x.pos := by unfold Stream.setP; split <;> rfl
theorem pm_setP_ne (h : j ≠ i) : (x.setP i v).pm j = x.pm j := by
  have hv : ¬ (i : Nat) = j := fun e => h (Fin.ext e.symm)
  unfold Stream.setP Stream.pm
  by_cases hi : i = 0 <;> simp [hi, hv]
/-- A predicate written with what it holds stays. -/
theorem pm_setP_same (hv : v = x.pm i) : (x.setP i v).pm j = x.pm j := by
  by_cases h : j = i
  · subst h
    by_cases hj : j = 0
    · rw [hj, setP_zero]
    · rw [pm_setP_self _ _ hj, hv]
  · exact pm_setP_ne x v h

/-- Two of them. -/
theorem pm_setP_setP_same {w : Word} (hv : v = x.pm i) (hw : w = x.pm j) (q : PIx) : ((x.setP i v).setP j w).pm q = x.pm q := by
  rw [pm_setP_same _ _ (hw.trans (pm_setP_same x v hv).symm), pm_setP_same x v hv]

end

@[simp] theorem getLsbD_maskOf (b : Bool) {k : Nat} (hk : k < 64) : (maskOf b).getLsbD k = b := by
  cases b
  · exact BitVec.getLsbD_zero
  · exact (BitVec.getLsbD_allOnes ..).trans (decide_eq_true hk)

/-! ### The table of combining types (R147) -/

section
variable (ct : CT) (g r d e : Word) {k : Nat} (hk : k < 64)
include hk

theorem getLsbD_combine_fst : (combine ct g r d e).1.getLsbD k = combinedD ct (g.getLsbD k) (r.getLsbD k) (d.getLsbD k) := by
  cases ct <;> simp only [combine, combinedD, BitVec.getLsbD_and, BitVec.getLsbD_or, BitVec.getLsbD_not, hk, decide_true, Bool.true_and] <;>
    cases g.getLsbD k <;> simp
theorem getLsbD_combine_snd : (combine ct g r d e).2.getLsbD k = combinedE ct (g.getLsbD k) (r.getLsbD k) (e.getLsbD k) := by
  cases ct <;> simp only [combine, combinedE, BitVec.getLsbD_and, BitVec.getLsbD_or, BitVec.getLsbD_not, hk, decide_true, Bool.true_and] <;>
    cases g.getLsbD k <;> simp

end

/-- Under a guard that holds nowhere, .unc clears both destinations. -/
theorem combine_unc_zero (r d e : Word) : combine .unc 0 r d e = (0, 0) := by simp [combine]
/-- Under one, every other type leaves them. -/
theorem combine_zero {ct : CT} (hct : ct ≠ .unc) (r d e : Word) : combine ct 0 r d e = (d, e) := by
  have hz (k : Nat) : (0 : Word).getLsbD k = false := BitVec.getLsbD_zero
  refine Prod.ext (BitVec.eq_of_getLsbD_eq fun k hk => ?_) (BitVec.eq_of_getLsbD_eq fun k hk => ?_)
  · rw [getLsbD_combine_fst _ _ _ _ _ hk, hz]
    cases ct with
    | unc => exact absurd rfl hct
    | _ => rfl
  · rw [getLsbD_combine_snd _ _ _ _ _ hk, hz]
    cases ct with
    | unc => exact absurd rfl hct
    | _ => rfl

section
variable (s : State) (ct : CT) (g r : Word) {pd pe : PIx}

theorem st_setCmp : (s.setCmp ct g r pd pe).st =
    (s.st.setP pd (combine ct g r (s.st.pm pd) (s.st.pm pe)).1).setP pe (combine ct g r (s.st.pm pd) (s.st.pm pe)).2 :=
  st_modSt ..
theorem pm_setCmp_fst (hd : pd ≠ 0) (hne : pd = pe → pd = 0) :
    (s.setCmp ct g r pd pe).st.pm pd = (combine ct g r (s.st.pm pd) (s.st.pm pe)).1 := by
  rw [st_setCmp, pm_setP_ne _ _ (mt hne hd), pm_setP_self _ _ hd]
theorem pm_setCmp_snd (he : pe ≠ 0) : (s.setCmp ct g r pd pe).st.pm pe = (combine ct g r (s.st.pm pd) (s.st.pm pe)).2 := by
  rw [st_setCmp, pm_setP_self _ _ he]
theorem pm_setCmp_ne {q : PIx} (hd : q ≠ pd) (he : q ≠ pe) : (s.setCmp ct g r pd pe).st.pm q = s.st.pm q := by
  rw [st_setCmp, pm_setP_ne _ _ he, pm_setP_ne _ _ hd]
theorem keepsHead_setCmp : KeepsHead s (s.setCmp ct g r pd pe) := .modSt s fun x => by simp

end

/-- Settles O5: each destination by its own column of the table. -/
theorem combiningTypesAsTabled : Obligations.CombiningTypesAsTabled := by
  unfold Obligations.CombiningTypesAsTabled
  intro s ct g r pd pe k hne t od oe gk rk
  refine ⟨fun hd => ?_, fun he => ?_, fun q => pm_setCmp_ne s ct g r, pm_zero _⟩
  · rw [pm_setCmp_fst s ct g r hd hne]
    exact getLsbD_combine_fst ct g r _ _ k.isLt
  · rw [pm_setCmp_snd s ct g r he]
    exact getLsbD_combine_snd ct g r _ _ k.isLt

/-! ### Scalar compares (R146, R151) -/

section
variable {s : State} {h : Head} {ct : CT} {pd pe : PIx} {r : State → Bool × Nat}

theorem cmpForm_completes {v : Bool} {f : Nat} (hr : s.canIssue h) (hv : r (s.takes h) = (v, f)) : s.cmpForm h ct pd pe r =
    (((s.takes h).setCmp ct (maskOf true) (maskOf v) pd pe).orFlags (BitVec.ofNat 8 f)).leaves h := by
  exact (Ready.of_canIssue hr).issueG (by rw [guardB_of_canIssue hr, hv]; rfl) ((keepsHead_setCmp ..).trans (.modSt _))
/-- Under a false guard a compare still writes as its combining type has it, and sets no flag. -/
theorem cmpForm_passes (hr : s.canPass h) :
    s.cmpForm h ct pd pe r = ((s.takes h).setCmp ct 0 (maskOf (r (s.takes h)).1) pd pe).leaves h := by
  exact (Ready.of_canPass hr).issueG (by rw [guardB_of_canPass hr]; exact congrArg Res.done (orFlags_zero ..)) (keepsHead_setCmp ..)

end

/-- An integer compare by its code (R98). -/
theorem ccInt_word (cc : CC) (x y : Word) : ccInt cc 64 x.toNat y.toNat = match cc with
    | .eq => x == y | .ne => x != y
    | .lt => decide (x.toInt < y.toInt) | .ge => decide (y.toInt ≤ x.toInt)
    | .le => decide (x.toInt ≤ y.toInt) | .gt => decide (y.toInt < x.toInt)
    | .ltn => decide (x.toNat < y.toNat) | .gen => decide (y.toNat ≤ x.toNat)
    | .len => decide (x.toNat ≤ y.toNat) | .gtn => decide (y.toNat < x.toNat) := by
  have heq : (x.toNat == y.toNat) = (x == y) := by rw [Bool.eq_iff_iff, beq_iff_eq, beq_iff_eq, BitVec.toNat_inj]
  cases cc <;> simp only [ccInt, sgn_toNat, heq, bne]

/-- Settles O4: each form by the relation that it combines under its type. -/
theorem comparesComplete : Obligations.ComparesComplete := by
  unfold Obligations.ComparesComplete
  intro s h pd pe ct cc a b i n hr rel out x y
  have compares {r : State → Bool × Nat} {v : Bool} {f : Nat} (hv : r (s.takes h) = (v, f)) :
      .next (s.cmpForm h ct pd pe r) = out v f := congrArg Host.Outcome.next (cmpForm_completes hr hv)
  have hrel (x y : Word) : ccInt cc 64 x.toNat y.toNat = rel x y :=
    (ccInt_word cc x y).trans (by cases cc <;> rfl)
  refine ⟨compares ?_, compares ?_, compares ?_, compares ?_, compares ?_⟩
  · rw [State.rhs, sr_takes, sr_takes, hrel]
  · rw [State.rhs, sr_takes, hrel]
  · rw [sr_takes]
    exact congrArg (·, 0) (beq_true _)
  · rw [sr_takes]
    exact congrArg (·, 0) (beq_false _)
  · rw [f32_takes, f32_takes]
    rfl

/-! ### Predicate logic (R148) -/

/-- What a stream holds is all that decides a change of it. -/
theorem modSt_congr {s : State} {f g : Stream → Stream} (h : f s.st = g s.st) : s.modSt f = s.modSt g := by
  rw [modSt_eq, modSt_eq, h]
/-- The number with bit k, for the n places from lo up, as a truth value names it. -/
theorem testBit_foldl_bits (b : Nat → Bool) (n : Nat) {lo m : Nat} (hm : m < 2 ^ lo) (k : Nat) :
    ((upto lo n).foldl (fun w j => w + b2n (b j) * 2 ^ j) m).testBit k =
      if k < lo then m.testBit k else decide (k < lo + n) && b k := by
  induction n generalizing lo m with
  | zero =>
    change m.testBit k = _
    split
    · rfl
    · have hk : 2 ^ lo ≤ 2 ^ k := Nat.pow_le_pow_right (by decide) (by omega)
      rw [Nat.testBit_lt_two_pow (hm.trans_le hk), decide_eq_false (by omega), Bool.false_and]
  | succ n ih =>
    have hlt : m + b2n (b lo) * 2 ^ lo < 2 ^ (lo + 1) := by
      rw [Nat.pow_succ]
      cases b lo <;> simp only [b2n, Bool.false_eq_true, if_false, if_true] <;> omega
    have hbit : (m + b2n (b lo) * 2 ^ lo).testBit k = if k < lo then m.testBit k else (b2n (b lo)).testBit (k - lo) := by
      rw [Nat.add_comm, Nat.mul_comm]
      exact Nat.testBit_two_pow_mul_add _ hm _
    change ((upto (lo + 1) n).foldl _ (m + b2n (b lo) * 2 ^ lo)).testBit k = _
    rw [ih hlt, hbit]
    rcases Nat.lt_trichotomy k lo with hk | hk | hk
    · rw [if_pos (by omega), if_pos hk, if_pos hk]
    · subst hk
      rw [if_pos (Nat.lt_succ_self k), if_neg (Nat.lt_irrefl k), if_neg (Nat.lt_irrefl k), Nat.sub_self, decide_eq_true (by omega)]
      cases b k <;> rfl
    · rw [if_neg (by omega), if_neg (by omega), Nat.add_right_comm, Nat.add_assoc]

/-- Predicates written in turn: each holds its own mask, and the others stay. -/
theorem pm_foldl_setP (g : Nat → Word) {k : PIx} (hk : k ≠ 0) {l : List Nat} (hl : ∀ j ∈ l, j < 8) (x : Stream) :
    (l.foldl (fun y j => y.setP (Fin.ofNat 8 j) (g j)) x).pm k = if k.val ∈ l then g k.val else x.pm k := by
  induction l generalizing x with
  | nil => rfl
  | cons j l ih =>
    have hj : (Fin.ofNat 8 j).val = j := Nat.mod_eq_of_lt (hl j List.mem_cons_self)
    rw [List.foldl_cons, ih fun i hi => hl i (List.mem_cons_of_mem _ hi)]
    by_cases hkj : k.val = j
    · have hkj' : Fin.ofNat 8 j = k := Fin.ext (hj.trans hkj.symm)
      rw [hkj', pm_setP_self _ _ hk, if_pos (List.mem_cons.2 (.inl hkj)), hkj, ite_self]
    · rw [pm_setP_ne _ _ fun e => hkj ((congrArg Fin.val e).trans hj)]
      exact ite_congr (by rw [List.mem_cons, or_iff_right hkj]) (fun _ => rfl) fun _ => rfl
theorem field_foldl_setP {α : Type} (p : Stream → α) (hp : ∀ x i v, p (x.setP i v) = p x) (g : Nat → Word) (l : List Nat) (x : Stream) :
    p (l.foldl (fun y j => y.setP (Fin.ofNat 8 j) (g j)) x) = p x := by
  induction l generalizing x with
  | nil => rfl
  | cons j l ih => rw [List.foldl_cons, ih, hp]

/-- Settles O6: a form of two masks writes theirs combined; PGET and PPUT go bit by bit. -/
theorem predicateFormsComplete : Obligations.PredicateFormsComplete := by
  unfold Obligations.PredicateFormsComplete
  intro s h pd pa pb na nb d a hr x y out
  have combines (f : Word → Word → Word) : .next (s.issue1 h (predForm f pd pa pb na nb)) = out (f x y) := by
    refine congrArg Host.Outcome.next ((issue1_completes hr (.modSt _ fun _ => by simp)).trans ?_)
    refine congrArg (fun t : State => t.leaves h) (modSt_congr ?_)
    simp only [pm_takes]
    rfl
  have hput := issue1_completes (eff := fun t => t.modSt fun x =>
    (upto 1 7).foldl (fun y k => y.setP (Fin.ofNat 8 k) (maskOf ((t.sr a).getLsbD k))) x) hr
    (.modSt _ fun x => field_foldl_setP Stream.await (fun _ _ _ => by simp) _ _ x)
  refine ⟨combines _, combines _, combines _, ⟨_, congrArg Host.Outcome.next (issue1_writes hr rfl), fun k hk => ?_⟩,
    ⟨_, congrArg Host.Outcome.next hput, ?_, pm_zero _, fun k hk => ?_⟩⟩
  · have hpb (j : PIx) : (s.takes h).st.pb j = s.st.pb j := congrArg (BitVec.getLsbD · 0) (pm_takes s h j)
    rw [getLsbD_w64 _ hk, testBit_foldl_bits (fun k => (s.takes h).st.pb (Fin.ofNat 8 k)) 8 (by decide), if_neg (Nat.not_lt_zero k), hpb]
    by_cases hk8 : k < 8 <;> simp [hk8]
  · rw [s_leaves, st_modSt, field_foldl_setP Stream.s fun _ _ _ => by simp]
    exact s_takes s h
  · have hmem : ∀ k : PIx, k ≠ 0 → k.val ∈ upto 1 7 := by decide
    rw [pm_leaves, st_modSt, pm_foldl_setP _ hk (by decide), if_pos (hmem k hk), sr_takes]

end Sys2Proof.Proofs
end

section
/-!
PROOFS. The queue forms and the special registers, settled (R36, R72, R82, R87, R89, R137, R138, R152, R161).
-/
namespace Sys2Proof.Proofs
open Sys2Proof Sys2Proof.Machine Sys2Proof.Laws

/-! ### A form that waits (R86) -/

/-- A ready form that waits keeps the tokens it popped and stays where it is. -/
theorem issue_waits {s u : State} {h : Head} {eff : State → Res} {b : Blk} (hr : s.canIssue h)
    (he : eff (s.takes h) = .wait b u) : s.issue h eff = (u.modSt fun x => { x with popped := true }).blocked b := by
  obtain ⟨hacted, hpopped, hpop, -, hg, -⟩ := hr
  have hg' : (s.popFor h).guardB h.g = true := (guardB_takes s h h.g).trans hg
  have he' : eff (s.popFor h) = .wait b u := he
  simp only [State.issue, State.issueG, hacted, hpopped, hpop, Bool.false_eq_true, if_false, Bool.not_true, Bool.and_false, hg',
    if_true, he']

/-! ### The scalar queues (R89, R152) -/

@[simp] theorem sq_modSt (s : State) (f : Stream → Stream) (q : Nat) : (s.modSt f).sq q = s.sq q :=
  regs_modSt s (fun r => r.qs[Fin.ofNat 4 q]) f
theorem keepsHead_setSq (s : State) (q : Nat) (l : List Word) : KeepsHead s (s.setSq q l) :=
  .modRegs s (f := fun r => { r with qs := r.qs.set (Fin.ofNat 4 q) l })

/-- Taking tokens changes of a core the registers of its streams alone. -/
theorem me_takes (s : State) (h : Head) : (s.takes h).me = { s.me with r := (s.takes h).me.r } := by
  have hset (t : Tokens) : (s.setToks t).me = { s.me with r := (s.setToks t).me.r } := by
    rw [State.setToks, State.modRegs, me_modMe]
  rw [takes_eq]
  split
  · rw [orderReads_eq, modSt_eq, setSt_eq, me_modMe, hset]
    rfl
  · exact hset _
/-- Entries are counted of the queues alone. -/
theorem qlen_withRegs {c : Core} {r : Regs} (hs : r.qs = c.r.qs) (hv : r.qv = c.r.qv) (q : Nat) :
    ({ c with r := r } : Core).qlen q = c.qlen q := by
  simp only [Core.qlen, hs, hv]
@[simp] theorem qlen_takes (s : State) (h : Head) (q : Nat) : (s.takes h).me.qlen q = s.me.qlen q := by
  rw [me_takes]
  exact qlen_withRegs (regs_takes s h Regs.qs) (regs_takes s h Regs.qv) q

/-- Settles O7: a queue with room or an element serves the form, and one without makes it wait. -/
theorem queueFormsComplete : Obligations.QueueFormsComplete := by
  unfold Obligations.QueueFormsComplete
  refine ⟨fun s h a d q hr => ⟨fun _ hroom => ?_, fun _ x r hq => ?_, ?_⟩, fun s h a d q i hr hi => ?_⟩
  · refine congrArg Host.Outcome.next (issue_completes hr ?_ ((keepsHead_setSq ..).trans (.orderReads _)))
    simp only [sq_takes, sr_takes]
    exact if_neg (Nat.not_le.2 hroom)
  · refine congrArg Host.Outcome.next (issue_completes hr ?_ (((keepsHead_setSq ..).trans (.setS ..)).trans (.orderReads _)))
    simp only [sq_takes, hq]
  · refine congrArg Host.Outcome.next (issue1_writes hr ?_)
    simp only [strm_takes, qlen_takes]
  · have hwait : ∃ eff, exec i s = .next (s.issue h eff) ∧ eff (s.takes h) = .wait .loose (s.takes h) := by
      rcases hi with ⟨rfl, hfull⟩ | ⟨rfl, hempty⟩
      · refine ⟨_, rfl, ?_⟩
        simp only [sq_takes, hfull]
        rfl
      · refine ⟨_, rfl, ?_⟩
        simp only [sq_takes, hempty]
    obtain ⟨eff, hx, he⟩ := hwait
    refine ⟨_, hx.trans (congrArg _ (issue_waits hr he)), ?_⟩
    simp only [State.blocked, modSt_modSt, st_modSt, pos_takes, s_takes, toks_modSt, toks_takes, sq_modSt, sq_takes]
    exact ⟨trivial, trivial, trivial, trivial, trivial, fun _ => trivial, sameMemory_of_mem (mem_takes s h)⟩

end Sys2Proof.Proofs
end

section
/-!
PROOFS. The special registers read and written, NOP and BRK, settled (R36, R72, R82, R87, R137, R138, R161).
-/
namespace Sys2Proof.Proofs
open Sys2Proof Sys2Proof.Machine Sys2Proof.Laws

/-! ### The fields of TKCNT and COREID (R72, R87) -/

theorem tkcnt_lt {t : Tokens} (hca : t.ca < 16) (hav : t.av < 16) (hvc : t.vc < 16) (hac : t.ac < 16) (hva : t.va < 16)
    (hcv : t.cv < 16) : tkcnt t < 2 ^ 24 := by
  unfold tkcnt
  omega
theorem tkcnt_fields {t : Tokens} (hca : t.ca < 16) (hav : t.av < 16) (hvc : t.vc < 16) (hac : t.ac < 16) (hva : t.va < 16)
    (hcv : t.cv < 16) : bits (tkcnt t) 3 0 = t.ca ∧ bits (tkcnt t) 7 4 = t.av ∧ bits (tkcnt t) 11 8 = t.vc ∧
      bits (tkcnt t) 15 12 = t.ac ∧ bits (tkcnt t) 19 16 = t.va ∧ bits (tkcnt t) 23 20 = t.cv := by
  simp only [bits, tkcnt]
  omega
theorem coreId_lt {s : State} (hphys : s.me.phys < 256) : coreId s < 2 ^ 16 := by
  unfold coreId
  omega
theorem coreId_fields {s : State} (hcur : s.cur < 128) (hphys : s.me.phys < 256) : bits (coreId s) 5 0 = s.cur % 64 ∧
    bits (coreId s) 6 6 = 0 ∧ bits (coreId s) 7 7 = s.cur / 64 ∧ bits (coreId s) 15 8 = s.me.phys := by
  simp only [bits, coreId]
  omega
theorem coreId_takes (s : State) (h : Head) : coreId (s.takes h) = coreId s := by
  rw [coreId, coreId, cur_takes, field_takes s h Core.phys]

@[simp] theorem lc_takes (s : State) (h : Head) : (s.takes h).st.lc = s.st.lc := stream_takes s h (·.lc)
@[simp] theorem llim_takes (s : State) (h : Head) : (s.takes h).st.llim = s.st.llim := stream_takes s h (·.llim)
@[simp] theorem rstk_takes (s : State) (h : Head) : (s.takes h).st.rstk = s.st.rstk := stream_takes s h (·.rstk)
/-- Taking tokens shows in no special register but TKCNT. -/
theorem spr_takes (s : State) (h : Head) {r : Spr} (hr : r ≠ .tkcnt) : (s.takes h).spr r = s.spr r := by
  cases r with
  | tkcnt => exact absurd rfl hr
  | cycle => exact congrArg w64 (field_takes s h Core.cycle)
  | trapinfo => exact field_takes s h (fun c => c.trapinfo.setWidth 64)
  | win => exact congrArg w64 (regs_takes s h Regs.win)
  | rtime | lcores | config => rw [takes_eq]; split <;> rfl
  | tflags | lseq | prio | svcmode | rsdepth | coreid | llcsz | ithresh | trip | frame | jcard | jblock | jarg | lc | llim =>
    simp only [State.spr, tflags_takes, pos_takes, res_takes, ctx_takes, cx_takes, rstk_takes, coreId_takes, lc_takes, llim_takes]

/-! ### A breakpoint (R161, R360) -/

/-- The cores, whose turn it is, and memory are the same. -/
structure SameCores (s t : State) : Prop where
  cores : t.cores = s.cores
  cur : t.cur = s.cur
  strm : t.strm = s.strm
  mem : t.mem = s.mem

namespace SameCores
variable {s t u : State}

theorem refl (s : State) : SameCores s s := ⟨rfl, rfl, rfl, rfl⟩
theorem trans (h : SameCores s t) (g : SameCores t u) : SameCores s u :=
  ⟨g.cores.trans h.cores, g.cur.trans h.cur, g.strm.trans h.strm, g.mem.trans h.mem⟩
theorem me (h : SameCores s t) : t.me = s.me := by rw [State.me, State.me, State.core, State.core, h.cores, h.cur]
theorem st (h : SameCores s t) : t.st = s.st := by rw [State.st, State.st, h.me, h.strm]
theorem keepsHead (h : SameCores s t) : KeepsHead s t := ⟨congrArg (fun c : Core => c.r.tok) h.me, h.strm, congrArg Stream.await h.st⟩
theorem modCtx (s : State) (c : Nat) (f : Ctx → Ctx) : SameCores s (s.modCtx c f) := ⟨rfl, rfl, rfl, rfl⟩
theorem logEv (s : State) (e : Ev) : SameCores s (s.logEv e) := by
  unfold State.logEv
  split <;> exact ⟨rfl, rfl, rfl, rfl⟩
theorem sendVec (s : State) (n : Nat) : SameCores s (s.sendVec n) := by
  unfold State.sendVec
  split <;> exact ⟨rfl, rfl, rfl, rfl⟩
theorem raiseCtx (s : State) (c n : Nat) : SameCores s (s.raiseCtx c n) := by
  unfold State.raiseCtx
  split
  · exact refl s
  · exact (modCtx ..).trans (sendVec ..)
theorem haltCtx (s : State) (c k brk : Nat) : SameCores s (s.haltCtx c k brk) := by
  unfold State.haltCtx
  split
  · exact refl s
  · exact ((modCtx ..).trans (logEv ..)).trans (raiseCtx ..)

end SameCores

theorem haltCtx_halted (s : State) (c k brk : Nat) : ((s.haltCtx c k brk).ctx c).halted = true := by
  unfold State.haltCtx
  split
  · assumption
  · rw [raiseCtx_halted, logEv_ctx, ctx_modCtx_self]

/-! ### MFSR, MTSR, NOP, BRK -/

section
variable {s : State} {h : Head} (hr : s.canIssue h)
include hr

theorem exec_mfsr (d : SIx) (r : Spr) : exec (.mfsr h d r) s = .next (s.gives h d ((s.takes h).spr r) 0) :=
  congrArg Host.Outcome.next (issue1_writes hr rfl)
theorem exec_mtsr_win (a : SIx) : exec (.mtsr h a .win) s =
    .next (((s.takes h).modRegs fun x => { x with win := Nat.max 1 (Nat.min 1024 (s.sr a).toNat) }).leaves h) := by
  refine congrArg Host.Outcome.next ((issue1_completes hr (.modRegs _)).trans ?_)
  simp only [sr_takes]
theorem exec_nop : exec (.nop h) s = .next ((s.takes h).leaves h) := congrArg Host.Outcome.next (issue1_completes hr (.refl _))
theorem exec_brk_disabled (c : BitVec 8) (hb : (s.ctx s.cx).brken = false) : exec (.brk h c) s = .next ((s.takes h).leaves h) := by
  refine congrArg Host.Outcome.next (issue_completes hr (congrArg Res.done ?_) (.refl _))
  simp only [ctx_takes, cx_takes, hb]
  rfl
theorem exec_brk_enabled (c : BitVec 8) (hb : (s.ctx s.cx).brken = true) :
    exec (.brk h c) s = .next (((s.takes h).haltCtx s.cx s.cur c.toNat).leaves h) := by
  refine congrArg Host.Outcome.next (issue_completes hr (congrArg Res.done ?_) (SameCores.haltCtx ..).keepsHead)
  simp only [ctx_takes, cx_takes, cur_takes, hb]
  rfl

end

/-- Settles O8: each register by its own reading, the fields of a packed one by its layout. -/
theorem specialRegisterFormsComplete : Obligations.SpecialRegisterFormsComplete := by
  unfold Obligations.SpecialRegisterFormsComplete
  refine ⟨fun s h d hr => ?_, fun s h d a r c hr =>
    ⟨exec_mfsr hr d r, exec_mtsr_win hr a, exec_nop hr, exec_brk_disabled hr c, fun hb _ => ?_⟩⟩
  · intro reads holds k
    have reads_of {r : Spr} {v : Word} (hr' : r ≠ .tkcnt) (hv : s.spr r = v) : reads r v :=
      hv ▸ spr_takes s h hr' ▸ exec_mfsr hr d r
    have holds_of (r : Spr) {n m : Nat} (hr' : r ≠ .tkcnt) (hv : s.spr r = w64 n) (hn : n < 2 ^ 64) (hm : n = m) :
        holds r fun v => v = m := ⟨w64 n, reads_of hr' hv, by rw [toNat_w64 hn]; exact hm⟩
    refine ⟨fun n => ⟨reads_of nofun rfl, reads_of nofun rfl, fun x hx => reads_of nofun ?_⟩, fun n x hx => reads_of nofun ?_,
      reads_of nofun rfl, reads_of nofun rfl, reads_of nofun rfl, holds_of .prio nofun rfl (by omega) rfl,
      holds_of .svcmode nofun rfl (by unfold b2n; split <;> decide) rfl,
      fun hc => holds_of .jcard nofun rfl (by omega) rfl, fun hb => holds_of .jblock nofun rfl (by omega) rfl,
      fun hw => holds_of .win nofun rfl (by omega) rfl, fun hl => holds_of .lseq nofun rfl hl rfl,
      fun hd => holds_of .rsdepth nofun rfl (by omega) rfl,
      fun hca hav hvc hac hva hcv => ⟨_, exec_mfsr hr d .tkcnt, ?_⟩,
      fun hcur hphys => ⟨w64 (coreId s), reads_of nofun rfl, ?_⟩⟩
    · rw [State.spr, List.getD_eq_getElem?_getD, hx]
      rfl
    · rw [State.spr, List.getD_eq_getElem?_getD, hx]
      rfl
    · have hlt := tkcnt_lt hca hav hvc hac hva hcv
      obtain ⟨h1, h2, h3, h4, h5, h6⟩ := tkcnt_fields hca hav hvc hac hva hcv
      rw [State.spr, toks_takes, toNat_w64 (hlt.trans (by decide))]
      exact ⟨h1, h2, h3, h4, h5, h6, hlt⟩
    · have hlt := coreId_lt hphys
      obtain ⟨h1, h2, h3, h4⟩ := coreId_fields hcur hphys
      rw [toNat_w64 (hlt.trans (by decide))]
      exact ⟨h1, h2, h3, h4, hlt⟩
  · refine ⟨_, exec_brk_enabled hr c hb, ?_, ?_, sameMemory_of_mem ?_⟩
    · rw [ctx_leaves, haltCtx_halted]
    · rw [pos_leaves, (SameCores.haltCtx ..).st, pos_takes]
    · rw [mem_leaves, (SameCores.haltCtx ..).mem, mem_takes]

end Sys2Proof.Proofs
end

section
/-!
PROOFS. The scalar floating forms, settled (R123, R124, R149, R150).
-/
namespace Sys2Proof.Proofs
open Sys2Proof Sys2Proof.Machine Sys2Proof.Laws

/-- Bit 31 inverted, and nothing above it. -/
theorem testBit_negated (x k : Nat) : (Nat.xor (x % 2 ^ 32) (2 ^ 31)).testBit k =
    if k < 31 then x.testBit k else if k = 31 then !x.testBit 31 else false := by
  change ((x % 2 ^ 32) ^^^ 2 ^ 31).testBit k = _
  rw [Nat.testBit_xor, Nat.testBit_mod_two_pow, Nat.testBit_two_pow]
  rcases Nat.lt_trichotomy k 31 with hk | rfl | hk
  · rw [if_pos hk, decide_eq_true (by omega), decide_eq_false (by omega), Bool.true_and, Bool.xor_false]
  · simp
  · rw [if_neg (by omega), if_neg (by omega), decide_eq_false (by omega), decide_eq_false (by omega), Bool.false_and, Bool.xor_false]

/-- Bit 31 cleared, and nothing above it. -/
theorem testBit_cleared (x k : Nat) : (x % 2 ^ 31).testBit k = if k < 31 then x.testBit k else false := by
  rw [Nat.testBit_mod_two_pow]
  by_cases hk : k < 31 <;> simp [hk]

section
variable {s : State} {h : Head} (hr : s.canIssue h)
include hr

/-- A form whose value is rounded once. -/
theorem issue1_setF {d : SIx} {f : State → Val × Nat} {v : Val × Nat} (rm : RM) (sat : Bool) (hf : f (s.takes h) = v) :
    s.issue1 h (fun t => t.setF d (f t) rm sat) =
      s.gives h d (w64 (roundTo .f32 v.1 rm sat).1) ((roundTo .f32 v.1 rm sat).2 ||| v.2) :=
  issue1_gives hr (by rw [State.setF, hf])
/-- The smaller or larger of two operands. -/
theorem issue1_fpick (mx : Bool) (d a b : SIx) : s.issue1 h (fpick mx d a b) =
    s.gives h d (w64 (minMaxF .f32 mx ((s.sr a).toNat % 2 ^ 32) ((s.sr b).toNat % 2 ^ 32)).1)
      (minMaxF .f32 mx ((s.sr a).toNat % 2 ^ 32) ((s.sr b).toNat % 2 ^ 32)).2 :=
  issue1_gives hr (by simp only [fpick, sr_takes])

end

/-- Settles O9: each form by the operation on its operands' values; a sign inverted or cleared, bit by bit. -/
theorem scalarFloatFormsComplete : Obligations.ScalarFloatFormsComplete := by
  unfold Obligations.ScalarFloatFormsComplete
  intro s h d a b c ty tz rm sat hr x y rounded
  have rounds {f : State → Val × Nat} {v : Val × Nat} (hf : f (s.takes h) = v) :
      .next (s.issue1 h fun t => t.setF d (f t) rm sat) = rounded v := congrArg Host.Outcome.next (issue1_setF hr rm sat hf)
  refine ⟨rounds ?_, rounds ?_, rounds ?_, rounds ?_, rounds ?_, rounds ?_, congrArg Host.Outcome.next (issue1_fpick hr false d a b),
    congrArg Host.Outcome.next (issue1_fpick hr true d a b), congrArg Host.Outcome.next (issue1_gives hr (by simp only [sr_takes])),
    ⟨_, congrArg Host.Outcome.next (issue1_unary hr _ d a), fun k hk => (getLsbD_w64 _ hk).trans (testBit_negated _ k)⟩,
    ⟨_, congrArg Host.Outcome.next (issue1_unary hr _ d a), fun k hk => (getLsbD_w64 _ hk).trans (testBit_cleared _ k)⟩⟩
  all_goals simp only [f32_takes, x, y]

end Sys2Proof.Proofs
end

section
/-!
PROOFS. TRAP and fault injection, settled (R159, R162).
-/
namespace Sys2Proof.Proofs
open Sys2Proof Sys2Proof.Machine Sys2Proof.Laws

/-- A change of the core that leaves its streams alone. -/
theorem st_modMe (s : State) {f : Core → Core} (hf : ∀ c m, (f c).str m = c.str m) : (s.modMe f).st = s.st := by
  change (s.modMe f).me.str s.strm = _
  rw [me_modMe, hf]
  rfl

/-- A scalar written and the form left change of the core its registers and its starvation count alone. -/
theorem field_setS_leaves {α : Type} (s : State) (h : Head) (d : SIx) (v : Word) (g : Core → α)
    (hg : ∀ c r, g { c with r := r } = g c := by exact fun _ _ => rfl)
    (hn : ∀ c n, g { c with starve := n } = g c := by exact fun _ _ => rfl) : g ((s.setS d v).leaves h).me = g s.me :=
  (field_leaves _ h g hg hn).trans (field_modSt s g _ hg)

/-! ### Poison of a scratch granule (R183) -/

theorem scrOff_takes (s : State) (h : Head) (bp : Bool) (o : Nat) : (s.takes h).scrOff s.cur bp o = s.scrOff s.cur bp o := by
  have hcore : (s.takes h).core s.cur = (s.takes h).me := by rw [State.me, cur_takes]
  have hres : (s.takes h).me.res = s.me.res := res_takes s h
  have hpar : (s.takes h).me.r.par = s.me.r.par := regs_takes s h Regs.par
  rw [State.scrOff, hcore, hres, hpar]
  rfl
/-- Leaving a form, or writing its result, changes no granule of the core's own scratch. -/
theorem gran_setS_leaves (s : State) (h : Head) (d : SIx) (v : Word) (g : Nat) :
    ((s.setS d v).leaves h).gran (.scr s.cur) g = s.gran (.scr s.cur) g := by
  have hcore : ((s.setS d v).leaves h).core s.cur = ((s.setS d v).leaves h).me := by
    rw [State.me, cur_leaves]
    rfl
  have hscr : ((s.setS d v).leaves h).me.scr = s.me.scr := field_setS_leaves s h d v Core.scr
  change mgetD (((s.setS d v).leaves h).core s.cur).scr g SGran.empty = mgetD s.me.scr g SGran.empty
  rw [hcore, hscr]
theorem gran_setGran_scr (s : State) (k g : Nat) {x : SGran} (hx : x ≠ SGran.empty) :
    (s.setGran (.scr k) g x).gran (.scr k) g = x := by
  unfold State.setGran State.gran
  dsimp only
  rw [core_modCore_self]
  dsimp only
  rw [mput, if_neg hx, mgetD_mset_self]
/-- A granule marked poisoned is. -/
theorem gran_granSetPois_scr (s : State) (k g : Nat) : ((s.granSetPois (.scr k) [g]).gran (.scr k) g).pois = true := by
  have hne : ({ s.gran (.scr k) g with pois := true } : SGran) ≠ SGran.empty := fun h => Bool.noConfusion (congrArg SGran.pois h)
  rw [State.granSetPois, List.foldl_cons, List.foldl_nil, gran_setGran_scr s k g hne]
theorem keepsHead_granSetPois (s : State) (g : Nat) : KeepsHead s (s.granSetPois (.scr s.cur) [g]) :=
  .modMe s (f := fun c => { c with scr := mput SGran.empty c.scr g { s.gran (.scr s.cur) g with pois := true } })

/-! ### A command for the matrix engine (R241, R249) -/

/-- The state once a command has joined q11 with the view of its push. -/
def queuedMx (s : State) (x : MxCmd) : State :=
  (((s.engView s.cur s.cur).2.modMe fun c => { c with q11 := c.q11 ++ [{ x with view := (s.engView s.cur s.cur).1 }] }).countCmd).orderReads

theorem pushMx_room {s : State} (x : MxCmd) (harm : s.me.injArm = false) (hroom : s.me.q11.length + b2n s.me.mx.isSome < 16) :
    s.pushMx x = .done (queuedMx s x) := by
  rw [State.pushMx, State.enginePushOn, if_neg (by rw [harm]; decide), if_neg (by simpa using hroom)]
  rfl
theorem keepsHead_queuedMx (s : State) (x : MxCmd) : KeepsHead s (queuedMx s x) := by
  unfold queuedMx State.countCmd
  refine .trans (.trans (.trans (t := (s.engView s.cur s.cur).2) (.of_cores rfl rfl rfl) ?_) (.modMe _)) (.orderReads _)
  exact .modMe _
theorem q11_queuedMx (s : State) (x : MxCmd) :
    (queuedMx s x).me.q11 = s.me.q11 ++ [{ x with view := (s.engView s.cur s.cur).1 }] := by
  refine (field_modSt _ Core.q11 _).trans ?_
  rw [State.countCmd, me_modMe, me_modMe]
  rfl

/-! ### The forms (R159, R162) -/

/-- A core whose pending code, where it has one, stays, and becomes the given one otherwise. -/
def trapped (code : BitVec 8) (c : Core) : Core :=
  { c with trapinfo := if c.trapinfo.getLsbD 8 then c.trapinfo else BitVec.ofNat 9 (256 + code.toNat) }

/-- A code under the pending bit. -/
theorem ofNat_pending (c : BitVec 8) : BitVec.ofNat 9 (256 + c.toNat) = 1#1 ++ c := by
  refine BitVec.eq_of_toNat_eq ?_
  have := c.isLt
  rw [BitVec.toNat_ofNat, BitVec.toNat_append, ← Nat.shiftLeft_add_eq_or_of_lt c.isLt, BitVec.toNat_ofNat]
  omega

section
variable {s : State} {h : Head} (hr : s.canIssue h)
include hr

theorem exec_trap (c : BitVec 8) : exec (.trap h c) s = .next (((s.takes h).modMe (trapped c)).leaves h) :=
  congrArg Host.Outcome.next (issue1_completes hr (.modMe _ (f := trapped c)))
theorem exec_inj_refused (d a : SIx) (k : InjKind) (hsvc : (s.ctx s.cx).svc = false) :
    exec (.inj h d a k) s = .next (s.gives h d 1 0) := by
  refine congrArg Host.Outcome.next (issue_writes hr ?_)
  simp only [ctx_takes, cx_takes, hsvc]
  rfl

variable (d a : SIx) (hsvc : (s.ctx s.cx).svc = true)
include hsvc

theorem exec_inj_mismatch : exec (.inj h d a .shadowMismatch) s =
    .next ((((s.takes h).modMe fun c => { c with injArm := true }).setS d 0).leaves h) := by
  refine congrArg Host.Outcome.next (issue_completes hr ?_ (.trans (.modMe _) (.setS _ d 0)))
  simp only [ctx_takes, cx_takes, hsvc]
  rfl
theorem exec_inj_poison (hlt : (s.sr a).toNat < scrbytes s.res.hdr) : exec (.inj h d a .scratchPoison) s =
    .next ((((s.takes h).granSetPois (.scr s.cur) [s.scrOff s.cur false (s.sr a).toNat / 16]).setS d 0).leaves h) := by
  have hk := keepsHead_granSetPois (s.takes h) (s.scrOff s.cur false (s.sr a).toNat / 16)
  rw [cur_takes] at hk
  refine congrArg Host.Outcome.next (issue_completes hr ?_ (hk.trans (.setS _ d 0)))
  simp only [ctx_takes, cx_takes, hsvc, sr_takes, res_takes, cur_takes, scrOff_takes]
  exact if_neg (Nat.not_le.2 hlt)
theorem exec_inj_flip {acc : Fin 4} {row col b : Fin 64} (harm : (s.takes h).me.injArm = false)
    (hroom : (s.takes h).me.q11.length + b2n (s.takes h).me.mx.isSome < 16) : exec (.inj h d a (.accBit acc row col b)) s =
      .next (((queuedMx (s.takes h) (flipCmd (s.takes h) acc row col b)).setS d 0).leaves h) := by
  have hpush := pushMx_room (flipCmd (s.takes h) acc row col b) harm hroom
  refine congrArg Host.Outcome.next (issue_completes hr ?_ ((keepsHead_queuedMx ..).trans (.setS _ d 0)))
  simp only [ctx_takes, cx_takes, hsvc, hpush]
  rfl

end

/-- Settles O10: TRAP by its code, INJ by its kind. -/
theorem trapAndInjectionComplete : Obligations.TrapAndInjectionComplete := by
  unfold Obligations.TrapAndInjectionComplete
  refine ⟨fun s h c hr => ?_, fun s h d a k hr => ⟨exec_inj_refused hr d a k, fun hsvc => ⟨?_, ?_, ?_⟩⟩⟩
  · have hst := st_modMe (s.takes h) (f := trapped c) fun _ _ => rfl
    refine ⟨_, exec_trap hr c, ?_, ?_, ?_, ?_, sameMemory_of_mem ?_⟩
    · rw [field_leaves _ h Core.trapinfo, me_modMe, trapped, ofNat_pending, field_takes s h Core.trapinfo]
    · rw [pos_leaves, hst, pos_takes]
    · rw [s_leaves, hst, s_takes]
    · rw [tflags_leaves, hst, tflags_takes]
    · exact (mem_leaves _ h).trans (mem_takes s h)
  · rintro rfl
    refine ⟨_, exec_inj_mismatch hr d a hsvc, by rw [sr_leaves, sr_setS_self], ?_⟩
    rw [field_setS_leaves _ h _ _ Core.injArm, me_modMe]
  · rintro rfl hlt
    refine ⟨_, exec_inj_poison hr d a hsvc hlt, by rw [sr_leaves, sr_setS_self], ?_⟩
    have hcur : ((s.takes h).granSetPois (.scr s.cur) [s.scrOff s.cur false (s.sr a).toNat / 16]).cur = s.cur := cur_takes s h
    have hg := gran_setS_leaves ((s.takes h).granSetPois (.scr s.cur) [s.scrOff s.cur false (s.sr a).toNat / 16]) h d 0
      (s.scrOff s.cur false (s.sr a).toNat / 16)
    rw [hcur] at hg
    exact (congrArg SGran.pois hg).trans (gran_granSetPois_scr ..)
  · rintro acc row col bit rfl hroom harm
    have hq : (s.takes h).me.q11 = s.me.q11 := field_takes s h Core.q11
    have hmx : (s.takes h).me.mx = s.me.mx := field_takes s h Core.mx
    have hpush := q11_queuedMx (s.takes h) (flipCmd (s.takes h) acc row col bit)
    rw [hq] at hpush
    exact ⟨_, _, exec_inj_flip hr d a hsvc ((field_takes s h Core.injArm).trans harm) (by rw [hq, hmx]; exact hroom),
      by rw [sr_leaves, sr_setS_self], (field_setS_leaves _ h d 0 Core.q11).trans hpush,
      rfl, rfl, rfl, rfl, rfl⟩

end Sys2Proof.Proofs
end

section
/-!
PROOFS. Forms under a false guard, and vector forms without an active lane, settled (R86, R140, R147, R219, R220, R225 to R233).
-/
namespace Sys2Proof.Proofs
open Sys2Proof Sys2Proof.Machine Sys2Proof.Laws

/-! ### Forms that stop at their guard (R86, R140) -/

/-- A form with a head, the compares apart, is one whose false guard suppresses every effect. -/
theorem exec_of_plainHead {i : Instr} {h : Head} (hi : i.plainHead = some h) (s : State) :
    ∃ eff, exec i s = .next (s.issue h eff) := by
  cases i <;> cases hi <;> exact ⟨_, rfl⟩

/-! ### Forms of V's space without an active lane (R220) -/

theorem lanesOf_eq_nil {g : Word} {n : Nat} (hg : ∀ e, e < n → g.getLsbD e = false) : lanesOf g n = [] := by
  refine List.filter_eq_nil_iff.2 fun e he => ?_
  rw [hg e ((mem_upto.1 he).2.trans_eq (Nat.zero_add n))]
  decide

section
variable {s : State} {h : Head} (hr : Ready s h)
include hr

/-- A form whose effects come to nothing moves its tokens alone. -/
theorem issueG_idle {eff : Bool → State → Res} (he : eff (s.guardB h.g) (s.takes h) = .done (s.takes h)) :
    s.issueG h eff = (s.takes h).leaves h := hr.issueG he (.refl _)
theorem vecForm_idle {act : Word → List Nat} {srcs : List VSrc} {f : State → List Nat → List Vec → Res}
    (ha : act (s.guardM h.g) = []) : s.vecForm h act srcs f = (s.takes h).leaves h :=
  issueG_idle hr (by simp only [guardM_takes, ha, List.isEmpty_nil, if_true])
theorem accSegForm_idle {acc : Fin 4} {t : Ty} {srcs : List VSrc} {f : State → List Nat → List Vec → Res}
    (ha : lanesOf (s.guardM h.g) t.lanes = []) : s.accSegForm h acc t srcs f = (s.takes h).leaves h :=
  issueG_idle hr (by simp only [guardM_takes, ha, List.isEmpty_nil, if_true])

end

/-- The forms of V's space that have lanes: of vectors, or of an accumulator's row. -/
theorem exec_of_laneHead {i : Instr} {h : Head} {n : Nat} (hi : i.laneHead = some (h, n)) (s : State) :
    (∃ srcs f, exec i s = .next (s.vecForm h (fun g => lanesOf g n) srcs f)) ∨
      ∃ acc t srcs f, Ty.lanes t = n ∧ exec i s = .next (s.accSegForm h acc t srcs f) := by
  cases i
  case vaccrd => cases hi; exact .inr ⟨_, _, _, _, rfl, rfl⟩
  case vaccwr => cases hi; exact .inr ⟨_, _, _, _, rfl, rfl⟩
  all_goals cases hi <;> exact .inl ⟨_, _, rfl⟩

/-! ### Compares under a guard that holds nowhere (R147, R227) -/

@[simp] theorem tflags_setCmp (s : State) (ct : CT) (g r : Word) (pd pe : PIx) : (s.setCmp ct g r pd pe).st.tflags = s.st.tflags := by
  rw [st_setCmp, setP_tflags, setP_tflags]
theorem pm_setCmp_zero (s : State) {ct : CT} (hct : ct ≠ .unc) (r : Word) (pd pe q : PIx) :
    (s.setCmp ct 0 r pd pe).st.pm q = s.st.pm q := by
  rw [st_setCmp, combine_zero hct]
  exact pm_setP_setP_same _ _ rfl rfl q

/-- The scalar compares, by the relation that each combines. -/
theorem exec_compare {s : State} {h : Head} {pd pe : PIx} {ct : CT} {cc : CC} {a b : SIx} {n : BitVec 6} {i : Instr}
    (hi : i = .cmp h pd pe ct cc a (.reg b) ∨ i = .tbit h pd pe ct cc a n ∨ i = .fcmp h pd pe ct cc a b) :
    ∃ r, exec i s = .next (s.cmpForm h ct pd pe r) := by
  rcases hi with rfl | rfl | rfl <;> exact ⟨_, rfl⟩

theorem getLsbD_lowMask (n : Nat) {k : Nat} (hk : k < 64) : (lowMask n).getLsbD k = decide (k < n) := by
  rw [lowMask, getLsbD_w64 _ hk, Nat.testBit_two_pow_sub_one]

/-- What VCMP writes over x where it would combine w, in n lanes: w in its lanes, x above them. -/
def inLanes (n : Nat) (w x : Word) : Word := (w &&& lowMask n) ||| (x &&& ~~~lowMask n)
theorem getLsbD_inLanes (n : Nat) (w x : Word) {k : Nat} (hk : k < 64) :
    (inLanes n w x).getLsbD k = if k < n then w.getLsbD k else x.getLsbD k := by
  rw [inLanes, BitVec.getLsbD_or, BitVec.getLsbD_and, BitVec.getLsbD_and, BitVec.getLsbD_not, getLsbD_lowMask n hk, decide_eq_true hk]
  by_cases h : k < n <;> simp [h]

section
variable {g : Word} {n : Nat} (hg : ∀ e, e < n → g.getLsbD e = false)
include hg

theorem inLanes_combine_fst {ct : CT} (d e : Word) {k : Nat} (hk : k < 64) :
    (inLanes n (combine ct g 0 d e).1 d).getLsbD k = if ct = .unc ∧ k < n then false else d.getLsbD k := by
  rw [getLsbD_inLanes n _ _ hk, getLsbD_combine_fst _ _ _ _ _ hk]
  by_cases h : k < n
  · rw [hg k h]
    cases ct <;> simp [h, combinedD]
  · simp [h]
theorem inLanes_combine_snd {ct : CT} (d e : Word) {k : Nat} (hk : k < 64) :
    (inLanes n (combine ct g 0 d e).2 e).getLsbD k = if ct = .unc ∧ k < n then false else e.getLsbD k := by
  rw [getLsbD_inLanes n _ _ hk, getLsbD_combine_snd _ _ _ _ _ hk]
  by_cases h : k < n
  · rw [hg k h]
    cases ct <;> simp [h, combinedE]
  · simp [h]

end

theorem st_setVcmp (s : State) (n : Nat) (ct : CT) (g r : Word) (pd pe : PIx) : (s.setVcmp n ct g r pd pe).st =
    (s.st.setP pd (inLanes n (combine ct g r (s.st.pm pd) (s.st.pm pe)).1 (s.st.pm pd))).setP pe
      (inLanes n (combine ct g r (s.st.pm pd) (s.st.pm pe)).2 (s.st.pm pe)) := st_modSt ..

section
variable (s : State) {g : Word} {n : Nat} (hg : ∀ e, e < n → g.getLsbD e = false) (pd pe q : PIx)
include hg

theorem pm_setVcmp_idle {ct : CT} (hct : ct ≠ .unc) : (s.setVcmp n ct g 0 pd pe).st.pm q = s.st.pm q := by
  have hct' (k : Nat) : ¬(ct = .unc ∧ k < n) := fun h => hct h.1
  rw [st_setVcmp]
  refine pm_setP_setP_same _ _ ?_ ?_ q <;> refine BitVec.eq_of_getLsbD_eq fun k hk => ?_
  · rw [inLanes_combine_fst hg _ _ hk, if_neg (hct' k)]
  · rw [inLanes_combine_snd hg _ _ hk, if_neg (hct' k)]
theorem getLsbD_pm_setVcmp_unc {k : Nat} (hk : k < 64) : ((s.setVcmp n .unc g 0 pd pe).st.pm q).getLsbD k =
    if q ≠ 0 ∧ (q = pd ∨ q = pe) ∧ k < n then false else (s.st.pm q).getLsbD k := by
  rw [st_setVcmp]
  by_cases hq : q = 0
  · rw [hq, pm_zero, pm_zero, if_neg fun h => h.1 rfl]
  by_cases he : q = pe
  · subst he
    rw [pm_setP_self _ _ hq, inLanes_combine_snd hg _ _ hk]
    exact ite_congr (by simp [hq]) (fun _ => rfl) fun _ => rfl
  rw [pm_setP_ne _ _ he]
  by_cases hd : q = pd
  · subst hd
    rw [pm_setP_self _ _ hq, inLanes_combine_fst hg _ _ hk]
    exact ite_congr (by simp [hq]) (fun _ => rfl) fun _ => rfl
  · rw [pm_setP_ne _ _ hd, if_neg fun h => h.2.1.elim hd he]

end

section
variable {s : State} {h : Head} (hr : Ready s h)
include hr

theorem exec_vcmp_idle (pd pe : PIx) (ct : CT) (cc : CC) (a b : VSrc) (ty : Ty)
    (hg : ∀ e, e < ty.lanes → (s.guardM h.g).getLsbD e = false) : exec (.vcmp h pd pe ct cc a b ty) s =
      .next (((s.takes h).setVcmp ty.lanes ct (s.guardM h.g) 0 pd pe).leaves h) := by
  refine congrArg Host.Outcome.next (hr.issueG ?_ (.modSt _ fun x => by simp))
  simp only [guardM_takes, lanesOf_eq_nil hg, List.isEmpty_nil, if_true]
theorem exec_vcntp_idle (d : SIx) (p : PIx) (hg : s.guardM h.g = 0) : exec (.vcntp h d p) s = .next ((s.takes h).leaves h) := by
  refine congrArg Host.Outcome.next (issueG_idle hr ?_)
  simp only [guardM_takes, hg, if_true]
theorem exec_vmaski_idle (p : PIx) (ew : Ew) (n : BitVec 7) (hg : ∀ e, e < 512 / ew.bits → (s.guardM h.g).getLsbD e = false) :
    exec (.vmaski h p ew n) s = .next (((s.takes h).modSt fun x => x.setP p (x.pm p)).leaves h) := by
  have hmask : s.guardM h.g &&& lowMask (512 / ew.bits) = 0#64 := BitVec.eq_of_getLsbD_eq fun k hk => by
    rw [BitVec.getLsbD_and, getLsbD_lowMask _ hk]
    by_cases h : k < 512 / ew.bits
    · rw [hg k h]
      exact BitVec.getLsbD_zero.symm
    · rw [decide_eq_false h, Bool.and_false]
      exact BitVec.getLsbD_zero.symm
  have hkeep (x : Word) : (x &&& ~~~0#64) ||| (lowMask n.toNat &&& 0#64) = x := by
    rw [BitVec.not_zero, BitVec.and_allOnes, BitVec.and_zero, BitVec.or_zero]
  refine congrArg Host.Outcome.next (hr.issueG ?_ (.modSt _ fun x => by simp))
  simp only [guardM_takes, hmask, hkeep]

end

theorem wentOn_leaves {s u : State} (h : Head) (hu : u.st.pos = s.st.pos) : s.wentOn (u.leaves h) :=
  ⟨by rw [pos_leaves, hu], blk_leaves u h, opbuf_leaves u h⟩

/-- Settles O31: a form's guard, or its lanes, come to nothing before its effects begin; a compare writes as the table has it. -/
theorem inactiveFormsLeaveAlone : Obligations.InactiveFormsLeaveAlone := by
  unfold Obligations.InactiveFormsLeaveAlone
  refine ⟨fun s h pd pe ct cc a b n i hr hne hi => ?_, fun s h i hi hr => ?_, fun s h n i hi hr hg => ?_,
    fun s h d dv pd pe ct cc a b ty idx ew n hr => ⟨fun hg => ⟨?_, ?_⟩, fun hg => ?_, fun hg => ?_, fun hg => ?_⟩⟩
  · obtain ⟨r, hx⟩ := exec_compare hi
    refine ⟨_, hx.trans (congrArg _ (cmpForm_passes hr)), ?_, ?_, fun hct q => ?_⟩
    · rw [tflags_leaves, tflags_setCmp, tflags_takes]
    · rintro rfl
      refine ⟨fun hd => ?_, fun he => ?_, fun q hd he => ?_⟩
      · rw [pm_leaves, pm_setCmp_fst _ _ _ _ hd hne, combine_unc_zero]
      · rw [pm_leaves, pm_setCmp_snd _ _ _ _ he, combine_unc_zero]
      · rw [pm_leaves, pm_setCmp_ne _ _ _ _ hd he, pm_takes]
    · rw [pm_leaves, pm_setCmp_zero _ hct, pm_takes]
  · obtain ⟨eff, hx⟩ := exec_of_plainHead hi s
    rw [hx, issue_pass hr]
  · have hnil := lanesOf_eq_nil hg
    obtain ⟨srcs, f, hx⟩ | ⟨acc, t, srcs, f, rfl, hx⟩ := exec_of_laneHead hi s
    · rw [hx, vecForm_idle (.of_canIssueV hr) hnil]
    · rw [hx, accSegForm_idle (.of_canIssueV hr) hnil]
  · exact congrArg Host.Outcome.next (vecForm_idle (.of_canIssueV hr) (by rw [if_neg (by rw [hg]; decide)]))
  · exact congrArg Host.Outcome.next (vecForm_idle (.of_canIssueV hr) (by rw [if_neg (by rw [hg]; decide)]))
  · exact exec_vcntp_idle (.of_canIssueV hr) d pd hg
  · refine ⟨_, exec_vmaski_idle (.of_canIssueV hr) pd ew n hg, wentOn_leaves h ?_, ?_, fun q => ?_⟩
    · rw [st_modSt, setP_pos, pos_takes]
    · rw [s_leaves, st_modSt, setP_s, s_takes]
    · rw [pm_leaves, st_modSt, pm_setP_same _ _ rfl, pm_takes]
  · refine ⟨_, exec_vcmp_idle (.of_canIssueV hr) pd pe ct cc a b ty hg, wentOn_leaves h ?_, ?_, ?_, ?_, sameMemory_of_mem ?_,
      fun hct q => ?_, ?_⟩
    · rw [st_setVcmp, setP_pos, setP_pos, pos_takes]
    · rw [s_leaves, st_setVcmp, setP_s, setP_s, s_takes]
    · rw [tflags_leaves, st_setVcmp, setP_tflags, setP_tflags, tflags_takes]
    · exact (regs_leaves _ h Regs.qv).trans ((regs_modSt _ Regs.qv _).trans (regs_takes s h Regs.qv))
    · exact (mem_leaves _ h).trans (mem_takes s h)
    · rw [pm_leaves, pm_setVcmp_idle _ hg _ _ _ hct, pm_takes]
    · rintro rfl q k hk
      rw [pm_leaves, getLsbD_pm_setVcmp_unc _ hg _ _ _ hk, pm_takes]

end Sys2Proof.Proofs
end

section
/-!
PROOFS. What every operation of the model keeps (R166, R182, R237, R257, R264, R300, R353): memory's canonical form and the rising keys
of the ways, of each core's maps and of each checkpoint's.  `Kept s t` says it of two states; this part has its rules for records,
choices and folds, and the operations on cores, contexts, ways, memory, scratch and the logs.
-/
namespace Sys2Proof.Proofs
open Sys2Proof Sys2Proof.Machine Sys2Proof.Laws

-- One proof after another: side by side, they would wait for one another's equations of the model in a thread each.
set_option Elab.async false

/-- Memory is canonical in `t` if it is in `s`, and keys rise in `t` if they do in `s`. -/
structure Kept (s t : State) : Prop where
  mem : Memory.wf s.mem = true → Memory.wf t.mem = true
  keys : s.keysRise → t.keysRise

/-! ### Keys that rise: filters, maps and folds of sparse maps -/

section
variable {α β : Type} {m : List (Nat × α)}

theorem risingFrom_filter {lo : Nat} (p : Nat × α → Bool) (h : risingFrom lo m = true) : risingFrom lo (m.filter p) = true := by
  induction m generalizing lo with
  | nil => rfl
  | cons e r ih =>
    simp only [risingFrom, Bool.and_eq_true, decide_eq_true_eq] at h
    rw [List.filter_cons]
    split
    · simpa [risingFrom, h.1] using ih h.2
    · exact risingFrom_mono (by omega) (ih h.2)

theorem risingFrom_mapKeys {lo : Nat} (f : Nat × α → Nat × β) (hf : ∀ e, (f e).1 = e.1) (h : risingFrom lo m = true) :
    risingFrom lo (m.map f) = true := by
  induction m generalizing lo with
  | nil => rfl
  | cons e r ih =>
    simp only [risingFrom, Bool.and_eq_true, decide_eq_true_eq] at h
    simpa [risingFrom, hf, h.1] using ih h.2

theorem risingFrom_foldl (l : List β) (f : List (Nat × α) → β → List (Nat × α))
    (hf : ∀ m b, risingFrom 0 m = true → risingFrom 0 (f m b) = true) (h : risingFrom 0 m = true) :
    risingFrom 0 (l.foldl f m) = true :=
  l.foldlRecOn (motive := fun m => risingFrom 0 m = true) f h fun m hm b _ => hf m b hm

theorem rises_mset (k : Nat) (v : α) (h : risingFrom 0 m = true) : risingFrom 0 (mset m k v) = true :=
  risingFrom_mset v h (Nat.zero_le k)

theorem rises_mput [DecidableEq α] (d : α) (k : Nat) (v : α) (h : risingFrom 0 m = true) : risingFrom 0 (mput d m k v) = true := by
  unfold mput
  split
  · exact risingFrom_mdel k h
  · exact rises_mset k v h

/-- What holds of every value of a map, and of the default, holds of what is read. -/
theorem mgetD_of_forall {P : α → Prop} {k : Nat} {d : α} (h : ∀ e ∈ m, P e.2) (hd : P d) : P (mgetD m k d) := by
  unfold mgetD
  cases hm : mget m k with
  | none => exact hd
  | some x => exact h _ (mem_of_mget hm)

end

/-! ### Cores and contexts whose keys rise -/

theorem coreKeysRise_init : Core.init.keysRise :=
  ⟨rfl, rfl, rfl, fun _ h => absurd h List.not_mem_nil, fun _ h => absurd h List.not_mem_nil⟩

/-- The keys of every checkpoint's scratch and accumulators rise. -/
def CksRise (x : Ctx) : Prop := ∀ e ∈ x.cks, risingFrom 0 e.2.scr = true ∧ risingFrom 0 e.2.acc = true

theorem cksRise_init : CksRise Ctx.init := fun _ h => absurd h List.not_mem_nil

section
variable {s : State} (h : s.keysRise)
include h

theorem keysRise_core (k : Nat) : (s.core k).keysRise := mgetD_of_forall h.2.1 coreKeysRise_init
theorem keysRise_ctx (c : Nat) : CksRise (s.ctx c) := mgetD_of_forall (P := CksRise) h.2.2 cksRise_init

end

/-- A context with the checkpoints of another. -/
theorem cksRise_of_eq {x y : Ctx} (h : CksRise x) (hy : y.cks = x.cks := by rfl) : CksRise y := by rwa [CksRise, hy]

/-- A core whose scratch, accumulators, stores, publications and snapshots are those of another. -/
theorem coreKeysRise_of_eq {c d : Core} (h : c.keysRise) (hs : d.scr = c.scr := by rfl) (ha : d.acc = c.acc := by rfl)
    (hp : d.pend = c.pend := by rfl) (hc : d.comm = c.comm := by rfl) (hn : d.snaps = c.snaps := by rfl) : d.keysRise := by
  rwa [Core.keysRise, hs, ha, hp, hc, hn]

theorem keysRise_hold_ (cells : List Host.Cell) {d : Core} (h : d.keysRise) : (d.hold_ cells).keysRise :=
  let ⟨hs, ha, hp, hc⟩ := h
  ⟨hs, ha, risingFrom_foldl _ _ (fun _ x h => rises_mset x.1 x.2 h) hp, hc⟩

namespace Kept
variable {s t u : State} {k c n : Nat}

/-! ### Records, choices, folds -/

@[refl] theorem refl (s : State) : Kept s s := ⟨id, id⟩
@[trans] theorem trans (h : Kept s t) (g : Kept t u) : Kept s u := ⟨g.mem ∘ h.mem, g.keys ∘ h.keys⟩

/-- A state that differs in other fields. -/
theorem frame (h : Kept s t) (hm : u.mem = t.mem := by rfl) (hw : u.ways = t.ways := by rfl) (hc : u.cores = t.cores := by rfl)
    (hx : u.ctxs = t.ctxs := by rfl) : Kept s u :=
  ⟨fun g => hm ▸ h.mem g, fun g => by rw [State.keysRise, hw, hc, hx]; exact h.keys g⟩

theorem ite {p : Prop} [Decidable p] (h : Kept s t) (g : Kept s u) : Kept s (if p then t else u) := by
  split
  · exact h
  · exact g

theorem foldl {α : Type} {f : State → α → State} (l : List α) (h : Kept s t) (hf : ∀ {u} a, Kept s u → Kept s (f u a)) :
    Kept s (l.foldl f t) := l.foldlRecOn (motive := Kept s) f h fun _ hu a _ => hf a hu

/-- The same with a state that carries something else. -/
theorem foldl_snd {α β : Type} {f : β × State → α → β × State} {x : β × State} (l : List α) (h : Kept s x.2)
    (hf : ∀ {b u} a, Kept s u → Kept s (f (b, u) a).2) : Kept s (l.foldl f x).2 :=
  l.foldlRecOn (motive := fun x => Kept s x.2) f h fun _ hu a _ => hf a hu

/-- The same with anything that carries a state. -/
theorem foldlOn {α β : Type} (get : β → State) {f : β → α → β} {x : β} (l : List α) (h : Kept s (get x))
    (hf : ∀ {b} a, Kept s (get b) → Kept s (get (f b a))) : Kept s (get (l.foldl f x)) :=
  l.foldlRecOn (motive := fun x => Kept s (get x)) f h fun _ hu a _ => hf a hu

theorem elim {α : Type} {o : Option α} {f : α → State} (h : Kept s t) (hf : ∀ a, Kept s (f a)) : Kept s (o.elim t f) := by
  cases o with
  | none => exact h
  | some a => exact hf a

/-- A state that an operation answers beside something else. -/
theorem snd {β : Type} {b : β} (h : Kept s t) : Kept s (b, t).2 := h

/-! ### Cores, contexts, streams -/

/-- The keys of ways and cores, once those of the contexts stand. -/
theorem of_keys (h : Kept s t) (hm : u.mem = t.mem) (hk : t.keysRise → u.keysRise) : Kept s u :=
  ⟨fun g => hm ▸ h.mem g, fun g => hk (h.keys g)⟩

/-- Cores, or contexts, rewritten one by one. -/
theorem mapCores {f : Nat × Core → Nat × Core} (h : Kept s t) (hc : u.cores = t.cores.map f := by rfl)
    (hm : u.mem = t.mem := by rfl) (hw : u.ways = t.ways := by rfl) (hx : u.ctxs = t.ctxs := by rfl)
    (hf : ∀ e, e.2.keysRise → (f e).2.keysRise := by exact fun _ h => coreKeysRise_of_eq h) : Kept s u :=
  h.of_keys hm fun ⟨gw, gc, gx⟩ => ⟨hw ▸ gw, fun e he => by
    obtain ⟨x, hx, rfl⟩ := List.mem_map.1 (hc ▸ he)
    exact hf x (gc x hx), hx ▸ gx⟩
theorem mapCtxs {f : Nat × Ctx → Nat × Ctx} (h : Kept s t) (hx : u.ctxs = t.ctxs.map f := by rfl)
    (hm : u.mem = t.mem := by rfl) (hw : u.ways = t.ways := by rfl) (hc : u.cores = t.cores := by rfl)
    (hf : ∀ e, CksRise e.2 → CksRise (f e).2 := by exact fun _ h => cksRise_of_eq h) : Kept s u :=
  h.of_keys hm fun ⟨gw, gc, gx⟩ => ⟨hw ▸ gw, hc ▸ gc, fun e he => by
    obtain ⟨x, hx', rfl⟩ := List.mem_map.1 (hx ▸ he)
    exact hf x (gx x hx')⟩

theorem setCore {d : Core} (h : Kept s t) (hd : t.keysRise → d.keysRise) : Kept s (t.setCore k d) :=
  h.of_keys rfl fun g => ⟨g.1, fun e he => by
    obtain rfl | he := mem_mset he
    · exact hd g
    · exact g.2.1 e he, g.2.2⟩
/-- The same of a core that was made from an earlier state. -/
theorem setCoreOf {d : Core} (g : Kept s u) (h : Kept s t) (hd : u.keysRise → d.keysRise) : Kept s (t.setCore k d) :=
  ⟨h.mem, fun gs => (h.setCore fun _ => hd (g.keys gs)).keys gs⟩

/-- A core rewritten without a change of its maps, or with one that keeps their keys rising. -/
theorem modCore {f : Core → Core} (h : Kept s t) (hf : ∀ d, d.keysRise → (f d).keysRise := by exact fun _ h => coreKeysRise_of_eq h) :
    Kept s (t.modCore k f) := h.setCore fun g => hf _ (keysRise_core g k)
theorem setMe {d : Core} (h : Kept s t) (hd : t.keysRise → d.keysRise) : Kept s (t.setMe d) := h.setCore hd
theorem modMe {f : Core → Core} (h : Kept s t) (hf : ∀ d, d.keysRise → (f d).keysRise := by exact fun _ h => coreKeysRise_of_eq h) :
    Kept s (t.modMe f) := h.modCore hf

theorem setCtx {x : Ctx} (h : Kept s t) (hx : t.keysRise → CksRise x) : Kept s (t.setCtx c x) :=
  h.of_keys rfl fun g => ⟨g.1, g.2.1, fun e he => by
    obtain rfl | he := mem_mset he
    · exact hx g
    · exact g.2.2 e he⟩
theorem modCtx {f : Ctx → Ctx} (h : Kept s t) (hf : ∀ x, CksRise x → CksRise (f x) := by exact fun _ h => cksRise_of_eq h) :
    Kept s (t.modCtx c f) := h.setCtx fun g => hf _ (keysRise_ctx g c)

theorem setSt {x : Stream} (h : Kept s t) : Kept s (t.setSt x) := h.setCore fun g => keysRise_core g t.cur
theorem modSt {f : Stream → Stream} (h : Kept s t) : Kept s (t.modSt f) := h.setSt
theorem modRegs {f : Regs → Regs} (h : Kept s t) : Kept s (t.modRegs f) := h.modMe
theorem setS {i : SIx} {v : Word} (h : Kept s t) : Kept s (t.setS i v) := h.modSt
theorem orFlags {f : BitVec 8} (h : Kept s t) : Kept s (t.orFlags f) := h.modSt
theorem draw (h : Kept s t) : Kept s t.draw.2 := h.frame

/-! ### Hot-row ways (R300, R301, R303) -/

theorem setWays {w : Map Way} (h : Kept s t) (hw : risingFrom 0 t.ways = true → risingFrom 0 w = true) :
    Kept s { t with ways := w } := h.of_keys rfl fun g => ⟨hw g.1, g.2⟩

theorem setWay {w : Way} (h : Kept s t) : Kept s (t.setWay k w) := h.setWays fun g => by
  split
  · exact risingFrom_mdel _ g
  · exact rises_mset _ _ g
theorem clearWay (h : Kept s t) : Kept s (t.clearWay k) := by
  unfold State.clearWay
  split
  · exact h.setWay
  · exact h
theorem clearWays {p : Way → Bool} (h : Kept s t) : Kept s (t.clearWays p) := .foldl _ h fun _ h => h.clearWay
theorem clearRows {as : List Nat} (h : Kept s t) : Kept s (t.clearRows as) := .foldl _ h fun _ h => h.clearWay
theorem pinWays {ks : List Nat} (h : Kept s t) : Kept s (t.pinWays ks) := .foldl _ h fun _ h => h.elim fun _ => h.setWay
theorem unpinWays {ks : List Nat} (h : Kept s t) : Kept s (t.unpinWays ks) := .foldl _ h fun _ h => h.elim fun _ => h.setWay

/-! ### Views (R262, R265, R267) -/

theorem newAgent (h : Kept s t) : Kept s (t.newAgent k).2 := h.frame
theorem learn {v : View} (h : Kept s t) : Kept s (t.learn k v) := h.ite h.modCore
theorem orderReads (h : Kept s t) : Kept s t.orderReads := h.modSt
theorem refresh (h : Kept s t) : Kept s (t.refresh k) := h.modCore
theorem learnReads {ns : List Nat} (h : Kept s t) : Kept s (t.learnReads k ns) := .foldl _ h fun _ h => h.learn
theorem drawTime {lo : Nat} {vss : List (List (Nat × Nat × Byte))} (h : Kept s t) : Kept s (t.drawTime lo vss).2 := by
  unfold State.drawTime
  split
  · exact h.draw
  · exact h

/-! ### Memory at the points of coherence (R264, R265, R269, R303) -/

variable {v : View} {cells : List Host.Cell} {e : EView}

theorem setAll {m : List Host.Cell} (h : Kept s t) (hm : Memory.wf t.mem = true → Memory.wf m = true) :
    Kept s { t with mem := Memory.setAll m cells } :=
  ⟨fun g => memory_setAll_wf _ (hm (h.mem g)), h.keys⟩
theorem perform (h : Kept s t) : Kept s (t.perform n v cells) := by
  unfold State.perform
  split
  · exact h
  · exact (h.setAll (cells := cells) id).frame
theorem memWrite (h : Kept s t) : Kept s (t.memWrite n v cells) := h.clearRows.perform
theorem engLearn {ns : List Nat} (h : Kept s t) : Kept s (t.engLearn e ns) := h.ite h.frame
theorem engWrite1 (h : Kept s t) : Kept s (t.engWrite1 e cells) := h.newAgent.memWrite.frame
theorem engWrite (h : Kept s t) : Kept s (t.engWrite e cells) := .foldl _ h fun _ h => h.engWrite1
theorem loneWrite (h : Kept s t) : Kept s (t.loneWrite k cells) := h.newAgent.memWrite
theorem hostWrite (h : Kept s t) : Kept s (t.hostWrite cells) := h.clearRows.perform.frame
theorem rowRelease (h : Kept s t) : Kept s t.rowRelease := .foldl _ h.frame fun _ h => h.memWrite
theorem setPoison {gs : List Nat} (h : Kept s t) : Kept s (t.setPoison gs) := h.frame

variable {own : Bool} {a lo path : Nat}

theorem viewRead (h : Kept s t) : Kept s (t.viewRead k own a n).2 := by
  unfold State.viewRead
  exact .snd h.drawTime.learnReads.modCore
theorem lateRead (h : Kept s t) : Kept s (t.lateRead k own lo a n).2.2 := by
  unfold State.lateRead
  exact h.drawTime.learnReads
theorem memRead {m : Stm} (h : Kept s t) : Kept s (t.memRead k m path a n).2 := .foldl_snd _ h fun _ h => by
  dsimp only
  split
  · exact .snd h.lateRead.modCore
  · split
    · exact h.lateRead
    · exact h.viewRead
theorem engView (h : Kept s t) : Kept s (t.engView k c).2 := h.newAgent (k := c)
theorem engRead (h : Kept s t) : Kept s (t.engRead k e path a n).2 := .foldl_snd _ h fun _ h => h.drawTime.engLearn

/-! ### Pending stores, scratch and elastic granules (R182 to R184, R199, R264) -/

variable {w : Where} {g mask : Nat} {data : Gran} {full pois : Bool} {gs : List Nat} {bs : List Byte}

theorem setGran {x : SGran} (h : Kept s t) : Kept s (t.setGran w g x) := by
  unfold State.setGran
  split
  · exact h.modCore fun _ ⟨hs, hr⟩ => ⟨rises_mput _ _ _ hs, hr⟩
  · exact h.modCtx
theorem granPut (h : Kept s t) : Kept s (t.granPut v w g data mask full) := h.frame.setGran
theorem granWrite1 (h : Kept s t) : Kept s (t.granWrite1 v w n bs full) := h.ite h.granPut
theorem granReadFrom (h : Kept s t) : Kept s (t.granReadFrom lo w a n).2.2 := by
  unfold State.granReadFrom
  dsimp only
  split
  · exact h.draw
  · exact h
theorem granWrite (h : Kept s t) : Kept s (t.granWrite v w n bs full) := .foldl _ h fun _ h => h.granWrite1
theorem granSetPois (h : Kept s t) : Kept s (t.granSetPois w gs) := .foldl _ h fun _ h => h.setGran
theorem granSetFull (h : Kept s t) : Kept s (t.granSetFull w gs full) := .foldl _ h fun _ h => h.setGran
theorem engPut (h : Kept s t) : Kept s (t.engPut v w g data mask pois) := .ite h.granPut.granSetPois h.granPut
theorem engGran (h : Kept s t) : Kept s (t.engGran v w g data mask pois) := by
  unfold State.engGran
  split
  · exact .ite h.modCore h.engPut
  · exact h.engPut

/-! ### The black-box record, interrupts, completion entries (R41, R42, R378) -/

variable {e : Ev} {w0 w1 : Word} {irq : Bool}

theorem logEv (h : Kept s t) : Kept s (t.logEv e) := .ite h.frame h.frame
theorem sendVec (h : Kept s t) : Kept s (t.sendVec n) := .ite h.frame h.frame
theorem raiseCtx (h : Kept s t) : Kept s (t.raiseCtx c n) := h.ite h.modCtx.sendVec
theorem raiseMod (h : Kept s t) : Kept s (t.raiseMod n) := h.ite h.frame.sendVec
theorem freeze (h : Kept s t) : Kept s t.freeze := h.ite h.frame.raiseMod
theorem logLost (h : Kept s t) : Kept s (t.logLost c w0 w1 n) := h.logEv
theorem hostRejects (h : Kept s t) : Kept s t.hostRejects.2 := h.draw
theorem cqWrite (h : Kept s t) : Kept s (t.cqWrite c w0 w1 irq) := by
  unfold State.cqWrite
  exact .ite (modCtx (.ite h.hostRejects.logLost h.hostRejects.loneWrite)).raiseCtx
    (modCtx (.ite h.hostRejects.logLost h.hostRejects.loneWrite))
theorem cqDrain (h : Kept s t) : Kept s (t.cqDrain n c) := by
  induction n generalizing t with
  | zero => exact h
  | succ n ih =>
    simp only [State.cqDrain]
    split
    · exact h
    · exact h.ite (ih h.cqWrite.modCtx)
theorem cqPut (h : Kept s t) : Kept s (t.cqPut c w0 w1 irq) :=
  .ite h.cqWrite (.ite h.modCtx (.ite h.modCtx.logLost.raiseCtx h.modCtx.logLost))

end Kept
end Sys2Proof.Proofs
end

section
/-!
PROOFS. What the operations on records, tags and jobs keep, the ways a block leaves its core, and the faults (R35 to R64, R264, R347 to
R369).
-/
namespace Sys2Proof.Proofs
open Sys2Proof Sys2Proof.Machine Sys2Proof.Laws

-- One proof after another: side by side, they would wait for one another's equations of the model in a thread each.
set_option Elab.async false

/-! ### Cores that a block leaves, that publish, that commit (R257, R264, R352, R392) -/

section
variable {d : Core}

theorem keysRise_leave (d : Core) : d.leave.keysRise := coreKeysRise_of_eq coreKeysRise_init

theorem keysRise_cutDown (h : d.keysRise) : d.cutDown.keysRise := by
  obtain ⟨hs, ha, -, hc, -⟩ := h
  refine ⟨hs, ha, rfl, fun e he => hc e ?_, fun e he => absurd he List.not_mem_nil⟩
  simp only [Core.cutDown] at he
  split at he
  · exact he
  · exact absurd he List.not_mem_nil

theorem keysRise_commitStores (p : Nat → Bool) (h : d.keysRise) : (d.commitStores p).keysRise := by
  unfold Core.commitStores
  dsimp only
  split
  · exact h
  · obtain ⟨hs, ha, hp, hc, hn⟩ := h
    refine ⟨hs, ha, risingFrom_filter _ hp, fun e he => ?_, hn⟩
    obtain he | he := List.mem_append.1 he
    · exact hc e he
    · obtain rfl := List.mem_singleton.1 he
      exact risingFrom_filter _ hp

theorem keysRise_commitPhase (efp : Map (Bool × Bool)) (h : d.keysRise) : (d.commitPhase efp).keysRise :=
  let ⟨hs, ha, hp, hc, _⟩ := h
  ⟨hs, ha, hp, hc, fun _ he => absurd he List.not_mem_nil⟩

theorem keysRise_dropMx (x : Trig) (h : d.keysRise) : (d.dropMx x).keysRise := by
  unfold Core.dropMx
  split <;> exact h

theorem risingFrom_backFp {m : Map SGran} (fp : Map (Bool × Bool)) (dests : List Nat) (h : risingFrom 0 m = true) :
    risingFrom 0 (backFp m fp dests) = true := risingFrom_foldl _ _ (fun _ _ h => rises_mput _ _ _ h) h

end

/-! ### The accumulators that a cancel puts back (R257, R364) -/

section
variable {α : Type}

theorem risingFrom_iff_pairwise {m : List (Nat × α)} {lo : Nat} :
    risingFrom lo m = true ↔ (∀ e ∈ m, lo ≤ e.1) ∧ m.Pairwise fun a b => a.1 < b.1 := by
  induction m generalizing lo with
  | nil => simp [risingFrom]
  | cons e r ih =>
    simp only [risingFrom, Bool.and_eq_true, decide_eq_true_eq, ih, List.mem_cons, forall_eq_or_imp, List.pairwise_cons]
    constructor
    · rintro ⟨hlo, hr, hp⟩
      exact ⟨⟨hlo, fun x hx => by have := hr x hx; omega⟩, fun x hx => by have := hr x hx; omega, hp⟩
    · rintro ⟨⟨hlo, -⟩, hr, hp⟩
      exact ⟨hlo, fun x hx => hr x hx, hp⟩

theorem pairwise_sortIn {x : Nat × α} {m : List (Nat × α)} (hm : m.Pairwise fun a b => a.1 < b.1) (hx : ∀ e ∈ m, e.1 ≠ x.1) :
    (sortIn (fun a b => decide (a.1 ≤ b.1)) x m).Pairwise fun a b => a.1 < b.1 := by
  induction m with
  | nil => simp [sortIn]
  | cons e r ih =>
    obtain ⟨he, hr⟩ := List.pairwise_cons.1 hm
    have hne := hx e List.mem_cons_self
    simp only [sortIn, decide_eq_true_eq]
    split
    · refine List.pairwise_cons.2 ⟨fun y hy => ?_, hm⟩
      obtain rfl | hy := List.mem_cons.1 hy
      · omega
      · have := he y hy
        omega
    · refine List.pairwise_cons.2 ⟨fun y hy => ?_, ih hr fun y hy => hx y (List.mem_cons_of_mem _ hy)⟩
      obtain rfl | hy := mem_sortIn hy
      · omega
      · exact he y hy

/-- Sorting a list by its keys, no two of them the same, makes a map. -/
theorem risingFrom_sortBy {m : List (Nat × α)} (h : m.Pairwise fun a b => a.1 ≠ b.1) :
    risingFrom 0 (sortBy (fun a b => decide (a.1 ≤ b.1)) m) = true := by
  refine risingFrom_iff_pairwise.2 ⟨fun _ _ => Nat.zero_le _, ?_⟩
  induction m with
  | nil => exact .nil
  | cons e r ih =>
    obtain ⟨he, hr⟩ := List.pairwise_cons.1 h
    exact pairwise_sortIn (ih hr) fun y hy => (he y (mem_sortBy hy)).symm

/-- A set's accumulators replaced by a snapshot of the same set. -/
theorem risingFrom_putBack {m x : Map α} {n : Nat} (hm : risingFrom 0 m = true) (hx : risingFrom 0 x = true)
    (hk : ∀ e ∈ x, e.1 / 4096 = n) :
    risingFrom 0 (sortBy (fun a b => decide (a.1 ≤ b.1)) (mcut m (4096 * n) (4096 * (n + 1)) ++ x)) = true := by
  refine risingFrom_sortBy (List.pairwise_append.2 ⟨?_, ?_, fun a ha b hb => ?_⟩)
  · exact (risingFrom_iff_pairwise.1 (risingFrom_filter _ hm)).2.imp Nat.ne_of_lt
  · exact (risingFrom_iff_pairwise.1 hx).2.imp Nat.ne_of_lt
  · have hcut := (List.mem_filter.1 ha).2
    have := hk b hb
    simp only [Bool.not_eq_true', Bool.and_eq_false_iff, decide_eq_false_iff_not] at hcut
    omega

end

/-- The core that a cancel leaves, its maps as the phase found them. -/
theorem keysRise_cancelled {c d : Core} (h : c.keysRise) {fp : Map (Bool × Bool)} {gs : List Nat} (hs : d.scr = backFp c.scr fp gs)
    (ha : d.acc = c.snaps.foldl (fun (m : Map Acc) e =>
      sortBy (fun a b => a.1 ≤ b.1) (mcut m (4096 * e.1.val) (4096 * (e.1.val + 1)) ++ e.2)) c.acc)
    (hp : d.pend = []) (hc : d.comm = []) (hn : d.snaps = []) : d.keysRise := by
  obtain ⟨cs, ca, -, -, cn⟩ := h
  rw [Core.keysRise, hs, ha, hp, hc, hn]
  refine ⟨risingFrom_backFp _ _ cs, ?_, rfl, fun _ he => absurd he List.not_mem_nil, fun _ he => absurd he List.not_mem_nil⟩
  exact c.snaps.foldlRecOn (motive := fun m => risingFrom 0 m = true) _ ca fun m hm e he => risingFrom_putBack hm (cn e he).1 (cn e he).2

section
variable (x : Ctx) (n w hi lo v : Nat)

@[simp] theorem setCw_cks : (x.setCw n w v).cks = x.cks := by rw [Ctx.setCw]
@[simp] theorem setCf_cks : (x.setCf n w hi lo v).cks = x.cks := by rw [Ctx.setCf, setCw_cks]
@[simp] theorem addCf_cks : (x.addCf n w hi lo v).cks = x.cks := by rw [Ctx.addCf, setCf_cks]

end

/-- The checkpoints of the blocks of a job that has failed go. -/
theorem cksRise_dropped {x y : Ctx} (l : List (Nat × Rec)) (p : Nat × Rec → Bool) (h : CksRise x)
    (hy : y.cks = l.foldl (fun q e => if p e then e.2.ckpt.elim q (mdel q) else q) x.cks) : CksRise y := fun e he => h e (by
  rw [hy] at he
  revert he
  exact l.foldlRecOn (motive := fun q => e ∈ q → e ∈ x.cks) _ id fun q hq r _ he => hq (by
    split at he
    · cases hr : r.2.ckpt <;> simp only [hr, Option.elim] at he
      · exact he
      · exact mem_mdel he
    · exact he))

namespace Kept
variable {s t u : State} {k c n m : Nat} {v : View} {p : Nat → Bool}

/-! ### Records, ready queues, tags (R35, R45 to R64) -/

theorem appendReady {e : REntry} (h : Kept s t) : Kept s (t.appendReady n e) := h.frame
theorem enqueue (h : Kept s t) : Kept s (t.enqueue c k) := by
  unfold State.enqueue
  split
  · exact h
  · exact h.ite (.ite h.modCtx.appendReady (.ite h.modCtx.appendReady h))
theorem enqueueAll {ks : List Nat} (h : Kept s t) : Kept s (t.enqueueAll c ks) := .foldl _ h fun _ h => h.enqueue
theorem decJoins {ls : List Link} (h : Kept s t) : Kept s (t.decJoins c ls v) := h.modCtx.enqueueAll
theorem dropReady (h : Kept s t) : Kept s (t.dropReady c n) := h.frame
theorem tagReady (h : Kept s t) : Kept s (t.tagReady n v) := by
  unfold State.tagReady
  split
  · exact h
  · exact h.ite h.frame.decJoins
theorem tagVoid (h : Kept s t) : Kept s (t.tagVoid n m) := by
  unfold State.tagVoid
  split
  · exact h
  · exact h.ite h.frame.logEv
theorem tagUnpend (h : Kept s t) : Kept s (t.tagUnpend n) := by
  unfold State.tagUnpend
  split
  · exact .ite h.frame h
  · exact h
theorem tagFree (h : Kept s t) : Kept s (t.tagFree c n) := h.frame

/-! ### How a block leaves its core (R352, R392 to R396) -/

theorem addStats (h : Kept s t) : Kept s (t.addStats k) := by
  unfold State.addStats
  exact h.modCtx fun _ h => cksRise_of_eq h (by simp)
theorem gangLeave (h : Kept s t) : Kept s (t.gangLeave c n m) := h.modCtx fun _ h => by
  dsimp only
  split <;> exact h
theorem ackRvks (h : Kept s t) : Kept s (t.ackRvks k) := .foldl _ h fun _ h => h.logEv
theorem leave (h : Kept s t) : Kept s (t.modCore k Core.leave) := h.modCore fun d _ => keysRise_leave d
theorem vacate (h : Kept s t) : Kept s (t.vacate k) :=
  .ite (h.frame.modCore fun _ => keysRise_cutDown) (leave (ackRvks h.frame))
theorem settle (h : Kept s t) : Kept s (t.settle k) := .ite (h.ackRvks.setCore fun _ => keysRise_leave _) h
theorem logBlock (h : Kept s t) : Kept s (t.logBlock k n) := h.logEv
theorem tagPend (h : Kept s t) : Kept s (t.tagPend n) := by
  unfold State.tagPend
  split
  · exact .ite h.frame h
  · exact h
theorem publishTile (h : Kept s t) : Kept s (t.publishTile k v n) := .ite h.tagReady.modCore h
theorem publishPending (h : Kept s t) : Kept s (t.publishPending k v n) := .ite h.publishTile h
theorem sendPending (h : Kept s t) : Kept s (t.sendPending k) := .foldl _ h fun q h => by
  cases q with
  | pending => exact h.ite (h.elim fun _ => h.tagPend)
  | ready => exact h.elim fun _ => h.publishPending
  | _ => exact h
theorem voidPending (h : Kept s t) : Kept s (t.voidPending k) := by
  unfold State.voidPending
  extract_lets c void s1
  have hv {u : State} (e : Nat) (h : Kept s u) : Kept s (void u e) := h.tagVoid
  have h1 : Kept s s1 := .foldl _ h fun _ h => h.elim fun _ => .ite (hv _ h) h
  refine h1.foldl _ fun q h => ?_
  cases q with
  | pub => exact h.elim fun _ => hv _ h
  | pending => exact .ite (h.elim fun _ => hv _ h) h
  | _ => exact h
theorem killBlock {b : Bool} (h : Kept s t) : Kept s (t.killBlock k n b) := by
  unfold State.killBlock
  extract_lets r key s1 s3 s4
  have h1 : Kept s s1 := h.sendPending.addStats.modCtx fun _ h => cksRise_of_eq h (by split <;> simp)
  have h4 : Kept s s4 := h1.voidPending.logBlock.modCtx
  exact h4.vacate.enqueue
theorem killGang {b : Bool} (h : Kept s t) : Kept s (t.killGang k n b) := .foldl _ h fun _ h => h.killBlock

/-! ### How a job ends (R44, R57, R348, R393) -/

theorem endEntry {w : List Word} (h : Kept s t) : Kept s (t.endEntry c n w) := .ite h.cqPut h
theorem wakeNodes (h : Kept s t) : Kept s (t.wakeNodes c n) := h.frame
theorem jobDone (h : Kept s t) : Kept s (t.jobDone c n) := by
  unfold State.jobDone
  extract_lets snap v ls s1 s2
  have h2 : Kept s s2 := h.frame.decJoins.tagFree.modCtx fun _ h => cksRise_of_eq h (by simp)
  exact h2.wakeNodes.endEntry

theorem failOne {a b e : Nat} {tiles : Bool} (h : Kept s t) : Kept s (t.failOne c n a b e tiles) := by
  unfold State.failOne
  extract_lets snap ks s1 s2 s3 runs s4 s5
  have h1 : Kept s s1 := .foldl _ h fun _ h => h.sendPending.addStats.vacate
  have h2 : Kept s s2 := .ite (.foldl _ h1 fun _ h => h.tagVoid) h1
  have h3 : Kept s s3 := h2.tagFree.dropReady
  have h4 : Kept s s4 := h3.frame
  have h5 : Kept s s5 := h4.modCtx fun x h =>
    cksRise_dropped x.recs (fun e => e.2.card = n) h (by simp only [decide_eq_true_eq])
  exact h5.wakeNodes.endEntry
theorem failLevels {f : Nat} {l : List Nat} (h : Kept s t) : Kept s (t.failLevels f c l) := by
  induction f generalizing t l with
  | zero => exact h
  | succ f ih =>
    unfold State.failLevels
    split
    · exact h
    · exact ih (.foldl _ h.frame fun _ h => h.failOne)
theorem jobFail {a b e : Nat} (h : Kept s t) : Kept s (t.jobFail c n a b e) := h.failOne.failLevels

/-! ### Publications and early commits (R257, R264, R267) -/

theorem performComm (h : Kept s t) : Kept s (t.performComm k) := by
  unfold State.performComm
  cases hc : (t.core k).comm with
  | nil => exact h
  | cons e r =>
    refine .ite h.clearRows (h.memWrite.setCore fun g => ?_)
    obtain ⟨hs, ha, hp, hr, hn⟩ := keysRise_core g k
    rw [(SameJobs.memWrite t _ _ _).core, hc] at hr
    exact ⟨hs, ha, hp, fun x hx => hr x (List.mem_cons_of_mem _ hx), hn⟩
theorem flushComm (h : Kept s t) : Kept s (t.flushComm n k) := by
  induction n generalizing t with
  | zero => exact h
  | succ n ih => exact ih h.performComm
theorem settleComm (h : Kept s t) : Kept s (t.settleComm k) := h.flushComm
theorem publish (h : Kept s t) : Kept s (t.publish k) := settleComm (h.modCore fun _ => keysRise_commitStores _)
theorem earlyCommit (h : Kept s t) : Kept s (t.earlyCommit k) := h.publish.modCore fun _ => keysRise_commitPhase _

/-! ### A context stops, a block fails (R160, R336, R344, R348, R349) -/

theorem adoptAtt {att : BitVec 16} (h : Kept s t) : Kept s (t.adoptAtt c n att) :=
  modCtx h.mapCores fun _ h => by split <;> exact h
theorem toPort {p : Packet} (h : Kept s t) : Kept s (t.toPort n p) := h.ite h.draw.frame
theorem sendTx {own : Option (Nat × Nat)} {p : Packet} (h : Kept s t) : Kept s (t.sendTx own n m p) := toPort h.frame
theorem abortGroup (h : Kept s t) : Kept s (t.abortGroup c n) := by
  unfold State.abortGroup
  split
  · exact h
  · exact .foldl _ h.adoptAtt fun _ h => h.ite h.sendTx

theorem stopWork {card : Option Nat} {a b : Nat} {w : List Word} (h : Kept s t) : Kept s (t.stopWork c card a b w) := by
  unfold State.stopWork
  extract_lets live mine a s0 s1 s2 t armed s3
  have ha : Kept s a := .foldl _ (.foldl _ h fun _ h => h.abortGroup) fun _ h => h.addStats
  have h0 : Kept s s0 := .foldl _ (rowRelease (ha.setWays fun g => risingFrom_filter _ g)) fun _ h => h.settleComm
  have h1 : Kept s s1 := h0.mapCores (hf := fun e g => by
    split
    · exact keysRise_leave _
    · exact g)
  have h2 : Kept s s2 := h1.modCtx fun x g => by
    unfold Ctx.fillErr
    split <;> exact g
  have h3 : Kept s s3 := .foldl _ h2 fun _ h => .ite h.failOne h.failOne
  exact (freeze (modCtx h3.frame fun _ _ => fun _ he => absurd he List.not_mem_nil)).raiseCtx
theorem contextStopBy {card : Option Nat} {e : CtxErr} (h : Kept s t) : Kept s (t.contextStopBy c card n e) := by
  unfold State.contextStopBy
  exact .ite h.logEv h.logEv.stopWork
theorem contextStop {e : CtxErr} (h : Kept s t) : Kept s (t.contextStop c n e) := h.contextStopBy
theorem fatal {a b e : Nat} (h : Kept s t) : Kept s (t.fatal a b e) := h.contextStop
theorem fatalC {p : Pos} {a b e : Nat} (h : Kept s t) : Kept s (t.fatalC k p a b e) := h.contextStop
theorem fatalAgent {a b e f : Nat} (h : Kept s t) : Kept s (t.fatalAgent k a b e f) := h.contextStop
theorem blockFail {a b e : Nat} (h : Kept s t) : Kept s (t.blockFail k a b e) := h.logEv.jobFail

/-! ### Counters, fencing (R372, R375, R376) -/

theorem count {a b : Nat} (h : Kept s t) : Kept s (t.count a b).2 := by
  unfold State.count
  extract_lets key x
  split
  · exact h.frame.logEv
  · exact h.frame
theorem retirePart {why : Cause} {a b e f g : Nat} (h : Kept s t) : Kept s (t.retirePart why a b e f g) :=
  .ite (logEv h.frame) h.logEv
theorem fence {why : Cause} (h : Kept s t) : Kept s (t.fence k why) := by
  unfold State.fence
  extract_lets c _ s1 s2
  have h1 : Kept s s1 := h.logEv.modCore
  have h2 : Kept s s2 := h1.frame.retirePart
  exact h.ite (.ite h2.killGang h2)

/-! ### Containment triggers (R363 to R369) -/

theorem cancelPhase (h : Kept s t) : Kept s (t.cancelPhase k) := by
  unfold State.cancelPhase
  extract_lets c s1 carried redo behind mxGone acc key
  have h1 : Kept s s1 := .foldl _ h fun _ h => h.elim fun _ => h.tagUnpend
  exact h.setCoreOf (modCtx h1 fun _ g => by split <;> exact g) fun g =>
    keysRise_cancelled (keysRise_core g k) rfl rfl rfl rfl rfl
theorem logTrig {x : Trig} (h : Kept s t) : Kept s (t.logTrig k x n) := h.logEv
theorem countTrig (h : Kept s t) : Kept s (t.countTrig k) := h.modCore
theorem escalate {x : Trig} (h : Kept s t) : Kept s (t.escalate k x) := by
  unfold State.escalate
  extract_lets r key runs s0
  have h0 : Kept s s0 := (h.logTrig.modCtx fun _ h => cksRise_of_eq h (by simp)).modCore fun _ => keysRise_dropMx x
  exact .ite (killGang (logTrig (h0.modCtx fun _ h => by split <;> exact h))) h0.logTrig.contextStop
theorem takeTrigs {xs : List Trig} (h : Kept s t) : Kept s (t.takeTrigs k xs) := by
  unfold State.takeTrigs
  dsimp only
  split
  next x _ =>
    exact .ite (modCore (.foldl _ h fun _ h => h.logTrig) fun _ => keysRise_dropMx x)
      (escalate (countTrig (.foldl _ h fun _ h => h.countTrig.logTrig)))
  · exact cancelPhase (.foldl _ h fun _ h => h.countTrig.logTrig)
theorem takeCounted {xs : List Trig} (h : Kept s t) : Kept s (t.takeCounted k xs) := by
  have hn {ys : List Trig} {x : Option Nat × State} (hx : Kept s x.2) :
      Kept s (ys.foldl (fun a _ => let m := a.2.count 5 k; (m.1 <|> a.1, m.2)) x).2 := .foldl_snd _ hx fun _ h => h.count
  exact (hn h).takeTrigs.elim fun _ => (hn h).takeTrigs.fence
theorem trigger {x : Trig} (h : Kept s t) : Kept s (t.trigger k x) := .ite (h.ite h.modCore) h.takeCounted
theorem streamTrigger (h : Kept s t) : Kept s (t.streamTrigger n m) := h.trigger

/-! ### How a form issues (R81, R86) -/

variable {h' : Head}

theorem blocked {b : Blk} (h : Kept s t) : Kept s (t.blocked b) := h.modSt
theorem advance (h : Kept s t) : Kept s t.advance := h.modSt.modMe
theorem setToks {x : Tokens} (h : Kept s t) : Kept s (t.setToks x) := h.modRegs
theorem finish (h : Kept s t) : Kept s (t.finish h') :=
  .ite h.modSt.blocked (.ite (advance (.ite h.setToks.orderReads h.setToks)) h.modSt.blocked)
theorem popFor (h : Kept s t) : Kept s (t.popFor h') := .ite h.setToks.orderReads h.setToks
theorem unpop (h : Kept s t) : Kept s (t.unpop h') := h.ite h.setToks.modSt

end Kept

/-- What the state that a form's effects come to keeps. -/
def KeptRes (s : State) : Res → Prop
  | .done t | .wait _ t | .stop t => Kept s t

namespace Kept
variable {s t : State} {h' : Head}

theorem issueG {eff : Bool → State → Res} (h : Kept s t) (he : ∀ {g u}, Kept s u → KeptRes s (eff g u)) :
    Kept s (t.issueG h' eff) := by
  obtain ⟨-, hx⟩ | ⟨-, -, -, hx⟩ | ⟨s1, -, hs1, hx⟩ := issueG_cases t h' eff
  · exact hx ▸ h.finish
  · exact hx ▸ h.blocked
  · have h1 : Kept s s1 := hs1 ▸ h.ite h.popFor
    have h2 := he (g := s1.guardB h'.g) h1
    obtain ⟨u, hu, hx⟩ | ⟨b, u, hu, hx⟩ | ⟨u, hu, hx⟩ := hx <;> rw [hu] at h2 <;> rw [hx]
    · exact finish h2
    · exact (modSt h2).blocked
    · exact unpop h2
theorem issue {eff : State → Res} (h : Kept s t) (he : ∀ {u}, Kept s u → KeptRes s (eff u)) : Kept s (t.issue h' eff) :=
  h.issueG fun {g _} h => by
    cases g with
    | false => exact h
    | true => exact he h
theorem issue1 {eff : State → State} (h : Kept s t) (he : ∀ {u}, Kept s u → Kept s (eff u)) : Kept s (t.issue1 h' eff) :=
  h.issue he

end Kept
end Sys2Proof.Proofs
end

section
/-!
PROOFS. What operand forms, fetching and the scalar forms keep: targets read and written, windows, pending stores, handles, loads,
stores, atomics and vector queue forms (R77 to R108, R165, R172 to R204, R256, R360, R370).
-/
namespace Sys2Proof.Proofs
open Sys2Proof Sys2Proof.Machine Sys2Proof.Laws

-- One proof after another: side by side, they would wait for one another's equations of the model in a thread each.
set_option Elab.async false

/-- What the state that a fetch comes to keeps. -/
def KeptNext (s : State) : Next → Prop
  | .idle t | .form t _ | .bad t .. => Kept s t

/-- What the state that a form or event comes to keeps. -/
def KeptOut (s : State) : Out → Prop
  | .next t => Kept s t
  | _ => True

/-! ### Accumulators written through a window (R186, R257) -/

theorem keysRise_accPut {d : Core} (key v : Nat) (h : d.keysRise) : (d.accPut key v).keysRise :=
  let ⟨hs, ha, hr⟩ := h
  ⟨hs, rises_mput _ _ _ ha, hr⟩

theorem mem_mput {α : Type} [DecidableEq α] {m : List (Nat × α)} {d v : α} {k : Nat} {e : Nat × α} (h : e ∈ mput d m k v) :
    e = (k, v) ∨ e ∈ m := by
  unfold mput at h
  split at h
  · exact .inr (mem_mdel h)
  · exact mem_mset h

theorem keysRise_accWindow {d : Core} (key v : Nat) (h : d.keysRise) : (d.accWindow key v).keysRise := by
  obtain ⟨hs, ha, hp, hc, hn⟩ := keysRise_accPut key v h
  refine ⟨hs, ha, hp, hc, fun e he => ?_⟩
  obtain ⟨x, hx, rfl⟩ := List.mem_map.1 he
  obtain ⟨hr, hk⟩ := hn x hx
  split
  next hkey =>
    refine ⟨rises_mput _ _ _ hr, fun y hy => ?_⟩
    obtain rfl | hy := mem_mput hy
    · exact hkey.symm
    · exact hk y hy
  · exact ⟨hr, hk⟩

namespace Kept
variable {s t u : State} {k c a n o : Nat} {v : View} {w : Where} {g : Tgt} {md : Rd} {bp full : Bool} {bs : List Byte}

/-! ### Handles and shape records by version (R90) -/

theorem writeH {i : HIx} {x : Handle} (h : Kept s t) (hu : t.writeH i x = some u) : Kept s u := by
  unfold State.writeH at hu
  dsimp only at hu
  split at hu
  · cases hu
  · exact Option.some.inj hu ▸ h.modRegs
theorem writeT {i : TIx} {x : Word} (h : Kept s t) (hu : t.writeT i x = some u) : Kept s u := by
  unfold State.writeT at hu
  dsimp only at hu
  split at hu
  · cases hu
  · exact Option.some.inj hu ▸ h.modRegs
theorem putH {i : HIx} {x : Handle} (h : Kept s t) : KeptRes s (t.putH i x) := by
  unfold State.putH
  split
  next hu => exact h.writeH hu
  · exact h
theorem putT {i : TIx} {x : Word} (h : Kept s t) : KeptRes s (t.putT i x) := by
  unfold State.putT
  split
  next hu => exact h.writeT hu
  · exact h
theorem withH {i : HIx} {f : Handle → Res} (h : Kept s t) (hf : ∀ x, KeptRes s (f x)) : KeptRes s (t.withH i f) := by
  unfold State.withH
  split
  · exact hf _
  · exact h
theorem withT {i : TIx} {f : Word → Res} (h : Kept s t) (hf : ∀ x, KeptRes s (f x)) : KeptRes s (t.withT i f) := by
  unfold State.withT
  split
  · exact hf _
  · exact h

/-! ### Reading and writing bytes of a target (R165, R181, R186, R199) -/

theorem readScr (h : Kept s t) : Kept s (t.readScr md w o n).2 := by
  unfold State.readScr
  split
  · exact h.granReadFrom.learnReads
  · exact h.granReadFrom.learnReads
  · exact .snd h.learnReads.modSt
  · exact h
theorem readWin (h : Kept s t) : Kept s (t.readWin md c o n).2.2 := by
  unfold State.readWin
  split
  · exact h.readScr
  · split
    · exact h
    · split
      · exact h.draw
      · exact h
theorem readTgt (h : Kept s t) : Kept s (t.readTgt k g bp md n).s := by
  unfold State.readTgt
  extract_lets scr
  split
  · exact foldlOn Got.s _ h fun _ h => h.readScr
  · exact foldlOn Got.s _ h fun _ h => h.readScr
  · dsimp only
    split
    · exact h
    · exact h.memRead
  · split
    · exact foldlOn Got.s _ h fun _ h => h.readWin
    · exact h

theorem scrWrite (h : Kept s t) : Kept s (t.scrWrite v c bp o bs full) := .foldl _ h fun _ h => h.granWrite1
theorem accWindowWrite (h : Kept s t) : Kept s (t.accWindowWrite c o bs) := .foldl _ h fun _ h => by
  dsimp only
  split
  · exact .ite h.modCore (h.modCore fun _ => keysRise_accWindow _ _)
  · exact h
theorem pendStore (h : Kept s t) : Kept s (t.pendStore k a bs) := .foldl _ h fun _ h =>
  modCore (.ite h.earlyCommit h) fun _ => keysRise_hold_ _
theorem writeWin (h : Kept s t) : Kept s (t.writeWin v c o full bs) :=
  .ite h.scrWrite (.ite h.accWindowWrite (.ite (h.modCore fun _ h => by split <;> exact coreKeysRise_of_eq h) h))
theorem writeTgt (h : Kept s t) : Kept s (t.writeTgt k g bp full bs) := by
  unfold State.writeTgt
  split
  · exact h.scrWrite
  · exact h.granWrite
  · exact h.pendStore
  · split
    · exact .foldl _ h fun _ h => h.writeWin
    · exact h
theorem storeTgt (h : Kept s t) : Kept s (t.storeTgt k g bp full bs) := by
  unfold State.storeTgt
  split
  · exact h.earlyCommit.writeTgt.orderReads
  · exact h.writeTgt.orderReads
theorem storeGran {cs : List (Nat × Byte)} (h : Kept s t) : Kept s (t.storeGran k g bp full cs) := by
  unfold State.storeGran
  extract_lets d v
  split
  · exact h.granPut.orderReads
  · exact h.granPut.orderReads
  · exact orderReads (.foldl _ h fun _ h => h.pendStore)
  · exact .ite h.earlyCommit.granPut.orderReads (.foldl _ h.earlyCommit fun _ h => h.storeTgt)
theorem popSrc {x : VSrc} {e : QEntry × State} (h : Kept s t) (he : t.popSrc x = some e) : Kept s e.2 := by
  unfold State.popSrc at he
  split at he
  · exact Option.some.inj he ▸ h
  · exact Option.some.inj he ▸ h
  · split at he
    · cases he
    · exact Option.some.inj he ▸ .snd h.modRegs

/-! ### Fetching (R79 to R83, R108, R155) -/

variable {l : List Nat} {dbg : Bool}

theorem atLane (h : Kept s t) : Kept s (t.atLane n) := h.modSt
theorem steered (h : Kept s t) : KeptNext s (t.steered n) := by
  unfold State.steered
  split
  · exact h
  · exact h.blocked
theorem decodeAt (h : Kept s t) : KeptNext s (t.decodeAt l n) := by
  have hl : Kept s (t.atLane n) := h.atLane
  unfold State.decodeAt
  dsimp only
  split
  · exact hl
  · split
    · exact hl.steered
    · split
      · exact hl
      · split
        · exact hl
        · split
          · exact hl.blocked
          · split
            · exact hl.modMe
            · exact hl
theorem passForm {ln : Fin 8} (h : Kept s t) : Kept s (t.passForm l n ln) := h.atLane.modSt.advance
theorem inLine (h : Kept s t) : KeptNext s (t.inLine l) := by
  unfold State.inLine
  dsimp only
  split
  · exact h.modSt.modMe
  · split
    · exact h.passForm
    · exact h.decodeAt
theorem fetchForm (h : Kept s t) : KeptNext s (t.fetchForm dbg) := by
  unfold State.fetchForm
  dsimp only
  split
  · exact h
  · split
    · exact h.blocked
    · split
      · exact h
      · split
        · exact h.inLine
        · split
          · exact h
          · exact h.modSt.inLine

/-! ### Entries for the engine queues, a halt, faults (R176, R256, R347, R360, R370) -/

theorem mismatch (h : Kept s t) : KeptRes s t.mismatch := h.modMe.streamTrigger
theorem enginePushOn {b : Blk} {put : State → State} (h : Kept s t) (hp : Kept s (put t)) :
    KeptRes s (t.enginePushOn b full put) := by
  unfold State.enginePushOn
  split
  · exact h.mismatch
  · split
    · exact h
    · exact hp.orderReads
theorem enginePush {put : State → State} (h : Kept s t) (hp : Kept s (put t)) : KeptRes s (t.enginePush full put) :=
  h.enginePushOn hp
theorem countCmd (h : Kept s t) : Kept s t.countCmd := h.modMe
theorem pushMx {x : MxCmd} (h : Kept s t) : KeptRes s (t.pushMx x) := h.enginePushOn h.engView.modMe.countCmd
theorem haltCtx (h : Kept s t) : Kept s (t.haltCtx c k n) := h.ite h.modCtx.logEv.raiseCtx
theorem fault {f : Flt} (h : Kept s t) : KeptRes s (t.fault f n) := h.fatal
theorem transFault {f : Flt} (h : Kept s t) : KeptRes s (t.transFault f n) := by
  unfold State.transFault
  split
  · exact h.modMe
  · exact h.fault

/-! ### Handle and shape-record forms (R174, R175, R189 to R192) -/

variable {h' : Head} {hd hs : HIx} {d b i j : SIx} {tt : TIx}

theorem execXlate (h : Kept s t) : KeptOut s (execXlate h' hd d b t) := h.issue fun h => by
  split
  · exact h.transFault
  · exact h.putH
theorem execProbe (h : Kept s t) : KeptOut s (execProbe h' d b t) := h.issue fun h => by
  split
  · exact h.transFault
  · exact h.setS
theorem execHloc (h : Kept s t) : KeptOut s (execHloc h' hd d b t) := h.issue fun h => by
  split
  · exact h.fault
  · exact h.putH
theorem execHmov (h : Kept s t) : KeptOut s (execHmov h' hd hs t) := h.issue fun h => h.putH
theorem execHsub (h : Kept s t) : KeptOut s (execHsub h' hd hs tt i j t) := h.issue fun h => by
  split
  · exact h.fault
  · exact h.putH
theorem execHget {f : HField} (h : Kept s t) : KeptOut s (execHget h' d hs f t) := h.issue1 fun h => h.setS
theorem execTset {x : BitVec 64} (h : Kept s t) : KeptOut s (execTset h' tt x t) := h.issue fun h => h.putT
theorem execTget {f : TField} (h : Kept s t) : KeptOut s (execTget h' d tt f t) := h.issue1 fun h => h.setS

/-! ### Scalar access (R197 to R199) -/

variable {ty : Ty} {fe : Fe} {disp : BitVec 21}

theorem setGranFull (h : Kept s t) : Kept s (t.setGranFull g full) := by
  unfold State.setGranFull
  split
  · exact h.granSetFull
  · exact h
theorem readTrigger {r : Got} (h : Kept s t) (hu : t.readTrigger r g = some u) : Kept s u := by
  unfold State.readTrigger at hu
  split at hu
  · exact Option.some.inj hu ▸ h.streamTrigger
  · split at hu
    · exact Option.some.inj hu ▸ h.streamTrigger
    · cases hu
theorem loadForm {late : Bool} (h : Kept s t) : KeptRes s (t.loadForm hs d b ty fe disp late) := h.withH fun x => by
  dsimp only
  split
  · exact h.fault
  · split
    · exact h
    · split
      next hu => exact h.readTgt.readTrigger hu
      · exact setS (.ite h.readTgt.setGranFull h.readTgt)
theorem execLd (h : Kept s t) : KeptOut s (execLd h' hs d b ty fe disp t) := h.issue fun h => h.loadForm
theorem execLdl (h : Kept s t) : KeptOut s (execLdl h' hs d b ty disp t) := h.issue fun h => h.loadForm
theorem storeForm (h : Kept s t) : KeptRes s (t.storeForm hs d b ty fe disp) := h.withH fun x => by
  dsimp only
  split
  · exact h.fault
  · split
    · exact h
    · exact h.storeTgt
theorem execSt (h : Kept s t) : KeptOut s (execSt h' hs d b ty fe disp t) := h.issue fun h => h.storeForm
theorem execGtest (h : Kept s t) : KeptOut s (execGtest h' hs d b disp t) := h.issue fun h => h.withH fun x => by
  dsimp only
  split
  · exact h.fault
  · exact h.setS
theorem execGset (h : Kept s t) : KeptOut s (execGset h' hs d b disp t) := h.issue fun h => h.withH fun x => by
  dsimp only
  split
  · exact h.fault
  · split
    · exact h.earlyCommit.setGranFull.orderReads
    · exact h.setGranFull.orderReads

/-! ### Atomics (R200, R201, R264, R268) -/

variable {ord : Ord}

theorem atomicWrite (h : Kept s t) : Kept s (t.atomicWrite g bs) := by
  unfold State.atomicWrite
  split
  · exact h.memWrite.modMe
  · exact h.writeTgt
theorem atomicLearn (h : Kept s t) : Kept s (t.atomicLearn g n) := by
  unfold State.atomicLearn
  split
  · exact h.learnReads
  · split
    · exact h.learnReads
    · exact h
theorem atomicCommit1 (h : Kept s t) : Kept s (t.atomicCommit1 a) := by
  unfold State.atomicCommit1
  extract_lets k s1 s2 s3
  have h1 : Kept s s1 := h.modMe fun _ h => keysRise_commitStores _ (keysRise_commitStores _ h)
  have h2 : Kept s s2 := h1.flushComm
  have h3 : Kept s s3 := h2.ite h2.draw.flushComm
  exact h3.modCore fun _ => keysRise_commitPhase _
theorem atomicCommit (h : Kept s t) : Kept s (t.atomicCommit g ord) := by
  unfold State.atomicCommit
  split
  · exact h
  · exact .ite h.earlyCommit h
  · exact .ite h.earlyCommit h.atomicCommit1
  · exact h.earlyCommit
theorem atomicForm {cas plain : Bool} {f : Nat → Nat → Nat} (h : Kept s t) :
    KeptRes s (t.atomicForm hs d b ty ord disp cas plain f) := h.withH fun x => by
  extract_lets a n g s1 old s2
  have h1 : Kept s s1 := h.atomicCommit
  have h2 : Kept s s2 := h1.atomicLearn.atomicWrite.setS.orderReads
  split
  · exact h.fault
  · split
    · exact h
    · split
      next hu => exact h.readTrigger hu
      · split
        · exact h1
        · exact .ite h2.refresh h2
theorem execAmo {scp : Scp} {op : AOp} (h : Kept s t) : KeptOut s (execAmo h' hs d b ty ord scp disp i op t) :=
  h.issue fun h => h.atomicForm
theorem execAcas {scp : Scp} (h : Kept s t) : KeptOut s (execAcas h' hs d b ty ord scp disp i j t) :=
  h.issue fun h => h.atomicForm

/-! ### Vector queue forms (R202 to R204) -/

variable {q : Fin 4} {clip : Clip}

theorem setVq {l : List QEntry} (h : Kept s t) : Kept s (t.setVq n l) := h.modRegs
theorem ldqForm (h : Kept s t) : KeptRes s (t.ldqForm hs tt q i j clip fe bp) := h.withH fun x => h.withT fun y => by
  dsimp only
  split
  · exact h.fault
  · split
    · exact h.fault
    · split
      · exact h
      · split
        · exact h
        · split
          next hu => exact h.readTgt.readTrigger hu
          · exact setVq (.ite (.foldl _ h.readTgt fun _ h => h.granSetFull) h.readTgt)
theorem execLdq (h : Kept s t) : KeptOut s (execLdq h' hs tt q i j clip fe bp t) := h.issue fun h => h.ldqForm
theorem stqForm (h : Kept s t) : KeptRes s (t.stqForm hs tt i j clip fe bp) := h.withH fun x => h.withT fun y => by
  dsimp only
  split
  · exact h.fault
  · split
    · exact h
    · split
      · exact h.fault
      · split
        · exact h
        · split
          · exact h
          · exact .foldl _ h.setVq.orderReads fun _ h => h.storeGran
theorem execStq (h : Kept s t) : KeptOut s (execStq h' hs tt i j clip fe bp t) := h.issue fun h => h.stqForm
theorem execQsplat {ew : Ew} (h : Kept s t) : KeptOut s (execQsplat h' q d ew t) := h.issue fun h => by
  split
  · exact h
  · exact h.setVq

end Kept
end Sys2Proof.Proofs
end

section
/-!
PROOFS. What the scalar forms of C, the control forms and the copy engine keep (R138 to R162, R205 to R215, R278 to R286).
-/
namespace Sys2Proof.Proofs
open Sys2Proof Sys2Proof.Machine Sys2Proof.Laws

-- One proof after another: side by side, they would wait for one another's equations of the model in a thread each.
set_option Elab.async false

namespace Kept
variable {s t u : State} {k c n o : Nat} {h' : Head} {d a b i j : SIx} {pd pe : PIx}

/-! ### Scalar forms (R141 to R162) -/

theorem aluForm {f : Nat → Nat → Nat → Nat × Nat} {w : Bool} (h : Kept s t) : Kept s (aluForm f d a b w t) := h.setS.orFlags
theorem aluImm {f : Nat → Nat → Nat → Nat} (h : Kept s t) : Kept s (aluImm f d a n t) := h.setS
theorem unary {f : Nat → Nat} (h : Kept s t) : Kept s (unary f d a t) := h.setS
theorem pickForm {mx sg : Bool} (h : Kept s t) : Kept s (pickForm mx sg d a b t) := h.setS
theorem predForm {f : Word → Word → Word} {pa pb : PIx} {na nb : Bool} (h : Kept s t) : Kept s (predForm f pd pa pb na nb t) :=
  h.modSt
theorem setCmp {ct : CT} {g r : Word} (h : Kept s t) : Kept s (t.setCmp ct g r pd pe) := h.modSt
theorem cmpForm {ct : CT} {r : State → Bool × Nat} (h : Kept s t) : Kept s (t.cmpForm h' ct pd pe r) :=
  h.issueG fun h => h.setCmp.orFlags
theorem setF {v : Val × Nat} {rm : RM} {sat : Bool} (h : Kept s t) : Kept s (t.setF d v rm sat) := h.setS.orFlags
theorem fpick {mx : Bool} (h : Kept s t) : Kept s (fpick mx d a b t) := h.setS.orFlags

theorem setSq {l : List Word} (h : Kept s t) : Kept s (t.setSq n l) := h.modRegs
theorem execQsend {q : Fin 32} (h : Kept s t) : KeptOut s (execQsend h' a q t) := h.issue fun h => by
  split
  · exact h
  · exact h.setSq.orderReads
theorem execQrecv {q : Fin 32} (h : Kept s t) : KeptOut s (execQrecv h' d q t) := h.issue fun h => by
  split
  · exact h
  · exact h.setSq.setS.orderReads
theorem execMtsr {r : Spr} (h : Kept s t) : KeptOut s (execMtsr h' a r t) := h.issue1 fun h => by
  split
  · exact h.modRegs
  · exact h
theorem execInj {x : InjKind} (h : Kept s t) : KeptOut s (execInj h' d a x t) := h.issue fun {u} h => by
  split
  · exact h.setS
  · split
    next acc row col b =>
      have hp := h.pushMx (x := flipCmd u acc row col b)
      split
      next hu =>
        rw [hu] at hp
        exact setS hp
      · exact hp
    · dsimp only
      split
      · exact h.fault
      · exact h.granSetPois.setS
    · exact h.modMe.setS

/-! ### Branches, loops, fences (R83, R153 to R157, R278) -/

theorem steer {e : Steer} (h : Kept s t) : Kept s (t.steer e) := h.modRegs
theorem allForm {x : Instr} {g : Guard} {ev : State → Except Nat (Word × Option Int)} {app : Steer → State → State} (h : Kept s t)
    (ha : ∀ {e u}, Kept s u → Kept s (app e u)) : Kept s (t.allForm x g ev app) := by
  unfold State.allForm
  split
  · split
    · exact h.blocked
    · split
      · exact ha h.steer
      · split
        · exact h.fatal
        · exact ha h.steer
        · split
          · exact h.fatal
          · exact ha h.steer
  · split
    · exact h.blocked
    · exact ha h.modSt.orderReads
theorem follow {eff : Word → Stream → Stream} {e : Steer} (h : Kept s t) : Kept s (follow eff e t) := h.modSt.modMe
theorem fenceEff {ord : Ord} {scp : Scp} (h : Kept s t) : Kept s (fenceEff ord scp t) := .ite h.earlyCommit h
theorem fenceEnd {e : Steer} {ord : Ord} {scp : Scp} (h : Kept s t) : Kept s (t.fenceEnd e ord scp) := by
  unfold State.fenceEnd
  extract_lets rel x
  have hx : Kept s x := .ite h.publish h
  exact .ite hx.modSt.blocked (orderReads (.ite hx.refresh hx)).advance
theorem execFence {g : Guard} {ord : Ord} {scp : Scp} (h : Kept s t) : KeptOut s (execFence g ord scp t) := by
  refine Kept.ite (fenceEnd (h.ite h.modSt)) (.ite h.blocked (h.allForm fun h => ?_))
  exact .ite h.fenceEff.fenceEnd h.advance

/-! ### Barriers, semaphores (R279, R281 to R283) -/

variable {m : Fin 16} {ph : Nat} {v : View}

theorem setGang {g : GangSt} (h : Kept s t) : Kept s (t.setGang c k g) := h.modCtx
theorem barDone {x : Fin 8} (h : Kept s t) : Kept s (t.barDone x) := h.learn.refresh.orderReads
theorem barForm (h : Kept s t) : KeptRes s (t.barForm m) := by
  unfold State.barForm
  dsimp only
  split
  · split
    · exact h.setGang.modMe
    · exact h.setGang.barDone
  · split
    · exact h
    · exact h.modMe.barDone
theorem semAdd (h : Kept s t) : Kept s (t.semAdd k m n v) := .ite h.modCore h.modCore.logEv
theorem semSignal (h : Kept s t) : Kept s (t.semSignal k m n ph v) := h.semAdd.modCore fun _ h => by split <;> exact h
theorem deliver {x : Held} (h : Kept s t) : Kept s (t.deliver k x) := by
  unfold State.deliver
  split
  · exact h.engPut
  · exact h.semSignal
  · exact h.modCore fun _ h => by dsimp only; split <;> exact coreKeysRise_of_eq h
  · exact h.modCore fun _ h => by split <;> exact coreKeysRise_of_eq h
theorem give {x : Held} (h : Kept s t) : Kept s (t.give k x) := .ite h.modCore h.deliver
theorem drainHeld (h : Kept s t) : Kept s (t.drainHeld k) := .foldl _ h.modCore fun _ h => h.deliver
theorem semTake {w : Waiter} (h : Kept s t) : Kept s (t.semTake k m w n ph).2 := by
  unfold State.semTake
  dsimp only
  split
  · exact h.setCore fun g => coreKeysRise_of_eq (keysRise_core g k)
  · exact h.setCore fun g => coreKeysRise_of_eq (keysRise_core g k)
theorem execSemsig (h : Kept s t) : KeptOut s (execSemsig h' m a t) := h.issue1 fun h => h.semSignal.orderReads
theorem execSemwait (h : Kept s t) : KeptOut s (execSemwait h' m a t) := h.issue fun h => by
  dsimp only
  split
  · exact h
  · split
    · exact h.semTake.learn.refresh.orderReads
    · exact h.semTake

/-! ### Tags and jobs (R284 to R286) -/

variable {commit : Bool}

theorem pushJob {q : View → JobReq} (h : Kept s t) : KeptRes s (t.pushJob commit q) := by
  unfold State.pushJob
  extract_lets u
  have hu : Kept s u := .ite h.earlyCommit h
  split
  · exact hu
  · exact hu.enginePush hu.modMe
theorem execTagpub {sl : Fin 4} (h : Kept s t) : KeptOut s (execTagpub h' sl a t) := h.issue fun h => by
  dsimp only
  split
  · exact h.fault
  · split
    · exact h
    · exact h.pushJob
theorem execTagpubP {sl : Fin 4} (h : Kept s t) : KeptOut s (execTagpubP h' sl a t) := h.issue fun {u} h => by
  extract_lets n known
  have hp := h.pushJob (commit := false) (q := fun _ => .pending sl.val n u.me.ph)
  split
  · exact h.fault
  · split
    next hu =>
      rw [hu] at hp
      exact Kept.ite hp (modMe hp)
    · exact hp
theorem askForm {q : View → JobReq} (h : Kept s t) : KeptRes s (t.askForm commit d q) := by
  have hp := h.pushJob (commit := commit) (q := q)
  unfold State.askForm
  split
  next hu =>
    rw [hu] at hp
    exact modSt hp
  · exact hp
theorem cardForm {bad : Bool} {q : Nat → View → JobReq} (h : Kept s t) : KeptRes s (t.cardForm commit d a bad q) := by
  unfold State.cardForm
  dsimp only
  split
  · exact h.fault
  · exact h.askForm

/-! ### The bytes of a command's places (R181, R183, R207) -/

variable {e : EView} {x : Site} {p : Place} {bp : Bool} {bs : List Byte}

theorem siteRead (h : Kept s t) : Kept s (t.siteRead k e x n).2.2 := by
  unfold State.siteRead
  split
  · exact h.engLearn
  · exact h.engRead
  · split
    · exact h.readWin
    · exact h
theorem placeRead (h : Kept s t) : Kept s (t.placeRead k e p bp o n).2.2 :=
  foldlOn (fun x : List Byte × Bool × State => x.2.2) _ h fun _ h => h.siteRead
theorem siteWrite (h : Kept s t) : Kept s (t.siteWrite k e x bs) := by
  unfold State.siteWrite
  split
  · exact h.engGran
  · exact h.pendStore
  · exact .ite h.writeWin h
theorem placeWrite (h : Kept s t) : Kept s (t.placeWrite k e p bp o bs) := .foldl _ h fun _ h => h.siteWrite

/-! ### A copy moves a granule (R205, R208 to R212) -/

variable {r : CopyRun}

theorem srcGran {g : List Byte × Bool × State × CopyRun} (h : Kept s t) (hg : t.srcGran k r x n = some g) : Kept s g.2.2.1 := by
  unfold State.srcGran at hg
  split at hg
  case h_3 => exact Option.some.inj hg ▸ h.siteRead
  all_goals
    split at hg
    · exact Option.some.inj hg ▸ h
    dsimp only at hg
    split at hg
    · cases hg
    obtain rfl := Option.some.inj hg
  · exact .ite h.engLearn.granSetFull h.engLearn
  · exact h.engLearn.granSetFull
theorem srcRun {g : SrcGot} {q : Nat × Nat} (h : Kept s g.s) : Kept s (g.run k q).s := foldlOn SrcGot.s _ h fun _ h => by
  dsimp only
  split
  · exact h
  next hg => exact h.srcGran hg
theorem oldByte {a : Nat} (h : Kept s t) : Kept s (t.oldByte k r a).2 := by
  unfold State.oldByte
  dsimp only
  split
  · split
    · exact h
    · exact h.siteRead
  · split
    · exact h
    · exact h.siteRead
theorem dstWrite {q : Nat × CopyPart} (h : Kept s t) : Kept s (t.dstWrite k r q).1 := by
  unfold State.dstWrite
  dsimp only
  split
  · exact h
  · exact h.engGran
  · split
    · exact h
    · split
      · exact h.writeWin
      · exact .foldl _ h fun _ h => h.writeWin

end Kept

/-- What the state that a copy's unit comes to keeps. -/
def KeptMoved (s : State) : Moved → Prop
  | .moved t _ | .waits t _ => Kept s t
  | .faults .. => True

namespace Kept
variable {s t : State} {k n : Nat} {x : CopyRun} {q : Fin 4}

theorem moveUnit (h : Kept s t) : KeptMoved s (t.moveUnit k x) := by
  unfold State.moveUnit
  extract_lets c mv x0 sruns r _ w bs ps e
  split
  · exact h
  · extract_lets runs ms old
    split
    · trivial
    · have hr : Kept s r.s := foldlOn SrcGot.s _ h fun _ h => h.srcRun
      split
      · exact hr
      · show Kept s old.2
        dsimp only [old]
        split
        · exact hr.oldByte
        · exact hr
theorem moveGran (h : Kept s t) : KeptMoved s (t.moveGran n k x) := by
  induction n generalizing t x with
  | zero => exact h
  | succ n ih =>
    unfold State.moveGran
    split
    · split
      · exact h
      · exact h.dstWrite
    · split
      · exact h
      · have hm := h.moveUnit (k := k) (x := x)
        split
        next hu =>
          rw [hu] at hm
          exact ih hm
        · exact hm

/-! ### The copy engine's forms and queues (R205 to R215) -/

variable {h' : Head} {f : CopyFlags} {m : Sems} {hd hs : HIx} {td ts : TIx} {i j : SIx}

theorem pushCopy {y : CopyCmd} (h : Kept s t) : KeptRes s (t.pushCopy y) := h.enginePush (by
  extract_lets seq outb logged t1 v y
  have h1 : Kept s t1 := h.ite h.earlyCommit
  exact h1.engView.modMe.countCmd)
theorem copyForm {op : CpOp} (h : Kept s t) : KeptRes s (t.copyForm op hd hs td ts i j m q f) := by
  unfold State.copyForm
  dsimp only
  split
  · exact h.fault
  · exact h.pushCopy
theorem execFill {bpd dwe evt : Bool} (h : Kept s t) : KeptOut s (execFill h' hd td i m q bpd dwe evt t) := h.issue fun h => by
  dsimp only
  split
  · exact h.fault
  · exact h.pushCopy
theorem tringForm {l : Fin 8} (h : Kept s t) : KeptRes s (t.tringForm l hs ts i j m q f) := by
  unfold State.tringForm
  extract_lets r st g u dst y
  have hu : Kept s u := .ite h.earlyCommit h
  have hp := hu.pushCopy (y := { y with ring := l, panel := g.rtail })
  split
  · exact h.fault
  · split
    · exact h
    · split
      · exact h
      · split
        next hx =>
          rw [hx] at hp
          exact modMe hp
        · exact hp
theorem execCcancel (h : Kept s t) : KeptOut s (execCcancel h' q t) := h.issue1 fun h => h.modMe.orderReads

end Kept

theorem keysRise_acquire {d : Core} (a b : Nat) (h : d.keysRise) : (d.acquire a b).keysRise := coreKeysRise_of_eq h
theorem keysRise_noteAcq {d : Core} (a b : Nat) (v : View) (as : List Nat) (h : d.keysRise) : (d.noteAcq a b v as).keysRise := by
  unfold Core.noteAcq
  split <;> exact h

theorem keysRise_ite {p : Prop} [Decidable p] {c d : Core} (hc : c.keysRise) (hd : d.keysRise) : (if p then c else d).keysRise := by
  split
  · exact hc
  · exact hd

namespace Kept
variable {s t : State} {k n : Nat} {x : CopyRun} {q : Fin 4} {h' : Head}

theorem execEvpop {d e : SIx} (h : Kept s t) : KeptOut s (execEvpop h' d e t) := h.issue fun h => by
  split
  · exact h
  next y r _ =>
    refine orderReads (setS (setS (h.modMe fun c g => ?_)))
    have hc : (y.src.elim c fun k => c.acquire k.1 k.2).keysRise := by
      cases y.src with
      | none => exact g
      | some k => exact keysRise_acquire _ _ g
    exact coreKeysRise_of_eq hc
theorem setRun {y : Option CopyRun} (h : Kept s t) : Kept s (t.setRun k q y) := h.modCore
theorem copyDone (h : Kept s t) : Kept s (t.copyDone k q x) := h.setRun.modCore
theorem execCopyCommand (h : Kept s t) : KeptOut s (execCopyCommand k q t) := by
  refine h.ite ?_
  dsimp only
  split
  · split
    · exact h
    · exact h.ite (h.setCore fun g => coreKeysRise_of_eq (keysRise_core g k))
  next x _ =>
    have hm := h.moveGran (n := 64) (k := k) (x := x)
    refine h.ite (.ite h.setRun.modCore (.ite (.ite h.semTake.setRun h.semTake) (.ite h.copyDone ?_)))
    split
    next hx =>
      rw [hx] at hm
      exact setRun hm
    · exact h.fatalAgent
    next hx =>
      rw [hx] at hm
      exact .ite (copyDone hm) (setRun hm)
theorem execCopyCompletion (h : Kept s t) : KeptOut s (execCopyCompletion k q t) := by
  refine h.ite ?_
  split
  · exact h
  next x _ =>
    extract_lets c e live entry s1 v s2 s3 s4
    have h1 : Kept s s1 := .ite h.engWrite.setPoison h
    have h2 : Kept s s2 := h1.modCore fun _ g => coreKeysRise_of_eq (keysRise_ite (p := entry) (keysRise_noteAcq _ _ _ _ g) g)
    have h3 : Kept s s3 := .ite h2.give h2
    have h4 : Kept s s4 := .ite h3.give h3
    exact h.ite (.ite h.clearRows (.ite h.trigger h4.settle))

end Kept
end Sys2Proof.Proofs
end

section
/-!
PROOFS. What the matrix engine keeps (R237 to R259): accumulators and their snapshots with rising keys.
-/
namespace Sys2Proof.Proofs
open Sys2Proof Sys2Proof.Machine Sys2Proof.Laws

-- One proof after another: side by side, they would wait for one another's equations of the model in a thread each.
set_option Elab.async false

/-! ### Accumulators of a command (R237, R250 to R257) -/

theorem risingFrom_accUpdate {acc : Map Acc} (set : Nat) (ijs : List (Nat × Nat)) (f : Nat → Nat → Nat → Nat × Nat)
    (h : risingFrom 0 acc = true) : risingFrom 0 (accUpdate acc set ijs f).1 = true :=
  ijs.foldlRecOn (motive := fun (m : Map Acc × Nat) => risingFrom 0 m.1 = true) _ h fun _ hm _ _ => rises_mput _ _ _ hm

theorem risingFrom_mmulStep {acc : Map Acc} (w : BitVec 32) (set m n : Nat) (a b : List PRow) (h : risingFrom 0 acc = true) :
    risingFrom 0 (mmulStep w set m n acc a b).1 = true := by
  unfold mmulStep
  extract_lets row d ks sa tb va vb c1 c2 c3
  have hd : risingFrom 0 d.1 = true := risingFrom_accUpdate _ _ _ h
  split
  · exact hd
  · exact risingFrom_accUpdate _ _ _ (risingFrom_accUpdate _ _ _ (risingFrom_accUpdate _ _ _ hd))

/-- A snapshot takes a set's own elements, in order. -/
theorem keysRise_snapSet {d : Core} (n : Fin 4) (ph : Nat) (h : d.keysRise) : (d.snapSet n ph).keysRise := by
  unfold Core.snapSet
  split
  · obtain ⟨hs, ha, hp, hc, hn⟩ := h
    refine ⟨hs, ha, hp, hc, fun e he => ?_⟩
    obtain he | he := List.mem_append.1 he
    · exact hn e he
    · obtain rfl := List.mem_singleton.1 he
      exact ⟨risingFrom_filter _ ha, fun x hx => by simpa using (List.mem_filter.1 hx).2⟩
  · exact h

theorem keysRise_setAcc {d : Core} {acc : Map Acc} (h : d.keysRise) (ha : risingFrom 0 acc = true) :
    ({ d with acc := acc } : Core).keysRise :=
  let ⟨hs, _, hr⟩ := h
  ⟨hs, ha, hr⟩

namespace Kept
variable {s t : State} {k n : Nat} {h' : Head} {x : MxCmd}

theorem pushFmt {w : BitVec 32} (h : Kept s t) : KeptRes s (t.pushFmt w) := h.enginePush h.modMe
theorem execMfmt {a : SIx} (h : Kept s t) : KeptOut s (execMfmt h' a t) := h.issue fun h => by
  dsimp only
  split
  · exact h.fault
  · exact h.pushFmt
theorem execMfmti {w : BitVec 32} (h : Kept s t) : KeptOut s (execMfmti h' w t) := h.issue fun h => h.pushFmt
theorem execMmul {ra rb : Fin 8} {sel : SetSel} {m l : Fin 64} {ks : Fin 1024} {sems : Sems} (h : Kept s t) :
    KeptOut s (execMmul h' ra rb sel m l ks sems t) := h.issue fun h => by
  extract_lets nn ga gb
  split
  · exact h.fault
  · exact h.pushMx
theorem execMzero {acc : Fin 4} (h : Kept s t) : KeptOut s (execMzero h' acc t) := h.issue fun h => h.pushMx

section
variable {acc : Fin 4} {hs : HIx} {tt : TIx} {i j : SIx}

theorem accForm {op : MxOp} (h : Kept s t) : KeptRes s (t.accForm op acc hs tt i j) := by
  unfold State.accForm
  dsimp only
  split
  · exact h.fault
  · have hp := h.pushMx (x := { t.mxCmd op acc with place := t.tensorPlace (t.newH hs) (t.newT tt), shape := t.newT tt, i := t.sr i, j := t.sr j })
    split
    next hx =>
      rw [hx] at hp
      exact .ite (earlyCommit hp) hp
    · exact hp
theorem execAccld (h : Kept s t) : KeptOut s (execAccld h' acc hs tt i j t) := h.issue fun h => h.accForm
theorem execAccst (h : Kept s t) : KeptOut s (execAccst h' acc hs tt i j t) := h.issue fun h => h.accForm

end

theorem setRing {l : Fin 8} {g : Ring} (h : Kept s t) : KeptRes s (t.setRing l g) := by
  unfold State.setRing
  split
  · exact h
  · split
    · exact h.fault
    · exact h.modMe
theorem execRingcfg {l : Fin 8} {a b : SIx} (h : Kept s t) : KeptOut s (execRingcfg h' l a b t) := h.issue fun h => by
  split
  · exact h.fault
  · exact h.setRing
theorem execRingrel {l : Fin 8} (h : Kept s t) : KeptOut s (execRingrel h' l t) := h.issue fun h => h.setRing
theorem execRingq {l : Fin 8} {d : SIx} (h : Kept s t) : KeptOut s (execRingq h' d l t) := h.issue1 fun h => h.setS

/-! ### The matrix engine (R242 to R257) -/

theorem execMatrixCommand (h : Kept s t) : KeptOut s (execMatrixCommand k t) := by
  refine h.ite ?_
  dsimp only
  split
  · exact h.ite (.ite h.semTake.modCore h.semTake)
  · split
    · exact h
    next x r _ =>
      have start {m : Option MxRun} {q : List (BitVec 32 × Nat)} :
          Kept s (t.setCore k { t.core k with q10 := q, q11 := r, mx := m }) :=
        h.setCore fun g => coreKeysRise_of_eq (keysRise_core g k)
      refine .ite start ?_
      split
      · exact .ite h.fatalC h
      · split
        · exact h.fatalC
        · exact start
theorem panelLearn {e : EView} {g : Ring} (h : Kept s t) : Kept s (t.panelLearn k e g n) := h.engLearn
theorem accstWrite {w : BitVec 32} (h : Kept s t) : Kept s (t.accstWrite k x w n) := by
  unfold State.accstWrite
  split
  · exact h
  · exact h.placeWrite
theorem mxStep {m : MxRun} {u : State} (h : Kept s t) (hu : t.mxStep k m = some u) : Kept s u := by
  unfold State.mxStep at hu
  extract_lets c x next ra rb pa pb a b c0 r v key i ty _ _ js o rd c1 _ _ _ _ at hu
  have hn {v : State} {fl : Nat} (h : Kept s v) : Kept s (next v fl) := h.modCore
  have hc (g : t.keysRise) : (c.snapSet x.set x.ph).keysRise := keysRise_snapSet _ _ (keysRise_core g k)
  split at hu
  · have hv : Kept s v := h.panelLearn.panelLearn
    split at hu
    · cases hu
    · split at hu
      · exact Option.some.inj hu ▸ h.trigger
      · exact Option.some.inj hu ▸ hn (h.setCoreOf hv fun g => keysRise_setAcc (hc g) (risingFrom_mmulStep _ _ _ _ _ _ (hc g).2.1))
  · exact Option.some.inj hu ▸ hn (h.setCore fun g => keysRise_setAcc (hc g) (risingFrom_filter _ (hc g).2.1))
  · exact Option.some.inj hu ▸ hn (h.setCore fun g => keysRise_setAcc (hc g) (rises_mput _ _ _ (hc g).2.1))
  · have hr : Kept s rd.2.2 := by
      dsimp only [rd]
      split
      · exact h
      · exact h.placeRead
    split at hu
    · exact Option.some.inj hu ▸ h.fatalC
    · split at hu
      · exact Option.some.inj hu ▸ hr.trigger
      · have hc1 (g : rd.2.2.keysRise) : c1.keysRise := keysRise_snapSet _ _ (keysRise_core g k)
        exact Option.some.inj hu ▸ hn (hr.setCore fun g => keysRise_setAcc (hc1 g) (risingFrom_accUpdate _ _ _ (hc1 g).2.1))
  · split at hu
    · exact Option.some.inj hu ▸ h.fatalC
    · split at hu
      · split at hu
        · cases hu
        · exact Option.some.inj hu ▸ hn h.accstWrite
      · exact Option.some.inj hu ▸ hn h
theorem execKStep (h : Kept s t) : KeptOut s (execKStep k t) := by
  refine h.ite ?_
  split
  · exact h
  next m _ =>
    refine h.ite ?_
    cases hu : t.mxStep k m with
    | none => exact h
    | some u => exact h.mxStep hu
theorem execMatrixRetirement (h : Kept s t) : KeptOut s (execMatrixRetirement k t) := by
  refine h.ite ?_
  split
  · exact h
  · extract_lets x s1 adv s2 s3
    have h1 : Kept s s1 := .ite (.foldl _ h fun _ h => h.accstWrite) h
    have h2 : Kept s s2 := h1.modCore
    have h3 : Kept s s3 := .ite h2.give h2
    exact h.ite h3.modCore.settle
theorem execAccumulatorWindowWrite (h : Kept s t) : KeptOut s (execAccumulatorWindowWrite k t) := h.modCore fun d g => by
  extract_lets go c1
  have h1 : c1.keysRise := go.foldlRecOn (motive := Core.keysRise) _ g fun _ hd _ _ => keysRise_accWindow _ _ hd
  exact coreKeysRise_of_eq h1

end Kept
end Sys2Proof.Proofs
end

section
/-!
PROOFS. What the pool unit keeps (R288 to R307): hot-row ways with rising keys.
-/
namespace Sys2Proof.Proofs
open Sys2Proof Sys2Proof.Machine Sys2Proof.Laws

-- One proof after another: side by side, they would wait for one another's equations of the model in a thread each.
set_option Elab.async false
namespace Kept
variable {s t : State} {k n c m : Nat} {h' : Head} {a d : SIx} {sig : Option (Fin 16)} {e : EView} {p : Place} {bs : List Byte}

/-! ### Parameter blocks, places, queries (R173, R292, R297, R304) -/

theorem withBlock {w : Word} {f : List Word → Res} (h : Kept s t) (hf : ∀ ws, KeptRes s (f ws)) : KeptRes s (t.withBlock w n f) := by
  unfold State.withBlock
  dsimp only
  split
  · exact h.fault
  · split
    · exact h.streamTrigger
    · have hp := hf (wordsOf (n / 8) (t.readTgt t.cur (.loc t.cur w.toNat) false .newest n).data)
      split
      next hx =>
        rw [hx] at hp
        exact learnReads hp
      · exact hp
theorem placeOut (h : Kept s t) : Kept s (t.placeOut k e p n bs) := .ite h.engWrite h.placeWrite
theorem logEngine {agent status p0 p2 p3 : Nat} (h : Kept s t) : Kept s (t.logEngine k agent status p0 p2 p3) := h.logEv
theorem logBad {agent addr : Nat} (h : Kept s t) : Kept s (t.logBad k agent addr) := h.draw.logEv
theorem pushPool {opc sub : Nat} {param : List Word} {l r : Place} {exts : List Nat} (h : Kept s t) :
    KeptRes s (t.pushPool opc sub param l r sig exts) := h.enginePush h.engView.modMe.countCmd
theorem execPool (h : Kept s t) : KeptOut s (execPool h' a sig t) := h.issue fun h => h.withBlock fun ws => by
  split
  · exact h.fault
  · exact h.pushPool
theorem popRes {q : Core → List (Word × Nat)} {cut : Core → Word × Nat → Core} (h : Kept s t)
    (hc : ∀ c x, c.keysRise → (cut c x).keysRise := by exact fun _ _ h => coreKeysRise_of_eq h) : KeptRes s (t.popRes d q cut) := by
  unfold State.popRes
  split
  · exact h
  · exact (h.modMe fun c g => hc c _ g).setS.orderReads
theorem execPoolPop (h : Kept s t) : KeptOut s (execPoolPop h' d t) := h.issue fun h => h.popRes
theorem queryForm (h : Kept s t) : KeptRes s (t.queryForm n m a sig) := by
  unfold State.queryForm
  dsimp only
  split
  · exact h.fault
  · exact h.pushPool
theorem execHotqLook (h : Kept s t) : KeptOut s (execHotqLook h' a sig t) := h.issue fun h => h.queryForm
theorem execHotqFill (h : Kept s t) : KeptOut s (execHotqFill h' a sig t) := h.issue fun h => h.queryForm
theorem execHotqInv (h : Kept s t) : KeptOut s (execHotqInv h' a sig t) := h.issue fun h => h.queryForm
theorem execHotqDrops (h : Kept s t) : KeptOut s (execHotqDrops h' a sig t) := h.issue fun h => h.queryForm
theorem execSkqEst (h : Kept s t) : KeptOut s (execSkqEst h' a sig t) := h.issue fun h => h.queryForm
theorem execSkqClr (h : Kept s t) : KeptOut s (execSkqClr h' a sig t) := h.issue fun h => h.queryForm

/-! ### Sketches, fills and bags (R295, R299 to R302) -/

theorem mapScores {f : Nat → Nat} (h : Kept s t) : Kept s (t.mapScores c n f) := h.setWays fun g => risingFrom_mapKeys _ (fun e => by
  split <;> rfl) g
theorem decayBy (h : Kept s t) : Kept s (t.decayBy c n m) := by
  unfold State.decayBy
  exact h.modCtx.mapScores
theorem decayDue (h : Kept s t) : Kept s (t.decayDue c n) := .ite h.decayBy h
theorem decaysDue (h : Kept s t) : Kept s t.decaysDue := .foldl _ h fun _ h => .foldl _ h fun _ h => h.decayDue
theorem execSketchDecay {c : Fin 8} {tid : Fin 1024} (h : Kept s t) : KeptOut s (execSketchDecay c tid t) := h.decayDue
theorem fillRow {c : Fin 8} {forced : Bool} (h : Kept s t) : Kept s (t.fillRow c n m forced).2 := by
  unfold State.fillRow
  extract_lets x d est a
  split
  · exact h
  · split
    · exact h
    · split
      · exact .snd h.modCtx
      · split
        · exact h
        · exact (h.setWays fun g => rises_mset _ _ g).frame
theorem bagRows {x : PoolRun} (h : Kept s t) : Kept s (t.bagRows k x n).2.2 := by
  unfold State.bagRows
  dsimp only
  split
  · exact h.placeRead
  · split
    · exact h.placeRead
    · split <;> exact h.placeRead.placeRead
theorem bagWork {x : PoolRun} (h : Kept s t) : Kept s (t.bagWork k x).s := by
  unfold State.bagWork
  extract_lets p c tid d oty r zero nan tag
  have hr : Kept s r.2.2 := h.bagRows
  split
  · exact hr.logEngine
  · split
    · exact hr.logBad.logEngine
    · extract_lets
      split
      · exact hr.logBad.logEngine
      · exact hr
theorem bagCount {c : Fin 8} {ps : List Word} {rows : List (Nat × Nat × Option Nat)} (h : Kept s t) : Kept s (t.bagCount c ps rows) := by
  unfold State.bagCount
  extract_lets tid d s1 s2
  have h1 : Kept s s1 := h.decaysDue.modCtx fun _ g =>
    rows.foldlRecOn (motive := CksRise) _ g fun _ g _ _ => cksRise_of_eq g
  have h2 : Kept s s2 := .foldl _ h1 fun _ h => by
    split
    · exact h.setWay
    · exact h
  exact h.ite (.foldl _ h2 fun _ h => h.fillRow)
theorem poolBag {x : PoolRun} (h : Kept s t) : Kept s (t.poolBag k x) :=
  .ite h.clearRows h.bagWork.placeOut.placeOut.bagCount.modCore
theorem poolQuery {x : PoolRun} (h : Kept s t) : Kept s (t.poolQuery k x) := by
  unfold State.poolQuery
  extract_lets c w tid r s1 d est fin f pinned
  have h1 : Kept s s1 := h.decaysDue
  have hf {u : State} {a b : Nat} {e : Bool} (h : Kept s u) : Kept s (fin u a b e) := h.modCore
  refine .ite (hf h1) (.ite (.ite (hf h1) (hf h1.modCtx.mapScores)) (.ite (hf h1) (.ite (hf h1) (.ite ?_ (.ite (hf h1.fillRow) ?_)))))
  · split <;> exact hf h1
  · split
    · exact hf h1
    · split
      · exact hf h1.clearWay
      · exact hf h1
theorem execPoolUnitCommand (h : Kept s t) : KeptOut s (execPoolUnitCommand k t) := by
  refine h.ite ?_
  split
  · split
    · exact h
    · exact h.ite h.modCore
  · exact h.ite (.ite h.poolBag h.poolQuery)
theorem execPoolUnitCompletion (h : Kept s t) : KeptOut s (execPoolUnitCompletion k t) := by
  refine h.ite ?_
  split
  · exact h
  next x _ =>
    extract_lets live d e s1 s2 s3
    have h1 : Kept s s1 := h.modCore fun _ g => coreKeysRise_of_eq (keysRise_ite (p := live) (keysRise_noteAcq _ _ _ _ g) g)
    have h2 : Kept s s2 := .ite h1.give h1
    have h3 : Kept s s3 := by
      dsimp only [s3]
      split
      · exact .ite h2.give h2
      · exact h2
    exact h.ite h3.settle

end Kept
end Sys2Proof.Proofs
end

section
/-!
PROOFS. What the scatter-update engine and the near-memory sequencers keep (R310 to R328).
-/
namespace Sys2Proof.Proofs
open Sys2Proof Sys2Proof.Machine Sys2Proof.Laws

-- One proof after another: side by side, they would wait for one another's equations of the model in a thread each.
set_option Elab.async false
namespace Kept
variable {s t u : State} {k n c m p : Nat} {h' : Head} {a d : SIx} {sig : Option (Fin 16)}

/-! ### Scatter updates (R310 to R318) -/

theorem scForm (h : Kept s t) : KeptRes s (t.scForm n a sig) := h.withBlock fun ws => by
  dsimp only
  split
  · exact h.fault
  · exact h.enginePush h.engView.modMe.countCmd
theorem execScupdSgd (h : Kept s t) : KeptOut s (execScupdSgd h' a sig t) := h.issue fun h => h.scForm
theorem execScupdAdagrad (h : Kept s t) : KeptOut s (execScupdAdagrad h' a sig t) := h.issue fun h => h.scForm
theorem execScupdAdam (h : Kept s t) : KeptOut s (execScupdAdam h' a sig t) := h.issue fun h => h.scForm
theorem gradient {x : ScCmd} (h : Kept s t) : Kept s (t.gradient k x n p).2.2 := h.placeRead
theorem pinRows {x : Tab} {rows : List Nat} (h : Kept s t) : Kept s (t.pinRows c x n rows).1 := by
  unfold State.pinRows
  split
  · exact h
  · exact foldlOn Prod.fst _ h fun _ h => by
      split
      · exact h.setWay
      · exact h
theorem coalesce {x : ScCmd} (h : Kept s t) : Kept s (t.coalesce k x).2 := by
  unfold State.coalesce
  extract_lets c tid d n l ix g lost rows s1 p
  have hl : Kept s l.2.2 := h.placeRead
  split
  · exact hl.logEngine
  · have hg : Kept s g.2.2 := foldlOn (fun y : Map (List (BitVec 32)) × List Nat × State => y.2.2) _ hl fun _ h => h.gradient
    have h1 : Kept s s1 := .foldl _ hg fun _ h => h.logEngine
    exact h1.pinRows
theorem execScatterUpdateCommand (h : Kept s t) : KeptOut s (execScatterUpdateCommand k t) := by
  refine h.ite ?_
  split
  · exact h
  next x r _ =>
    have h1 : Kept s (t.modCore k fun c => { c with q18 := r }) := h.modCore
    exact h.ite (h1.coalesce (x := x)).modCore
theorem commitRow {x : ScRun} {g : List (BitVec 32)} (h : Kept s t) : Kept s (t.commitRow k x n g) :=
  .ite h.rowRelease.logEngine.modCore (.ite h.rowRelease.clearRows h.engLearn.engWrite.engWrite.rowRelease.modCore)
theorem execRowCommit (h : Kept s t) : KeptOut s (execRowCommit k t) := by
  refine h.ite ?_
  split
  · exact h
  · extract_lets c tid d hs pick
    have hp : Kept s pick.2 := by
      dsimp only [pick]
      split
      · exact h
      · exact h.draw
    split
    · exact h
    next r _ =>
      extract_lets mine s1 s2 y s3 a
      have h1 : Kept s s1 := .foldl _ hp fun _ h => h.clearWay
      have h3 : Kept s s3 := h1.unpinWays.modCore
      exact .ite h3.clearRows.rowRelease h3.commitRow
theorem execScatterUpdateCompletion (h : Kept s t) : KeptOut s (execScatterUpdateCompletion k t) := by
  refine h.ite ?_
  split
  · exact h
  next x _ =>
    extract_lets live entry e s1 s2 s3
    have h1 : Kept s s1 := h.modCore fun _ g => coreKeysRise_of_eq (keysRise_ite (p := entry) (keysRise_noteAcq _ _ _ _ g) g)
    have h2 : Kept s s2 := by
      dsimp only [s2]
      split
      · exact .ite h1.give h1
      · exact h1
    have h3 : Kept s s3 := .ite h2.give h2
    exact h.ite h3.settle

/-! ### Near-memory runs (R319 to R328) -/

variable {r : NmRun} {x : NmUnit}

theorem execNmrun (h : Kept s t) : KeptOut s (execNmrun h' a sig t) := h.issue fun h => h.withBlock fun ws => by
  dsimp only
  split
  · exact h.fault
  · exact h.enginePush h.engView.modMe.countCmd
theorem startRun (h : Kept s t) : Kept s (t.startRun r) := h.frame
theorem setUnit (h : Kept s t) : Kept s (t.setUnit n r x) := .ite h.frame h.frame
theorem stopRun (h : Kept s t) : Kept s (t.stopRun r n m p) := h.contextStop
theorem failUnit (h : Kept s t) : Kept s (t.failUnit n r x) := .ite h.clearRows h.clearRows.setPoison.logEv.setUnit
theorem nmIterate (h : Kept s t) : Kept s (t.nmIterate n r x) := by
  unfold State.nmIterate
  extract_lets d c last wb wo o first final skip zero ks reads below a b acc0 va vb acc s0 s1
  have h0 : Kept s s0 := h.engLearn
  have h1 : Kept s s1 := .ite h0.engWrite h0
  exact .ite h.setUnit (.ite h.stopRun (.ite h.failUnit (.ite h.clearRows h1.setUnit)))
theorem loadBase {g : Nat × Nat} (h : Kept s t) : Kept s (t.loadBase n c m g) := h.frame
theorem unitStart (h : Kept s t) : Kept s (t.unitStart n r x) := by
  unfold State.unitStart
  extract_lets y s1 g
  have h1 : Kept s s1 := .ite h h.loadBase
  exact h1.nmIterate
theorem execNearMemoryRun {u : Fin 64} (h : Kept s t) : KeptOut s (execNearMemoryRun u t) := by
  refine h.ite ?_
  extract_lets ks pick
  have hp : Kept s pick.2 := by
    dsimp only [pick]
    split
    · exact h
    · exact h.draw
  split
  · split
    · exact h
    · exact hp.startRun.modCore
  · split
    · exact h
    · exact h.ite (.ite h.unitStart h.nmIterate)
theorem execUnitPause {u : Fin 64} (h : Kept s t) : KeptOut s (execUnitPause u t) := by
  unfold Machine.execUnitPause
  dsimp only [KeptOut]
  split
  · exact h
  · exact h.ite (.ite h.stopRun h.setUnit)
theorem execNearMemoryCompletion (h : Kept s t) : KeptOut s (execNearMemoryCompletion n t) := by
  unfold Machine.execNearMemoryCompletion
  dsimp only [KeptOut]
  split
  · exact h
  next r _ =>
    refine h.ite ?_
    have hm {v : Map NmRun} : Kept s { t with runs := v } := h.frame
    split
    · refine h.ite (.ite hm.settle (give ?_))
      split
      · exact (hm.modCore fun c g => coreKeysRise_of_eq (keysRise_noteAcq _ _ _ _ g)).give
      · exact hm.modCore fun c g => coreKeysRise_of_eq (keysRise_noteAcq _ _ _ _ g)
    next j _ _ =>
      have hj : Kept s (({ t with runs := mdel t.runs n } : State).modCtx r.ctx.val fun x =>
          match mget x.jobs j with
          | some y => { x with jobs := mset x.jobs j { y with dview := y.dview.join (t.engDone r.view) } }
          | none => x) := hm.modCtx fun _ g => by
        split
        · exact cksRise_of_eq g
        · exact g
      refine h.ite ?_
      split
      · exact hj.jobFail
      · exact hj.jobDone
    · exact h
theorem execNmstat (h : Kept s t) : KeptOut s (execNmstat h' d a t) := h.issue1 fun h => h.setS

end Kept
end Sys2Proof.Proofs
end

section
/-!
PROOFS. What Teasel's walks, passing time and Speedwell keep (R330 to R345, R398).
-/
namespace Sys2Proof.Proofs
open Sys2Proof Sys2Proof.Machine Sys2Proof.Laws

-- One proof after another: side by side, they would wait for one another's equations of the model in a thread each.
set_option Elab.async false
namespace Kept
variable {s t u : State} {k n c m p q : Nat} {h' : Head} {a d : SIx} {sig : Option (Fin 16)}

/-! ### Walks (R331 to R335) -/

section
variable {x : WalkRun} {y : WalkCmd} {w : Word}

theorem execIxwalk (h : Kept s t) : KeptOut s (execIxwalk h' a sig t) := h.issue fun h => h.withBlock fun ws => by
  dsimp only
  split
  · exact h.fault
  · exact h.enginePush h.earlyCommit.engView.modMe.countCmd
theorem execIxwalkPop (h : Kept s t) : KeptOut s (execIxwalkPop h' d t) := h.issue fun h => h.popRes
theorem walkEntry (h : Kept s t) : Kept s (t.walkEntry k y n).2 := h.placeRead
theorem segEnd {hi : Nat} {prev : Nat × Nat × Bool} (h : Kept s t) : Kept s (State.segEnd n t k y q hi prev).2 := by
  induction n generalizing t q prev with
  | zero => exact h
  | succ n ih =>
    unfold State.segEnd
    dsimp only
    split
    · exact h
    · split
      · exact h.walkEntry
      · exact ih h.walkEntry
theorem walkRow {pl : Place} (h : Kept s t) : Kept s (t.walkRow k y pl w n).2.2 := by
  unfold State.walkRow
  extract_lets w n r
  show Kept s r.2.2
  dsimp only [r]
  split
  · exact h
  · exact h.placeRead
theorem walkNext (h : Kept s t) : Kept s (t.walkNext k x).2 := by
  unfold State.walkNext
  extract_lets e b q
  have he : Kept s e.2 := h.walkEntry
  have hb : Kept s b.2 := by
    dsimp only [b]
    split
    · exact he
    · exact he.walkEntry
  split
  · exact h
  · split
    · exact hb.logEngine
    · split
      · exact hb.logEngine
      · exact hb.segEnd
theorem walkWrite (h : Kept s t) : Kept s (State.walkWrite n t k x q).2 := by
  induction n generalizing t x with
  | zero => exact h
  | succ n ih =>
    unfold State.walkWrite
    dsimp only
    split
    · exact h
    · exact ih h.walkEntry.walkRow.engGran
theorem setWalk (h : Kept s t) : Kept s (t.setWalk k x) := h.modCore
theorem walkPush (h : Kept s t) : Kept s (t.walkPush k x n) := h.give
theorem walkDeliver (h : Kept s t) : Kept s (t.walkDeliver k x q) := by
  unfold State.walkDeliver
  extract_lets y s1 s2
  have h2 : Kept s s2 := .ite h.walkPush.logEngine h.walkPush
  exact h2.modCore
theorem teaselServe (h : Kept s t) : Kept s (t.teaselServe k) := h.frame
theorem execTeaselSegment (h : Kept s t) : KeptOut s (execTeaselSegment k t) := by
  refine h.ite ?_
  split
  · split
    · exact h
    · exact h.modCore
  · extract_lets room
    split
    · refine h.ite ?_
      extract_lets s1
      have h1 : Kept s s1 := h.walkPush.modCore.teaselServe
      split
      · exact h1.give
      · exact h1
    · exact h.walkNext.setWalk.teaselServe
    · exact .ite h.walkWrite.setWalk (.ite h h.walkDeliver)

end

/-! ### Time (R398) -/

theorem passTime {f : Nat → Bool} (h : Kept s t) : Kept s (t.passTime f n m) := by
  refine h.ite ?_
  have hc : Kept s { t with cores := t.cores.map fun e => (e.1, { e.2 with
      cycle := e.2.cycle + (t.elapsed n m).2, starve := t.starveCount f e.1 e.2 (t.elapsed n m).2 }) } := h.mapCores
  have hx : Kept s { t with
      cores := t.cores.map fun e => (e.1, { e.2 with
        cycle := e.2.cycle + (t.elapsed n m).2, starve := t.starveCount f e.1 e.2 (t.elapsed n m).2 })
      ctxs := t.ctxs.map fun e => (e.1, if t.watched e.1 then { e.2 with wdcnt := e.2.wdcnt + (t.elapsed n m).1 } else e.2) } :=
    hc.mapCtxs (hf := fun _ h => by
      dsimp only
      split
      · exact cksRise_of_eq h
      · exact h)
  exact hx.frame


/-! ### Speedwell (R336 to R345) -/

variable {x : SpRun} {g : Group} {bs : List Byte} {w : Place × Nat × List Byte} {pk : Packet} {v : View}

theorem spForm (h : Kept s t) : KeptRes s (t.spForm n m a sig) := h.withBlock fun ws => by
  split
  · exact h.fault
  · exact h.enginePush h.engView.modMe.countCmd
theorem execA2aIdx (h : Kept s t) : KeptOut s (execA2aIdx h' a sig t) := h.issue fun h => h.spForm
theorem execA2aVec (h : Kept s t) : KeptOut s (execA2aVec h' a sig t) := h.issue fun h => h.spForm
theorem execXredSum (h : Kept s t) : KeptOut s (execXredSum h' a sig t) := h.issue fun h => h.spForm
theorem execXredMin (h : Kept s t) : KeptOut s (execXredMin h' a sig t) := h.issue fun h => h.spForm
theorem execXredMax (h : Kept s t) : KeptOut s (execXredMax h' a sig t) := h.issue fun h => h.spForm
theorem execXput (h : Kept s t) : KeptOut s (execXput h' a sig t) := h.issue fun h => h.spForm
theorem execA2aPop (h : Kept s t) : KeptOut s (execA2aPop h' d t) := h.issue fun h => h.popRes
theorem execXabort (h : Kept s t) : KeptOut s (execXabort h' a t) := h.issue fun h => by
  dsimp only
  split
  · exact h.fault
  · exact h.enginePush h.earlyCommit.abortGroup

theorem modSp {f : SpRun → SpRun} (h : Kept s t) : Kept s (t.modSp k n f) := h.modCore
theorem spEnd {a b : Nat} {e f : Bool} (h : Kept s t) : Kept s (t.spEnd k n a b e f) := by
  have hm : Kept s (t.modSp k n fun x => { x with
    status := a, info := b, mism := e, refused := f, done := true, outq := if a = 0 then x.outq else [] }) := h.modSp
  exact hm.frame
theorem spSend {b : List Byte → PacketBody} (h : Kept s t) : Kept s (t.spSend k x g n bs b) :=
  .ite h (.ite h.spEnd (.foldl _ h fun _ h => h.sendTx))
theorem spReply {b : PacketBody} (h : Kept s t) : Kept s (t.spReply g pk b) := h.toPort
theorem spAll {f : Nat → List Byte} (h : Kept s t) : Kept s (t.spAll k x g f) := .foldl _ h fun _ h => .ite h h.spSend
theorem spDrain (h : Kept s t) : Kept s (State.spDrain n t k m) := by
  induction n generalizing t with
  | zero => exact h
  | succ n ih =>
    unfold State.spDrain
    split
    · exact h
    · split
      · exact h
      · split
        · exact h.fatalAgent
        · extract_lets mine s1
          have h1 : Kept s s1 := h.unpinWays.rowRelease.modSp
          exact .ite (.ite h1.clearRows h1) (ih h1.placeOut.modSp)
theorem spOut {pl : Place} (h : Kept s t) : Kept s (t.spOut k n pl m bs) := h.modSp.spDrain
theorem spSource {y : SpCmd} (h : Kept s t) : Kept s (t.spSource k y n m p).2.2 := h.placeRead.pinWays.modSp
theorem gotPart (h : Kept s t) : Kept s (t.gotPart k n m bs) := h.modSp
theorem takeIdx (h : Kept s t) : Kept s (t.takeIdx k x g n bs) := h.spOut.spOut.gotPart
theorem takeVecs (h : Kept s t) : Kept s (t.takeVecs k x g n bs) := gotPart (.foldl _ h fun _ h => .ite h.spOut h)
theorem reduceOut (h : Kept s t) : Kept s (t.reduceOut k x) := h.spOut
theorem takeRed (h : Kept s t) : Kept s (t.takeRed k x g n bs) := .ite h.gotPart.reduceOut h.gotPart
theorem takeMsg (h : Kept s t) : Kept s (t.takeMsg k x g n bs) := by
  unfold State.takeMsg
  split
  · exact h.takeIdx
  · exact h.takeVecs
  · exact h.takeRed
theorem spCheck (h : Kept s t) : Kept s (t.spCheck k n g) := .ite h.modSp h
theorem holdRx (h : Kept s t) : Kept s (t.holdRx pk) := h.frame
theorem portDropped {q : Fin 8} (h : Kept s t) : Kept s (t.portDropped q) := h.frame
theorem rxPiece {c : Fin 8} (h : Kept s t) : Kept s (t.rxPiece c v w).2 := by
  unfold State.rxPiece
  split
  · exact h.newAgent.memWrite
  · exact .ite h.writeWin h
theorem rxPieces {c : Fin 8} {ws : List (Place × Nat × List Byte)} (h : Kept s t) : Kept s (t.rxPieces c v ws).2 :=
  .foldl_snd _ h fun _ h => h.rxPiece
theorem setRxPut {e : RxPut} (h : Kept s t) : Kept s (t.setRxPut e) := h.frame
theorem takePut {flag : Option (Nat × Word)} (h : Kept s t) : Kept s (t.takePut g pk k n m bs flag) := by
  unfold State.takePut
  extract_lets c
  split
  · exact h.spReply
  · extract_lets e pl ws fs r
    refine h.spReply.ite ?_
    split
    · exact h.contextStopBy
    · exact .ite h.clearRows.holdRx h.rxPieces.rxPieces.setRxPut.spReply
theorem takePart (h : Kept s t) : Kept s (t.takePart k x g pk) := by
  unfold State.takePart
  extract_lets fail t1 key
  split
  · refine .ite h.spReply.spEnd (.ite h.spReply ?_)
    extract_lets y u
    have hu : Kept s u := h.spReply.modSp
    split
    · exact hu
    · exact .ite hu.takeMsg.spCheck hu.spEnd
  · exact h.spEnd
  · exact h
theorem takeAck {r : Bool} (h : Kept s t) : Kept s (t.takeAck g pk r) := by
  unfold State.takeAck
  split
  · exact h
  · extract_lets t1
    have h1 : Kept s t1 := h.frame
    split
    · exact h1
    · exact .ite h1.spEnd (.ite h1.spEnd h1.spCheck)
theorem receive (h : Kept s t) : Kept s (t.receive pk) := by
  unfold State.receive
  extract_lets x
  split
  · exact h.portDropped
  · refine .ite h.portDropped (.ite (.ite h.holdRx h) ?_)
    split
    · exact h.portDropped
    · exact h.takePut
    · exact h.takeAck
    · exact h.takeAck
    · extract_lets u
      have hu : Kept s u := .ite h.adoptAtt h
      exact .ite hu hu.spReply
    · refine .ite h.modCtx ?_
      extract_lets s1 g'
      have h1 : Kept s s1 := .ite h h.adoptAtt
      split
      · exact h1.takePart
      · refine .ite h1.holdRx ?_
        split
        · exact h1
        · exact h1.spReply
theorem redeliver {sel : Packet → Bool} (h : Kept s t) : Kept s (t.redeliver sel) := .foldl _ h.frame fun _ h => h.receive
theorem retryPuts (h : Kept s t) : Kept s t.retryPuts := h.ite h.redeliver
theorem execInboundPacket (h : Kept s t) : KeptOut s (execInboundPacket pk t) := h.ite (.ite h.portDropped h.receive)
theorem execAbortToken {y : Fin 64} {c : Fin 8} {att : BitVec 16} (h : Kept s t) : KeptOut s (execAbortToken y c att t) := by
  refine h.ite ?_
  split
  · exact h
  · exact h.ite h.receive

theorem startIdx (h : Kept s t) : Kept s (t.startIdx k x g) := by
  unfold State.startIdx
  extract_lets ps hash a l b s1 s2
  have hl : Kept s l.2.2 := by
    dsimp only [l]
    split
    · exact h.spSource
    · exact h.spSource.spSource
  exact .ite hl.spEnd hl.spOut.modSp.takeIdx.spAll
theorem vecsFor {off : Nat → Nat} (h : Kept s t) : Kept s (t.vecsFor k x off n m).2.2 :=
  foldlOn (fun a : List Byte × Bool × State => a.2.2) _ h fun _ h => h.spSource
theorem startVec (h : Kept s t) : Kept s (t.startVec k x g) := by
  unfold State.startVec
  extract_lets ps vlen vstr cn counts perm off beyond vs s0 s1
  have hp : Kept s perm.2.2 := h.spSource.spSource
  have hv : Kept s vs.2.2 := foldlOn (fun a : List (List Byte) × Bool × State => a.2.2) _ hp fun _ h => h.vecsFor
  have h1 : Kept s s1 := .foldl _ hv.modSp fun _ h => .ite h.spOut h
  exact .ite hp.fatalAgent (.ite hv.spEnd h1.takeVecs.spAll)
theorem startRed (h : Kept s t) : Kept s (t.startRed k x g) := .ite h.spSource.spEnd h.spSource.takeRed.spAll
theorem startPut (h : Kept s t) : Kept s (t.startPut k x g) := by
  unfold State.startPut
  extract_lets ps a peer buf flag
  have ha : Kept s a.2.2 := h.spSource
  refine .ite ha.spEnd (.ite ?_ ha.spSend)
  split
  · exact ha.spEnd
  · split
    · exact ha.fatalAgent
    · exact (ha.spOut.elim fun _ => ha.spOut.spOut).modSp
theorem execSpeedwellCommand (h : Kept s t) : KeptOut s (execSpeedwellCommand k t) := by
  refine h.ite ?_
  split
  · exact h
  · refine h.ite ?_
    extract_lets c gi
    split
    · exact h.fatalAgent
    · extract_lets y s1 s2 s3
      have h1 : Kept s s1 := h.modCore
      have h2 : Kept s s2 := h1.modCtx
      have h3 : Kept s s3 := by
        dsimp only [s3]
        split
        · exact h2.startIdx
        · exact h2.startVec
        · exact h2.startRed
      exact .ite h1.startPut h3.spCheck.redeliver
theorem execRetransmissionTimeout (h : Kept s t) : KeptOut s (execRetransmissionTimeout n t) := by
  unfold Machine.execRetransmissionTimeout
  dsimp only [KeptOut]
  split
  · exact h
  · refine h.ite (.ite ?_ (toPort h.frame))
    split
    · exact h.spEnd
    · exact h.frame
theorem execCollectiveTimeout (h : Kept s t) : KeptOut s (execCollectiveTimeout k n t) := by
  unfold Machine.execCollectiveTimeout
  dsimp only [KeptOut]
  split
  · exact h
  · split
    · exact h
    · exact h.ite h.spEnd
theorem execSpeedwellCompletion (h : Kept s t) : KeptOut s (execSpeedwellCompletion k n t) := by
  refine h.ite ?_
  split
  · exact h
  next x _ =>
    extract_lets live e g s0 s1 s2 s3
    have h1 : Kept s s1 := h.unpinWays.rowRelease.modCore fun _ gc => by
      extract_lets d
      have hd : d.keysRise := coreKeysRise_of_eq gc
      exact coreKeysRise_of_eq (keysRise_ite (p := live) (keysRise_noteAcq _ _ _ _ hd) hd)
    have h2 : Kept s s2 := .ite h1.give h1
    have h3 : Kept s s3 := by
      dsimp only [s3]
      split
      · exact .ite h2.give h2
      · exact h2
    exact .ite h.spDrain (.ite h h3.settle)

end Kept
end Sys2Proof.Proofs
end

section
/-!
PROOFS. What the aligning forms, the checkpoint and Campion keep (R30 to R52, R274 to R286, R353): a checkpoint's maps are those of its
core, cut; its slot's bytes are cut from memory before they are written.
-/
namespace Sys2Proof.Proofs
open Sys2Proof Sys2Proof.Machine Sys2Proof.Laws

-- One proof after another: side by side, they would wait for one another's equations of the model in a thread each.
set_option Elab.async false

/-! ### Checkpoints (R353, R354) -/

theorem memory_filter_wf {m : List Host.Cell} (p : Host.Cell → Bool) (h : Memory.wf m = true) : Memory.wf (m.filter p) = true := by
  rw [memory_wf_iff] at h ⊢
  exact ⟨risingFrom_filter _ h.1, fun c hc => h.2 c (List.mem_of_mem_filter hc)⟩

theorem keysRise_nextPhase {d : Core} (kend : Bool) (n : Nat) (efp : Map (Bool × Bool)) (h : d.keysRise) :
    (d.nextPhase kend n efp).keysRise :=
  let ⟨hs, ha, hp, hc, _⟩ := h
  ⟨hs, ha, hp, hc, fun _ he => absurd he List.not_mem_nil⟩

/-- A core's checkpoint takes its place among a context's. -/
theorem cksRise_saved {x y : Ctx} {d : Core} {n : Nat} (h : CksRise x) (hd : d.keysRise)
    (hy : y.cks = mset x.cks n d.saved := by rfl) : CksRise y := fun e he => by
  obtain rfl | he := mem_mset (hy ▸ he)
  · exact ⟨risingFrom_filter _ hd.1, risingFrom_filter _ hd.2.1⟩
  · exact h e he

section
variable {x : Ctx} {n m : Nat}

@[simp] theorem gangRelease_cks : (x.gangRelease n m).cks = x.cks := by
  unfold Ctx.gangRelease
  split
  · rfl
  · split <;> rfl
theorem acceptWords_cks : (x.acceptWords n).cks = x.cks := by
  unfold Ctx.acceptWords
  extract_lets v u
  have hu : u.cks = x.cks := by simp [u]
  exact (upto 22 10).foldlRecOn (motive := fun y : Ctx => y.cks = x.cks) _ hu fun y hy a _ => by rw [setCw_cks, hy]
theorem allWhole_cks : (x.allWhole n).cks = x.cks :=
  (upto 0 4).foldlRecOn (motive := fun y : Ctx => y.cks = x.cks) _ rfl fun y hy a _ => by
    split
    · rw [setCf_cks, hy]
    · exact hy
theorem bindAll_cks {h : List Word} {nmsel : Bool} (bs : List Nat) : (x.bindAll n h nmsel bs).1.cks = x.cks := by
  induction bs generalizing x with
  | nil => rfl
  | cons b r ih =>
    unfold Ctx.bindAll
    dsimp only
    split
    · exact ih
    · split
      · exact setCf_cks ..
      · rw [ih, setCf_cks, setCf_cks]
theorem patch_cks {v : Word} : (x.patch n m v).2.cks = x.cks := by
  unfold Ctx.patch
  split
  · rfl
  · split
    · rfl
    · dsimp only
      split
      · exact setCf_cks ..
      · exact setCw_cks ..

end

namespace Kept
variable {s t u : State} {k n c m p : Nat}

theorem writeCkpt {x : Ckpt} (h : Kept s t) : Kept s (t.writeCkpt n x) := h.setAll fun g => memory_filter_wf _ g
/-- A context made from an earlier state's. -/
theorem setCtxOf {x : Ctx} (g : Kept s u) (h : Kept s t) (hx : u.keysRise → CksRise x) : Kept s (t.setCtx c x) :=
  ⟨h.mem, fun gs => (h.setCtx fun _ => hx (g.keys gs)).keys gs⟩
/-- A context rewritten with what an earlier state's keys give. -/
theorem modCtxOf {f : Ctx → Ctx} (g : Kept s u) (h : Kept s t) (hf : u.keysRise → ∀ x, CksRise x → CksRise (f x)) :
    Kept s (t.modCtx c f) := ⟨h.mem, fun gs => (h.modCtx (hf (g.keys gs))).keys gs⟩
theorem takeCkpt (h : Kept s t) : Kept s (t.takeCkpt k n) := by
  unfold State.takeCkpt
  extract_lets d r key s1 pre s2
  have h1 : Kept s s1 := h.modCtxOf h.addStats.writeCkpt fun g x hx =>
    cksRise_saved (x := x.addCf r.card 27 47 32 1) (cksRise_of_eq hx (addCf_cks ..)) (keysRise_core g k) gangRelease_cks
  have h2 : Kept s s2 := .ite h1.logBlock h1
  exact h2.ackRvks.leave.enqueue

/-! ### Aligning forms (R84, R158, R160, R274 to R277) -/

variable {g : Guard}

theorem passAll (h : Kept s t) : Kept s t.passAll := h.modRegs.modMe
theorem aligning {w : State → State} (h : Kept s t) (hw : Kept s (w t)) : Kept s (t.aligning g w) := by
  unfold State.aligning
  split
  · exact .ite hw (.ite h.blocked (.ite h.passAll (.ite h.blocked hw)))
  · exact h.blocked
theorem inWork (h : Kept s t) : Kept s t.inWork := h.blocked
theorem ckptTurn (h : Kept s t) : Kept s t.ckptTurn := by
  refine .ite h.inWork (.ite h.blocked ?_)
  split
  · exact h.blocked
  · exact h.takeCkpt
theorem phaseWork {kend : Bool} (h : Kept s t) : Kept s (t.phaseWork kend) := by
  unfold State.phaseWork
  extract_lets s1 c t1 u v
  have h1 : Kept s s1 := .ite h.modMe h
  have ht : Kept s t1 := h1.publish
  have hu : Kept s u := ht.modMe fun _ => keysRise_nextPhase _ _ _
  have hv : Kept s v := (ite hu.earlyCommit hu).refresh
  exact .ite h.ckptTurn (.ite h1.blocked (.ite h1.blocked (.ite ht.blocked
    (.ite hv.modMe.modMe.blocked (.ite hv.modSt.ckptTurn hv.passAll)))))
theorem execPhase (h : Kept s t) : KeptOut s (execPhase g t) := h.aligning h.phaseWork
theorem execKend (h : Kept s t) : KeptOut s (execKend g t) := h.aligning h.phaseWork
theorem quietWork (h : Kept s t) : Kept s t.quietWork := .ite h.inWork h.modMe.passAll
theorem execQuiet (h : Kept s t) : KeptOut s (execQuiet g t) := h.aligning h.quietWork
theorem logFlag (h : Kept s t) : Kept s (t.logFlag n) := h.logEv
theorem trapfWork (h : Kept s t) : Kept s t.trapfWork := by
  unfold State.trapfWork
  extract_lets d f
  refine .ite h.blockFail ?_
  split
  · exact h.blockFail
  · exact passAll (.foldl _ h fun _ h => h.logFlag)
theorem execTrapf (h : Kept s t) : KeptOut s (execTrapf g t) := h.aligning h.trapfWork

end Kept

/-! ### Campion (R30 to R52, R284 to R286) -/

/-- What the state that a request to arm comes to keeps. -/
def KeptArm (s : State) : ArmOut → Prop
  | .answer _ t | .stopped t => Kept s t
  | .wait => True

namespace Kept
variable {s t u : State} {k n c m p : Nat} {v : View} {j : Job} {nmsel : Bool}

theorem allocTags {hd : List Word} (h : Kept s t) : Kept s (t.allocTags c n hd nmsel) := by
  unfold State.allocTags
  dsimp only
  split
  · exact h
  · split
    · exact h.modCtx fun _ g => cksRise_of_eq g (by simp)
    next b _ =>
      exact (frame (u := { t with tags := _ }) h).modCtx fun _ g => cksRise_of_eq g (by simp)
theorem placeLinks {ls : List Link} (h : Kept s t) : Kept s (State.placeLinks ls t) := by
  induction ls generalizing t with
  | nil => exact h
  | cons l r ih => exact ih h.draw.frame
theorem createJob (h : Kept s t) : Kept s (t.createJob c n j nmsel) := by
  unfold State.createJob
  extract_lets blocks span l1 s1 ls recs s2
  have h1 : Kept s s1 := .ite h (h.modCtx fun _ g => cksRise_of_eq g allWhole_cks)
  have h2 : Kept s s2 := h1.placeLinks.modCtx fun _ g => cksRise_of_eq g (by simp)
  exact h2.enqueueAll
theorem armFatal {a b : Nat} (h : Kept s t) : Kept s (t.armFatal c n k a b) := h.contextStop
theorem acceptKernel {intens : Nat} (h : Kept s t) : Kept s (t.acceptKernel c n j intens nmsel v) := by
  unfold State.acceptKernel
  extract_lets j' s1 b s2 s3
  have h1 : Kept s s1 := h.modCtx fun _ g => cksRise_of_eq g (by simp [acceptWords_cks])
  have h2 : Kept s s2 := h1.setCtx fun g => cksRise_of_eq (keysRise_ctx g c) (bindAll_cks _)
  have h3 : Kept s s3 := h2.allocTags
  exact .ite h2.jobFail (.ite (h3.modCtx fun _ g => cksRise_of_eq g (by simp)).jobDone h3.createJob)
theorem nodeEnd {loop : Bool} (h : Kept s t) : Kept s (t.nodeEnd c n m loop) := by
  unfold State.nodeEnd
  extract_lets s1
  have h1 : Kept s s1 := h.modCtx fun _ g => cksRise_of_eq g (by simp)
  exact .ite h.jobDone (.ite h1.frame h1)
theorem armCard {f : Nat} (h : Kept s t) : KeptArm s (State.armCard f t c n v k) := by
  induction f generalizing t n with
  | zero => exact h
  | succ f ih =>
    unfold State.armCard
    split
    · exact h
    · split
      · split
        · exact h.armFatal
        · trivial
        · exact h.acceptKernel
      · split
        · exact h.armFatal
        · extract_lets s1 w
          have h1 : Kept s s1 := h.modCtx fun _ g => cksRise_of_eq g (by simp [acceptWords_cks])
          split
          · exact h1.jobFail
          · extract_lets ch s2
            have h2 : Kept s s2 := .ite (h1.modCtx fun _ g => cksRise_of_eq g (by simp)) h1
            have ha := ih (n := ch.1) h2
            split
            · exact h2.nodeEnd
            · split
              · trivial
              next hx => rw [hx] at ha; exact ha
              next hx => rw [hx] at ha; exact nodeEnd ha
              next hx => rw [hx] at ha; exact jobFail ha
theorem nodeAgain (h : Kept s t) (hu : t.nodeAgain c n = some u) : Kept s u := by
  unfold State.nodeAgain at hu
  extract_lets x w tgt at hu
  split at hu
  · exact Option.some.inj hu ▸ h
  · split at hu
    · exact Option.some.inj hu ▸ h.jobFail
    · split at hu
      · exact Option.some.inj hu ▸ h
      · split at hu
        · exact Option.some.inj hu ▸ h.jobFail
        · extract_lets ch s1 at hu
          have h1 : Kept s s1 := .ite (h.modCtx fun _ g => cksRise_of_eq g (by simp)) h
          split at hu
          · exact Option.some.inj hu ▸ h1.nodeEnd
          · have ha := h1.armCard (f := 4097) (c := c) (n := ch.1) (k := 0)
              (v := (mgetD x.dviews tgt []).join ((mget x.jobs n).elim [] fun j => j.view))
            split at hu
            · cases hu
            next hx => rw [hx] at ha; exact Option.some.inj hu ▸ ha
            next hx => rw [hx] at ha; exact Option.some.inj hu ▸ nodeEnd ha
            next hx => rw [hx] at ha; exact Option.some.inj hu ▸ jobFail ha
theorem reevaluate (h : Kept s t) : Kept s (State.reevaluate n t) := by
  induction n generalizing t with
  | zero => exact h
  | succ n ih =>
    unfold State.reevaluate
    split
    · exact h
    next e _ =>
      split
      · exact h
      next hu => exact ih (nodeAgain (frame (u := { t with reev := _ }) h) hu)
theorem campionEnd (h : Kept s t) : Kept s t.campionEnd := h.reevaluate
theorem answerC {d : SIx} {w : Word} (h : Kept s t) : Kept s (t.answerC k d w) := h.modCore fun _ g =>
  keysRise_ite (coreKeysRise_of_eq g) g
theorem answerAcquire (h : Kept s t) : Kept s (t.answerAcquire k v) := h.learn.refresh.modCore
theorem dropReq (h : Kept s t) : Kept s (t.dropReq k) := h.modCore
theorem refusalEntry (h : Kept s t) : Kept s (t.refusalEntry c n m) := h.cqPut
theorem hostArm (h : Kept s t) : Kept s (t.hostArm c) := by
  unfold State.hostArm
  split
  · exact h
  next a _ =>
    extract_lets s1
    have h1 : Kept s s1 := h.frame
    have ha := h1.armCard (f := 4097) (c := c) (n := a.2.1) (k := 0) (v := View.put [] hostAgent a.2.2)
    refine h.ite ?_
    split
    · exact h
    next hx => rw [hx] at ha; exact ha
    next hx => rw [hx] at ha; exact campionEnd ha
    next hx => rw [hx] at ha; exact refusalEntry ha
theorem coreArm (h : Kept s t) : Kept s (t.coreArm k) := by
  unfold State.coreArm
  split
  next a d v _ _ =>
    have ha := h.dropReq (k := k).armCard (f := 4097) (c := (t.core k).res.ctx.val) (n := a) (v := v) (k := k)
    split
    · exact h
    next hx => rw [hx] at ha; exact ha
    next hx => rw [hx] at ha; exact campionEnd (answerC ha)
  · exact h
theorem execArmRequest {x : Fin 8} {core : Option Nat} (h : Kept s t) : KeptOut s (execArmRequest x core t) := by
  unfold Machine.execArmRequest
  dsimp only [KeptOut]
  split
  · exact .ite h.hostArm h
  · exact .ite h.coreArm h
theorem execPatchRequest (h : Kept s t) : KeptOut s (execPatchRequest k t) := by
  unfold Machine.execPatchRequest
  dsimp only [KeptOut]
  split
  · exact .ite (answerC (h.setCtxOf h.dropReq fun g => cksRise_of_eq (keysRise_ctx g _) patch_cks)) h
  · exact h
theorem execCampionAnswer (h : Kept s t) : KeptOut s (execCampionAnswer k t) := by
  refine h.ite ?_
  extract_lets r x
  split
  · exact .ite h.dropReq.answerC.answerAcquire h.dropReq.answerC
  · exact .ite h.dropReq.answerC.answerAcquire h.dropReq.answerC
  · exact h
theorem execTagPublication (h : Kept s t) : KeptOut s (execTagPublication k t) := by
  refine h.ite ?_
  extract_lets u
  have hu : Kept s u := h.dropReq
  split
  · exact hu.elim fun _ => hu.publishTile
  · exact hu.elim fun _ => hu.publishPending
  · exact hu.elim fun _ => hu.tagPend
  · exact h
theorem execVariantRunStart {x : Fin 8} {card : Fin 4096} (h : Kept s t) : KeptOut s (execVariantRunStart x card t) := by
  unfold Machine.execVariantRunStart
  dsimp only [KeptOut]
  split
  · exact h
  · refine h.ite ?_
    split
    · exact h.contextStop
    · exact startRun (h.newAgent.modCtx fun _ g => cksRise_of_eq g (by simp))

end Kept
end Sys2Proof.Proofs
end

section
/-!
PROOFS. What placement, launch, retirement and pre-emption keep (R12, R17, R36, R58 to R69, R351 to R357, R392 to R396): a resumed core
has its checkpoint's maps.
-/
namespace Sys2Proof.Proofs
open Sys2Proof Sys2Proof.Machine Sys2Proof.Laws

-- One proof after another: side by side, they would wait for one another's equations of the model in a thread each.
set_option Elab.async false

theorem keysRise_freshStart (c : Core) (b : Resident) (j : Job) (v : View) (n : Nat) : (c.freshStart b j v n).keysRise :=
  coreKeysRise_of_eq coreKeysRise_init

theorem keysRise_resume (c : Core) (b : Resident) {x : Ckpt} (v : View) (n : Nat)
    (h : risingFrom 0 x.scr = true ∧ risingFrom 0 x.acc = true) : (c.resume b x v n).keysRise :=
  ⟨h.1, h.2, rfl, fun _ he => absurd he List.not_mem_nil, fun _ he => absurd he List.not_mem_nil⟩

/-- A context that gives up a checkpoint, or keeps them all. -/
theorem cksRise_mdel {x y : Ctx} (o : Option Nat) (h : CksRise x) (hy : y.cks = o.elim x.cks fun n => mdel x.cks n := by rfl) :
    CksRise y := fun e he => h e (by
  rw [hy] at he
  cases o with
  | none => exact he
  | some n => exact mem_mdel he)

namespace Kept
variable {s t u : State} {k n c m p lvl : Nat} {e : REntry}

theorem grantFor (h : Kept s t) : Kept s (t.grantFor c n m p).2 := by
  unfold State.grantFor
  split
  · exact h
  · exact h.draw
theorem reserve (h : Kept s t) : Kept s t.reserve := by
  unfold State.reserve
  split
  · exact h
  · exact h.ite (h.ite h.frame)
theorem retranslateAll (h : Kept s t) : Kept s (t.retranslateAll k) := by
  unfold State.retranslateAll
  split
  · exact h.modCore
  · exact h.modCore
theorem cutHist (h : Kept s t) : Kept s (t.cutHist k) := h.frame
/-- A core rewritten with what an earlier state's keys give. -/
theorem modCoreOf {f : Core → Core} (g : Kept s u) (h : Kept s t) (hf : u.keysRise → ∀ d, d.keysRise → (f d).keysRise) :
    Kept s (t.modCore k f) := ⟨h.mem, fun gs => (h.modCore (hf (g.keys gs))).keys gs⟩
theorem startBlock (h : Kept s t) : Kept s (t.startBlock c n k) := by
  unfold State.startBlock
  extract_lets x
  split
  · exact h
  next r _ =>
    split
    · exact h
    next j _ =>
      extract_lets ck line pos err llc frame s1
      have h1 : Kept s s1 := h.cutHist.modCtx fun y g => cksRise_mdel r.ckpt g (by
        dsimp only
        split <;> simp)
      split
      · exact h.contextStop
      · extract_lets b s2
        have h2 : Kept s s2 := h1.modCore fun d _ => keysRise_freshStart d ..
        cases hz : ck with
        | some z =>
          have hck (g : t.keysRise) : risingFrom 0 z.scr = true ∧ risingFrom 0 z.acc = true := by
            obtain ⟨i, _, hi⟩ := Option.bind_eq_some_iff.1 hz
            exact keysRise_ctx g c _ (mem_of_mget hi)
          exact retranslateAll (modCore (h.modCoreOf h1 fun g d _ => coreKeysRise_of_eq (keysRise_resume d b r.view t.wseq (hck g))))
        | none =>
          dsimp only
          split
          · exact h2.contextStop
          · exact h2
theorem placeGang (h : Kept s t) : Kept s (t.placeGang c n m p) := by
  unfold State.placeGang
  exact h.grantFor.modCtx
theorem unqueue (h : Kept s t) : Kept s (t.unqueue lvl e) := by
  have hc : Kept s { t with cores := t.cores.map fun x => (x.1, if x.2.heldFor = some e.name then { x.2 with heldFor := none } else x.2) } :=
    h.mapCores (hf := fun _ g => by
      dsimp only
      split
      · exact coreKeysRise_of_eq g
      · exact g)
  exact hc.frame
theorem staleFault (h : Kept s t) : Kept s (t.staleFault e k) := by
  unfold State.staleFault
  extract_lets c x ev s1
  have h1 : Kept s s1 := h.logEv.modCtx fun _ g => cksRise_of_eq g (by
    unfold Ctx.fillErr
    split <;> rfl)
  exact h1.jobFail.campionEnd
theorem placeEntry {ks : List Nat} (h : Kept s t) : Kept s (t.placeEntry lvl e ks) :=
  .ite h.unqueue.staleFault (.foldl _ h.unqueue.placeGang fun _ h => h.ite h.startBlock)
theorem placeNext {gang : Bool} (h : Kept s t) : Kept s (t.placeNext gang) := by
  unfold State.placeNext
  extract_lets s1
  have h1 : Kept s s1 := h.reserve
  split
  · exact .ite h1.placeEntry h1
  · exact h1
theorem execLaunch (h : Kept s t) : KeptOut s (execLaunch t) := h.ite h.placeNext
theorem execGangPlacement (h : Kept s t) : KeptOut s (execGangPlacement t) := h.ite h.placeNext
theorem ageEntry (h : Kept s t) : Kept s (t.ageEntry lvl e) := by
  unfold State.ageEntry
  extract_lets i s1
  have h1 : Kept s s1 := h.frame
  exact h1.modCtx.appendReady
theorem execAging (h : Kept s t) : KeptOut s (execAging t) := h.ite (.foldl _ h fun _ h => h.ageEntry)

/-! ### Retirement, watchdog, starvation (R350, R359, R392 to R396) -/

theorem gangRejoin (h : Kept s t) : Kept s (t.gangRejoin c n m) := by
  unfold State.gangRejoin
  split
  · exact h
  · exact h.enqueue
theorem retire (h : Kept s t) : Kept s (t.retire k) := by
  unfold State.retire
  extract_lets d r x gone s1 s2 s3 s4
  have h2 : Kept s s2 := frame (h.addStats.ackRvks (k := k))
  have h3 : Kept s s3 := h2.modCtx fun _ g => cksRise_of_eq g (by simp)
  have h4 : Kept s s4 := h3.gangLeave.leave.modCtx fun _ g => cksRise_of_eq g (by simp)
  exact .ite h4.jobDone.campionEnd h4.gangRejoin
theorem execBlockRetirement (h : Kept s t) : KeptOut s (execBlockRetirement k t) := h.ite h.retire
theorem execWatchdogExpiry {x : Fin 8} (h : Kept s t) : KeptOut s (execWatchdogExpiry x t) := by
  refine h.ite ?_
  split
  · exact h
  · exact h.contextStop
theorem execQueueStarvation (h : Kept s t) : KeptOut s (execQueueStarvation k t) := h.ite h.contextStop

/-! ### Pre-emption (R351, R352) -/

variable {v : Victims}

theorem logChoice {a : PreAct} (h : Kept s t) : Kept s (t.logChoice e k a) := h.logEv
theorem takeVictims (h : Kept s t) : Kept s (t.takeVictims e v) := by
  unfold State.takeVictims
  extract_lets ks s1 target s2
  have h1 : Kept s s1 := .foldl _ (h.modCtx fun _ g => cksRise_of_eq g (by simp [Ctx.spend])) fun _ h => h.logChoice
  have h2 : Kept s s2 := .foldl _ h1 fun _ h => h.modCore
  split
  · exact h2.killGang
  · exact h2
theorem takeMany {dies : List Nat} (h : Kept s t) : Kept s (State.takeMany n t lvl e dies) := by
  induction n generalizing t with
  | zero => exact h
  | succ n ih =>
    unfold State.takeMany
    split
    · exact h
    · split
      · exact h
      · exact ih h.takeVictims
theorem preemptLevel (h : Kept s t) : Kept s (t.preemptLevel lvl) := by
  unfold State.preemptLevel
  split
  · exact h
  · exact h.takeMany
theorem execPreemption (h : Kept s t) : KeptOut s (execPreemption t) := h.ite (.foldl _ h fun _ h => h.preemptLevel)

end Kept
end Sys2Proof.Proofs
end

section
/-!
PROOFS. What revocations, leases and the command processor keep (R166 to R179, R288, R309, R337, R338, R382, R383, R391, R404).
-/
namespace Sys2Proof.Proofs
open Sys2Proof Sys2Proof.Machine Sys2Proof.Laws

-- One proof after another: side by side, they would wait for one another's equations of the model in a thread each.
set_option Elab.async false
namespace Kept
variable {s t u : State} {k n c m a b : Nat}

/-! ### Revocations (R177 to R179, R309, R326) -/

theorem reachCore (h : Kept s t) : Kept s (t.reachCore n k) := by
  unfold State.reachCore
  extract_lets d r ev s1 ks target
  have h1 : Kept s s1 := h.logEv.modCore
  exact .ite h1 (.foldl _ h1 fun _ h => h.modCore fun _ g => by
    split
    · exact g
    · exact coreKeysRise_of_eq g)
theorem revoke {new : Option Extent} {slot : Option (Nat × Word)} {keep : Bool} (h : Kept s t) : Kept s (t.revoke c n new slot keep) := by
  unfold State.revoke
  extract_lets s0 s1
  have h0 : Kept s s0 := h.modCtx
  have h1 : Kept s s1 := h0.mapCores (hf := fun _ g => by
    split
    · exact coreKeysRise_of_eq g
    · exact g)
  exact .foldl _ h1 fun _ h => h.reachCore
theorem reload (h : Kept s t) : Kept s (t.reload c n) := .foldl _ h fun _ h => by
  split
  · exact h.loadBase
  · exact h.frame
theorem unpause (h : Kept s t) : Kept s (t.unpause c n) := by
  unfold State.unpause
  extract_lets s1 x s2
  have h1 : Kept s s1 := h.reload
  have h2 : Kept s s2 := h1.frame
  refine .foldl _ h2 fun {v} q h => ?_
  split
  · extract_lets w
    have hw : Kept s w := by
      dsimp only [w]
      split
      · exact .ite h h.loadBase
      · exact h
    exact .ite hw.setUnit h
  · exact h
theorem withdrawLost (h : Kept s t) : Kept s (t.withdrawLost c n) := .foldl _ h fun _ h => h.logEv.modCtx
theorem retryWaiting (h : Kept s t) : Kept s (t.retryWaiting c) := .foldl _ h fun _ h => .ite h.modCore h.modCore.retranslateAll
theorem respond {w : Word} (h : Kept s t) : Kept s (t.respond a w n m) := .ite h.loneWrite.raiseMod h.loneWrite
theorem endRevocation {v : Revoc} (h : Kept s t) : Kept s (t.endRevocation c v) := by
  unfold State.endRevocation
  extract_lets old clear s1 s2
  have h1 : Kept s s1 := h.modCtx fun x g => by
    have hx : CksRise { x with cks := x.cks.map fun k => (k.1, { k.2 with revoked := v.ext :: k.2.revoked }) } := fun e he => by
      obtain ⟨y, hy, rfl⟩ := List.mem_map.1 he
      exact g y hy
    dsimp only
    split <;> exact cksRise_of_eq hx
  have h2 : Kept s s2 := (ite h1 h1.withdrawLost).unpause.retryWaiting
  split
  · exact h2.respond
  · exact h2
theorem ackEarly (h : Kept s t) : Kept s (t.ackEarly n k) := by
  unfold State.ackEarly
  extract_lets s1
  have h1 : Kept s s1 := .foldl _ h fun _ h => .ite h.logEv h
  exact h1.modCore
theorem execRevocationComplete {x : Fin 8} {e : Fin 16384} (h : Kept s t) : KeptOut s (execRevocationComplete x e t) := by
  unfold Machine.execRevocationComplete
  dsimp only [KeptOut]
  split
  · exact h
  · exact h.ite (endRevocation (.foldl _ h fun _ h => h.ackEarly))
theorem execRevocationPhaseLimit (h : Kept s t) : KeptOut s (execRevocationPhaseLimit k t) := h.ite (.ite h.killGang h.contextStop)
theorem execTranslationFaultAnswer {retry : Bool} (h : Kept s t) : KeptOut s (execTranslationFaultAnswer k retry t) := by
  unfold Machine.execTranslationFaultAnswer
  dsimp only [KeptOut]
  split
  · exact h
  · exact h.ite (.ite h.contextStop (.ite h.modCore h.modCore.retranslateAll))
theorem lapse (h : Kept s t) : Kept s (t.lapse c n) := by
  unfold State.lapse
  extract_lets s1
  have h1 : Kept s s1 := h.frame
  exact .foldl _ h1 fun _ h => h.revoke
theorem execLeaseLapse {ch : Fin 64} (h : Kept s t) : KeptOut s (execLeaseLapse ch t) := by
  unfold Machine.execLeaseLapse
  dsimp only [KeptOut]
  split
  · exact h
  · exact h.ite h.lapse

end Kept

/-! ### Requests (R404) -/

/-- What the state that a request comes to keeps. -/
def KeptReq (s : State) (x : Option (Nat × Nat) × State) : Prop := Kept s x.2
theorem KeptReq.ite {s : State} {p : Prop} [Decidable p] {x y : Option (Nat × Nat) × State} (h : KeptReq s x) (g : KeptReq s y) :
    KeptReq s (if p then x else y) := by
  split
  · exact h
  · exact g

namespace Kept
variable {s t u : State} {k n c m a b : Nat} {r : Nat × List Word} {op : Nat → Bool}

theorem handle {f : List Word → State → Option (Nat × Nat) × State} (h : Kept s t) (hf : ∀ w, KeptReq s (f w t)) :
    Kept s (t.handle r f) := by
  unfold State.handle
  dsimp only
  split
  · exact h.respond
  · split
    · exact h.respond
    · have hw := hf r.2
      split
      next hx => rw [hx] at hw; exact hw
      next hx => rw [hx] at hw; exact respond hw
theorem passRestores (h : Kept s t) : Kept s (State.passRestores n t) := by
  induction n generalizing t with
  | zero => exact h
  | succ n ih =>
    unfold State.passRestores
    split
    · exact .ite (ih h.frame) h
    · exact h
theorem request {f : Nat → List Word → State → Option (Nat × Nat) × State} (h : Kept s t)
    (hf : ∀ {a u} w, Kept s u → KeptReq s (f a w u)) : KeptOut s (t.request op f) := by
  refine h.ite ?_
  split
  next r _ =>
    have h1 : Kept s { t with waitReq := t.waitReq.erase r } := h.frame
    exact h1.handle fun w => hf w h1
  · refine h.ite ?_
    extract_lets u v
    have hu : Kept s u := .ite h h.passRestores
    have hv : Kept s v := hu.frame
    split
    · exact h
    · exact h.ite (.ite hv.frame (hv.handle fun w => hf w hv))
theorem done (h : Kept s t) : KeptReq s (done n t) := h
theorem okIf {ok : Bool} (h : Kept s t) (g : Kept s u) : KeptReq s (okIf ok t u) := by
  unfold Machine.okIf
  split
  · exact g
  · exact h
theorem execCreateContext (h : Kept s t) : KeptOut s (execCreateContext t) := h.request fun w h => by
  refine .ite h.done (.ite h.done (.ite h.done ?_))
  split
  · exact h.setCtx fun _ => cksRise_of_eq cksRise_init
  · exact h.done
theorem dropCtx (h : Kept s t) : Kept s (t.dropCtx c) := by
  unfold State.dropCtx
  extract_lets t1
  have h1 : Kept s t1 := .foldl _ h fun _ h => h.elim fun _ => h.respond
  have hx : Kept s { t1 with ctxs := mdel t1.ctxs c } := h1.of_keys rfl fun ⟨gw, gc, gx⟩ => ⟨gw, gc, fun e he => gx e (mem_mdel he)⟩
  have hw : Kept s { t1 with ctxs := mdel t1.ctxs c, ways := t1.ways.filter fun w => w.2.ctx.val != c } :=
    hx.setWays fun g => risingFrom_filter _ g
  exact hw.mapCores (hf := fun _ g => by
    split
    · exact coreKeysRise_of_eq g
    · exact g)
theorem execDestroyContext (h : Kept s t) : KeptOut s (execDestroyContext t) := h.request fun w h => by
  exact dropCtx (.ite h.logEv.stopWork h)
theorem execWriteExtent (h : Kept s t) : KeptOut s (execWriteExtent t) := h.request fun w h => by
  dsimp only
  split
  · exact h
  · split
    · exact h.revoke
    · exact done h.modCtx
theorem execRevokeExtent (h : Kept s t) : KeptOut s (execRevokeExtent t) := h.request fun w h => by
  dsimp only
  split
  · exact h
  · split
    · split
      · exact h
      · exact h.revoke
    · split
      · exact h
      · exact h.revoke
theorem execLeaseChannel (h : Kept s t) : KeptOut s (execLeaseChannel t) := h.request fun {_ v} w h => by
  have hl {l : Map Lease} : Kept s { v with leases := l } := h.frame
  dsimp only
  split
  · exact h
  · split
    · exact h.okIf hl
    · split
      · exact h.okIf hl
      · split
        · exact h
        · exact hl
theorem execEndLease (h : Kept s t) : KeptOut s (execEndLease t) := h.request fun {_ v} w h => by
  have hl {l : Map Lease} : Kept s { v with leases := l } := h.frame
  dsimp only
  split
  · exact h
  · split
    · exact h
    · exact done (.ite hl hl.lapse)
theorem execDesignateNearMemoryRegion (h : Kept s t) : KeptOut s (execDesignateNearMemoryRegion t) :=
  h.request fun w h => h.okIf h.modCtx.unpause
theorem execWriteTableDescriptor (h : Kept s t) : KeptOut s (execWriteTableDescriptor t) :=
  h.request fun w h => h.okIf h.clearWays.modCtx
theorem execRegisterExchangeGroup (h : Kept s t) : KeptOut s (execRegisterExchangeGroup t) :=
  h.request fun w h => h.okIf h.modCtx
theorem execRegisterInboundBuffer (h : Kept s t) : KeptOut s (execRegisterInboundBuffer t) :=
  h.request fun w h => h.okIf h.modCtx
theorem failDevice (h : Kept s t) : Kept s (t.failDevice n) := .foldl _ h fun _ h => h.ite (by
  split
  · exact h.spEnd
  · exact h.frame)
theorem execWritePeerEntry (h : Kept s t) : KeptOut s (execWritePeerEntry t) := h.request fun {_ v} w h => by
  have hp {x : Map (List Word)} : Kept s { v with peers := x } := h.frame
  exact h.okIf (.ite hp hp.failDevice)
theorem execWriteMustSaveEntry (h : Kept s t) : KeptOut s (execWriteMustSaveEntry t) := h.request fun w h => by
  dsimp only
  split
  · exact h
  · split
    · exact h
    · split
      · split
        · exact h
        · exact done h.modCtx
      · split
        · exact h
        · exact done h.modCtx
theorem execWithdrawMustSaveEntry (h : Kept s t) : KeptOut s (execWithdrawMustSaveEntry t) :=
  h.request fun w h => h.okIf h.modCtx
theorem winVia {bs : List Byte} (h : Kept s t) : Kept s (t.winVia c n bs) := .foldl _ h fun _ h => by
  split
  · exact .ite h.writeWin h
  · exact h
theorem cpWrite {cells : List Host.Cell} (h : Kept s t) : KeptReq s (t.cpWrite r cells) := by
  unfold State.cpWrite
  split
  · exact h.frame
  · exact h.hostWrite
theorem execCopyRecoveryReport (h : Kept s t) : KeptOut s (execCopyRecoveryReport t) := h.request fun w h => by
  dsimp only
  split
  · exact h
  · split
    · exact h
    · exact h.cpWrite
theorem execRestoreSavedEntry (h : Kept s t) : KeptOut s (execRestoreSavedEntry t) := h.request fun w h => by
  dsimp only
  split
  · exact h
  · split
    · exact h
    · split
      · exact h.cpWrite.winVia
      · exact h.cpWrite
theorem execWriteBootParameters (h : Kept s t) : KeptOut s (execWriteBootParameters t) := h.request fun w h => h.okIf h.frame
theorem execUnknownRequest (h : Kept s t) : KeptOut s (execUnknownRequest t) := h.request fun _ h => h

end Kept
end Sys2Proof.Proofs
end

section
/-!
PROOFS. What hold-up, faults of parts, boot and the host's accesses keep (R39 to R42, R265, R346, R359 to R362, R371 to R377, R384 to R401):
power-off leaves the host's memory alone, and a boot's cores are fresh.
-/
namespace Sys2Proof.Proofs
open Sys2Proof Sys2Proof.Machine Sys2Proof.Laws

-- One proof after another: side by side, they would wait for one another's equations of the model in a thread each.
set_option Elab.async false

theorem keysRise_reset : State.reset.keysRise := ⟨rfl, fun _ h => absurd h List.not_mem_nil, fun _ h => absurd h List.not_mem_nil⟩

theorem keysRise_bootCores {s : State} {b : BootInput} {e : Nat × Core} (h : e ∈ s.bootCores b) : e.2.keysRise := by
  have row {ks : List Nat} {g : List Nat} (h : e ∈ ks.zip (g.map bootCore)) : e.2.keysRise := by
    obtain ⟨n, _, hn⟩ := List.mem_map.1 (List.of_mem_zip h).2
    exact hn ▸ coreKeysRise_of_eq coreKeysRise_init
  obtain h | h := List.mem_append.1 h
  · exact row h
  · exact row h

namespace Kept
variable {s t u : State} {k n c m : Nat}

/-! ### Hold-up (R384 to R388, R397, R399) -/

variable {h' : Hold} {x : SaveItem}

theorem logStep {a b d e : Nat} (h : Kept s t) : Kept s (t.logStep a b d e n) :=
  frame (logEv (frame (u := { t with rtime := a }) h))
theorem beginH3 (h : Kept s t) : Kept s (t.beginH3 h' n) := h.logStep.frame
theorem beginExtent (h : Kept s t) : Kept s (t.beginExtent h' n) := by
  unfold State.beginExtent
  split
  · exact h.beginH3
  · exact h.frame
theorem store {whole : Bool} (h : Kept s t) : Kept s (t.store h' x n whole) := h.frame
theorem storeAbsent {xs : List SaveItem} (h : Kept s t) : Kept s (t.storeAbsent h' xs) := .foldl _ h fun _ h => h.store
theorem sealSave (h : Kept s t) : Kept s (t.sealSave h') := by
  unfold State.sealSave
  generalize NonVol.put _ 4088 _ = nv
  exact h.frame
theorem powerOff (h : Kept s t) : Kept s t.powerOff := ⟨fun g => memory_filter_wf _ (h.mem g), fun _ => keysRise_reset⟩
theorem holdOver (h : Kept s t) : Kept s (t.holdOver h') := h.powerOff.frame
theorem holdNext (h : Kept s t) : Kept s (t.holdNext h') := by
  unfold State.holdNext
  extract_lets time u v
  have hv : Kept s v := h.frame
  split
  · exact h.logStep.frame
  · exact hv.logStep.beginExtent
  · split
    · exact h.beginH3
    · split
      · exact h.store.storeAbsent.beginH3
      · exact h.store.beginExtent
  · exact .ite h.sealSave.holdOver h.holdOver
theorem holdTo (h : Kept s t) : Kept s (State.holdTo n t m) := by
  induction n generalizing t with
  | zero => exact h
  | succ n ih =>
    unfold State.holdTo
    split
    · exact h
    · exact h.ite (ih h.holdNext)
theorem holdNow (h : Kept s t) : Kept s t.holdNow := h.elim fun _ => h.holdTo
theorem holdEnd (h : Kept s t) : Kept s t.holdEnd := h.elim fun _ => h.holdTo
theorem handover (h : Kept s t) : Kept s (t.handover h') := by
  unfold State.handover
  extract_lets now g dur
  refine h.ite (.ite ?_ h.frame)
  split
  · exact h
  · exact .ite h.frame h.store.beginExtent
theorem supplyEvent {l : List Nat} (h : Kept s t) : Kept s (t.supplyEvent n l) := by
  unfold State.supplyEvent
  split
  · exact .ite h.handover h
  · extract_lets ev g v
    have hv : Kept s v := h.logStep
    have hc : Kept s { v with cores := v.cores.map fun e => (e.1, { e.2 with pend := [] }) } := 
      hv.mapCores (f := fun e => (e.1, { e.2 with pend := [] })) (hf := fun _ ⟨hs, ha, _, hr⟩ => ⟨hs, ha, rfl, hr⟩)
    exact .ite h.powerOff.frame hc.frame
theorem execPowerFail {l : List Nat} (h : Kept s t) : KeptOut s (execPowerFail l t) := h.supplyEvent
theorem execOvervoltage {l : List Nat} (h : Kept s t) : KeptOut s (execOvervoltage l t) := h.supplyEvent
theorem execThermalTrip {l : List Nat} (h : Kept s t) : KeptOut s (execThermalTrip l t) := by
  unfold Machine.execThermalTrip
  dsimp only [KeptOut]
  split
  · exact h
  · exact h.supplyEvent
theorem execSupplyReturn (h : Kept s t) : KeptOut s (execSupplyReturn t) := by
  unfold Machine.execSupplyReturn
  dsimp only [KeptOut]
  split
  · exact h.ite h.handover
  · exact h.frame

/-! ### Faults of parts and the power controller (R371 to R377, R398) -/

variable {why : Cause} {lp movable : Bool} {ch bank row : Nat}

theorem retireChannel (h : Kept s t) : Kept s (t.retireChannel why lp ch) := h.ite h.retirePart
theorem useSpare (h : Kept s t) : Kept s (t.useSpare k) := h.frame
theorem repairRow (h : Kept s t) : Kept s (t.repairRow why lp ch bank row movable) := by
  unfold State.repairRow
  extract_lets u kb kc v w y
  have hv : Kept s v := .ite h h.setPoison
  have hy : Kept s y := hv.useSpare.retirePart
  exact .ite hv.useSpare.retirePart (.ite (.ite hy.retireChannel hy) h.retireChannel)
theorem execCorrectableError {site : ErrSite} (h : Kept s t) : KeptOut s (execCorrectableError site t) := by
  refine h.ite ?_
  split
  · exact h.count.elim fun _ => h.count.repairRow
  · exact h.count.elim fun _ => h.count.fence
  · exact h
theorem execUncorrectableError {site : ErrSite} (h : Kept s t) : KeptOut s (execUncorrectableError site t) := by
  refine h.ite ?_
  split
  · exact h.setPoison.count.elim fun _ => h.setPoison.count.retireChannel
  · exact h.granSetPois
  · exact .ite h.granSetPois h
theorem narrow (h : Kept s t) : Kept s (t.narrow why n) := h.ite (retirePart h.frame)
theorem shiftSpare {out : State → State} {total : Nat} (h : Kept s t) (ho : Kept s (out t)) :
    Kept s (t.shiftSpare why k n total out) := .ite h.useSpare.retirePart ho
theorem spareLane {site : CrcSite} (h : Kept s t) : Kept s (t.spareLane n site) := by
  unfold State.spareLane
  split
  · exact h.shiftSpare h.retireChannel
  · exact h.shiftSpare h.retirePart
  · exact h.shiftSpare h.narrow
theorem execCrcError {site : CrcSite} (h : Kept s t) : KeptOut s (execCrcError site t) :=
  h.ite (h.count.elim fun _ => h.count.spareLane)
theorem execCounterWindowExpiry (h : Kept s t) : KeptOut s (execCounterWindowExpiry k t) := by
  unfold Machine.execCounterWindowExpiry
  dsimp only [KeptOut]
  split
  · exact h
  · exact h.ite h.frame
theorem execPeakDetector (h : Kept s t) : KeptOut s (execPeakDetector n t) := .ite h.frame h
theorem execRegularStep {seen : StepInput} (h : Kept s t) : KeptOut s (execRegularStep n seen t) := .ite h h.frame

/-! ### Boot (R399, R400) -/

variable {b : BootInput} {v : BitVec 32}

theorem extend {q : Fin 8} {d : BitVec 512} (h : Kept s t) : Kept s (t.extend q d) := h.frame
theorem train (h : Kept s t) : Kept s (t.train b) := .foldl _ h.frame fun _ h => h.spareLane
theorem bootUp (h : Kept s t) : Kept s (t.bootUp b v) := by
  unfold State.bootUp
  extract_lets s1 cfg least nv s2 s3
  have h1 : Kept s s1 := h.train
  have hc : Kept s { s1 with cores := s1.bootCores b } := h1.of_keys rfl fun ⟨gw, _, gx⟩ => ⟨gw, fun _ he => keysRise_bootCores he, gx⟩
  have h2 : Kept s s2 := hc.frame
  have h3 : Kept s s3 := h2.extend
  exact .ite (raiseMod h3.frame) h3
theorem recovery (h : Kept s t) : Kept s (t.recovery n v) := h.frame
theorem execBoot (h : Kept s t) : KeptOut s (execBoot b t) := by
  refine h.ite ?_
  extract_lets s0 nv s1
  have h1 : Kept s s1 := h.powerOff.frame
  split
  · exact h1.recovery
  · extract_lets s2
    have h2 : Kept s s2 := h1.extend
    split
    · exact h2.recovery
    · exact h2.extend.extend.bootUp
theorem execBankRecharged (h : Kept s t) : KeptOut s (execBankRecharged t) := .ite h.frame h

/-! ### The host's accesses (R39 to R42, R265, R346, R360 to R362, R379, R401 to R404) -/

variable {w : Word} {q : Fin 8} {st : Stm}

theorem onCtx {f : State → State} (h : Kept s t) (hf : Kept s (f t)) : Kept s (t.onCtx c f) := .ite hf h
theorem onModule {f : State → State} (h : Kept s t) (hf : Kept s (f t)) : Kept s (t.onModule f) := .ite hf h
theorem execCardWindowWrite {off len : Nat} (h : Kept s t) : KeptOut s (execCardWindowWrite off len w t) :=
  h.onCtx (h.modCtx fun x g => by
    split
    · refine cksRise_of_eq g ?_
      unfold Ctx.hostCard
      dsimp only
      split
      · exact setCw_cks ..
      · rfl
    · exact cksRise_of_eq g)
theorem armReg (h : Kept s t) : Kept s (t.armReg c n) := h.onCtx (.ite h h.frame)
theorem hostCqhead (h : Kept s t) : Kept s (t.hostCqhead c n) := h.onCtx h.modCtx.cqDrain
theorem hostCstat (h : Kept s t) : Kept s (t.hostCstat c n) := h.onCtx (h.modCtx fun x g => by
  extract_lets y
  have hy : CksRise y := by
    dsimp only [y]
    split
    · exact cksRise_of_eq g
    · exact g
  split
  · exact cksRise_of_eq hy
  · exact hy)
theorem hostCint (h : Kept s t) : Kept s (t.hostCint c n) := h.onCtx h.modCtx
theorem execArm (h : Kept s t) : KeptOut s (execArm q w t) := h.armReg
theorem execCqhead (h : Kept s t) : KeptOut s (execCqhead q w t) := h.hostCqhead
theorem execCstat (h : Kept s t) : KeptOut s (execCstat q w t) := h.hostCstat
theorem execCint (h : Kept s t) : KeptOut s (execCint q w t) := h.hostCint
theorem hostMint (h : Kept s t) : Kept s (t.hostMint n) := h.onModule h.frame
theorem execMint (h : Kept s t) : KeptOut s (execMint w t) := h.hostMint
theorem setMask {on : Bool} (h : Kept s t) : Kept s (t.setMask n on) := .ite h.frame (.ite h.frame h.frame)
theorem msixWrite (h : Kept s t) : Kept s (t.msixWrite n m) := .ite h.frame (setMask h.frame)
theorem execVectorUnmask {i : Fin 17} (h : Kept s t) : KeptOut s (execVectorUnmask i t) := h.onModule h.setMask
theorem hostWdkick (h : Kept s t) : Kept s (t.hostWdkick c) := h.onCtx h.modCtx
theorem execWdkick (h : Kept s t) : KeptOut s (execWdkick q t) := h.hostWdkick
theorem hostHalt (h : Kept s t) : Kept s (t.hostHalt c) := h.onCtx (h.ite h.haltCtx)
theorem takePending (h : Kept s t) : Kept s (t.takePending k) := h.ite h.modCore.takeCounted
theorem hostResume (h : Kept s t) : Kept s (t.hostResume c) := h.onCtx (by
  extract_lets u ks v
  have hu : Kept s u := h.modCtx.logEv
  have hv : Kept s v := .foldl _ hu fun _ h => h.drainHeld.modCore
  exact h.ite (redeliver (.foldl _ hv fun _ h => h.takePending)))
theorem hostStep (h : Kept s t) : Kept s (t.hostStep c k st) := h.onCtx h.frame
theorem hostStepAll (h : Kept s t) : Kept s (t.hostStepAll c st) := h.onCtx (.ite h.modCtx h.frame)
theorem execHalt (h : Kept s t) : KeptOut s (execHalt q t) := h.hostHalt
theorem execResume (h : Kept s t) : KeptOut s (execResume q t) := h.hostResume
theorem execStep (h : Kept s t) : KeptOut s (execStep q st t) := h.hostStep
theorem execStepall (h : Kept s t) : KeptOut s (execStepall q st t) := h.hostStepAll
theorem hostDbgctl (h : Kept s t) : Kept s (t.hostDbgctl c n) := by
  unfold State.hostDbgctl
  extract_lets s1 s2 s3 m s4
  have h1 : Kept s s1 := h.onCtx h.modCtx
  have h2 : Kept s s2 := .ite h1.hostHalt h1
  have h3 : Kept s s3 := .ite h2.hostResume h2
  have h4 : Kept s s4 := .ite h3.hostStepAll h3
  exact .ite h4.hostStep h4
theorem hostBbctl (h : Kept s t) : Kept s (t.hostBbctl n) := h.onModule (.ite h.frame h)
theorem hostHurel (h : Kept s t) : Kept s (t.hostHurel n) := h.onModule (.ite h.frame h)
theorem hostMext (h : Kept s t) : Kept s (t.hostMext n) := h.onModule (.ite h.extend h)
theorem hostAtreq (h : Kept s t) : Kept s (t.hostAtreq n) := h.onModule (by
  extract_lets u
  have hu : Kept s u := .ite h.frame h
  exact .ite hu (.ite hu.frame hu.frame))
theorem execBbctl (h : Kept s t) : KeptOut s (execBbctl w t) := h.hostBbctl
theorem execHurel (h : Kept s t) : KeptOut s (execHurel w t) := h.hostHurel
theorem execMext (h : Kept s t) : KeptOut s (execMext w t) := h.hostMext
theorem execAtreq (h : Kept s t) : KeptOut s (execAtreq w t) := h.hostAtreq
theorem execAttestationReportDone (h : Kept s t) : KeptOut s (execAttestationReportDone t) := by
  unfold Machine.execAttestationReportDone
  dsimp only [KeptOut]
  split
  · exact h
  · exact .ite (raiseMod h.frame) h
theorem pageWrite (h : Kept s t) : Kept s (t.pageWrite c n w) := by
  unfold State.pageWrite
  dsimp only
  split
  · exact h.armReg
  · exact h.onCtx h.modCtx
  · exact h.onCtx (h.modCtx fun x g => by
      split
      · exact cksRise_of_eq g
      · exact g)
  · exact h.hostCqhead
  · exact h.onCtx h.modCtx
  · exact h.hostCstat
  · exact h.hostCint
  · exact h
theorem controlWrite (h : Kept s t) : Kept s (t.controlWrite c n w) := by
  unfold State.controlWrite
  dsimp only
  split
  · exact h.onCtx h.modCtx
  · exact h.onCtx h.modCtx
  · exact h.onCtx h.modCtx
  · exact h.hostWdkick
  · exact h.hostDbgctl
  · exact h.onCtx h.modCtx
  · exact h
theorem moduleWrite (h : Kept s t) : Kept s (t.moduleWrite n w) := by
  unfold State.moduleWrite
  extract_lets v
  split
  · exact h.onModule (.ite h.frame h)
  · exact h.hostMint
  · exact h.hostBbctl
  · exact h.hostHurel
  · exact h.hostMext
  · exact h.hostAtreq
  · exact h.onModule h.frame
  · exact h.onModule (.ite h.frame h)
  · exact h.onModule h.frame
  · exact .ite (h.onModule h.frame) (.ite (h.onModule h.frame) (.ite (h.onModule h.msixWrite) h))
theorem execRegisterWrite (h : Kept s t) : KeptOut s (execRegisterWrite n w t) :=
  h.ite (.ite h.pageWrite (.ite h.controlWrite h.moduleWrite))
theorem execHostLinkWrite {data : List Byte} (h : Kept s t) : KeptOut s (execHostLinkWrite n data t) := h.hostWrite

end Kept
end Sys2Proof.Proofs
end

section
/-!
PROOFS. What the forms of V's space keep (R217 to R235): an accumulator's elements are written in a map of rising keys.
-/
namespace Sys2Proof.Proofs
open Sys2Proof Sys2Proof.Machine Sys2Proof.Laws

-- One proof after another: side by side, they would wait for one another's equations of the model in a thread each.
set_option Elab.async false
namespace Kept
variable {s t u : State} {n : Nat} {h' : Head} {d : VDst} {srcs : List VSrc} {ty tz : Ty} {rm : RM} {sat : Bool} {els : List (Nat × Nat)}

theorem popMore (h : Kept s t) : Kept s (State.popMore t srcs).2 := by
  induction srcs generalizing t with
  | nil => exact h
  | cons x r ih =>
    unfold State.popMore
    split
    · exact h
    next he => exact ih (h.popSrc he).modSt
theorem putDst (h : Kept s t) (hu : t.putDst d n els = some u) : Kept s u := by
  unfold State.putDst at hu
  split at hu
  · exact Option.some.inj hu ▸ h.modRegs
  · split at hu
    · cases hu
    · exact Option.some.inj hu ▸ h.modRegs
  · exact Option.some.inj hu ▸ h
theorem vecEnd {fl : Nat} (h : Kept s t) : KeptRes s (t.vecEnd d n els fl) := by
  unfold State.vecEnd
  split
  next hu => exact (h.putDst hu).orFlags
  · exact h
theorem vecForm {act : Word → List Nat} {f : State → List Nat → List Vec → Res} (h : Kept s t)
    (hf : ∀ {u} ls vs, Kept s u → KeptRes s (f u ls vs)) : Kept s (t.vecForm h' act srcs f) := h.issueG fun h => by
  dsimp only
  split
  · exact h
  · split
    · exact hf _ _ h.popMore
    · exact h.popMore
theorem laneForm {op : Nat → List Nat → Nat × Nat} (h : Kept s t) : Kept s (t.laneForm h' d srcs ty op) :=
  h.vecForm fun _ _ h => h.vecEnd
theorem moveForm {pick : List Vec → Nat → Nat} (h : Kept s t) : Kept s (t.moveForm h' d srcs ty pick) :=
  h.vecForm fun _ _ h => h.vecEnd
theorem redForm {r : Red} {a : VSrc} (h : Kept s t) : Kept s (t.redForm r h' d a ty rm sat) :=
  h.vecForm fun _ _ h => h.vecEnd
theorem setVcmp {ct : CT} {g r : Word} {pd pe : PIx} (h : Kept s t) : Kept s (t.setVcmp n ct g r pd pe) := h.modSt
theorem execVcmp {pd pe : PIx} {ct : CT} {cc : CC} {a b : VSrc} (h : Kept s t) : KeptOut s (execVcmp h' pd pe ct cc a b ty t) :=
  h.issueG fun h => by
    extract_lets g ls p vs x y r fl
    have hp : Kept s p.2 := h.popMore
    split
    · exact h.setVcmp
    · split
      · exact hp
      · exact hp.setVcmp.orFlags
theorem accSegForm {acc : Fin 4} {f : State → List Nat → List Vec → Res} (h : Kept s t)
    (hf : ∀ {u} ls vs, Kept s u → KeptRes s (f u ls vs)) : Kept s (t.accSegForm h' acc ty srcs f) := h.issueG fun h => by
  extract_lets ls sm v r
  have hr : Kept s r.2 := h.modSt.popMore
  split
  · exact h
  · split
    · exact hr
    · exact hf _ _ hr
theorem execVaccwr {a : VSrc} {acc : Fin 4} {row : Fin 64} {seg : Fin 4} (h : Kept s t) :
    KeptOut s (execVaccwr h' a acc row seg ty tz rm sat t) := h.accSegForm fun _ _ h =>
  orFlags (h.modMe fun _ g => List.foldlRecOn (motive := Core.keysRise) _ _ (keysRise_snapSet _ _ g) fun _ hd _ _ =>
    keysRise_setAcc hd (rises_mput _ _ _ hd.2.1))

end Kept
end Sys2Proof.Proofs
end

section
/-!
PROOFS. What a turn of the device keeps, and the two invariants of every step: memory's canonical form (R166, R264, R265) and the rising
keys of the ways, the cores' maps and the checkpoints' (R182, R237, R257, R264, R300, R353).
-/
namespace Sys2Proof.Proofs
open Sys2Proof Sys2Proof.Machine Sys2Proof.Laws

-- One proof after another: side by side, they would wait for one another's equations of the model in a thread each.
set_option Elab.async false
namespace Kept
variable {s t u : State} {k n c m : Nat} {a : Act} {as : List Act}

/-- Every instruction and every event keeps both. -/
theorem exec (i : Instr) (h : Kept s t) : KeptOut s (exec i t) := by
  cases i with
  | add | sub | mul | mulh | mulhn | div | divn | rem | remn | and | or | xor | shl | shr | sar | rotl => exact h.issue1 fun h => h.aluForm
  | addi | muli | andi | ori | xori | shli | shri | sari | rotli | addil => exact h.issue1 fun h => h.aluImm
  | clz | ctz | popc | mov | path | extr | fneg | fabs => exact h.issue1 fun h => h.unary
  | flgclr | pput => exact h.issue1 fun h => h.modSt
  | movi | movil | moviq | insr | pget | qtest | mfsr | semrd => exact h.issue1 fun h => h.setS
  | min | max | minn | maxn => exact h.issue1 fun h => h.pickForm
  | cmp | tbit | fcmp => exact h.cmpForm
  | pand | por | pxor => exact h.issue1 fun h => h.predForm
  | qsend => exact h.execQsend
  | qrecv => exact h.execQrecv
  | mtsr => exact h.execMtsr
  | nop => exact h.issue1 fun h => h
  | brk => exact h.issue1 fun h => .ite h.haltCtx h
  | fadd | fsub | fmul | fdiv | fma | fsqrt => exact h.issue1 fun h => h.setF
  | fmin | fmax => exact h.issue1 fun h => h.fpick
  | fcvt => exact h.issue1 fun h => h.setS.orFlags
  | trap => exact h.issue1 fun h => h.modMe
  | inj => exact h.execInj
  | xlate => exact h.execXlate
  | probe => exact h.execProbe
  | hloc => exact h.execHloc
  | hmov => exact h.execHmov
  | hsub => exact h.execHsub
  | hget => exact h.execHget
  | tset => exact h.execTset
  | tget => exact h.execTget
  | ld => exact h.execLd
  | st => exact h.execSt
  | ldl => exact h.execLdl
  | gtest => exact h.execGtest
  | gset => exact h.execGset
  | amo _ _ _ _ _ _ scp => exact h.execAmo (scp := scp)
  | acas _ _ _ _ _ _ scp => exact h.execAcas (scp := scp)
  | copy | gather | scatter => exact h.issue fun h => h.copyForm
  | fill => exact h.execFill
  | tring => exact h.issue fun h => h.tringForm
  | ccancel => exact h.execCcancel
  | evpop => exact h.execEvpop
  | mfmt => exact h.execMfmt
  | mfmti => exact h.execMfmti
  | mmul => exact h.execMmul
  | mzero => exact h.execMzero
  | accld => exact h.execAccld
  | accst => exact h.execAccst
  | ringcfg => exact h.execRingcfg
  | ringrel => exact h.execRingrel
  | ringq => exact h.execRingq
  | bar => exact h.issue fun h => h.barForm
  | semsig => exact h.execSemsig
  | semwait => exact h.execSemwait
  | tagpub => exact h.execTagpub
  | tagpubP => exact h.execTagpubP
  | tagtest => exact h.issue fun h => h.askForm
  | jpatch | jarm | jstat => exact h.issue fun h => h.cardForm
  | pool => exact h.execPool
  | poolPop => exact h.execPoolPop
  | hotqLook => exact h.execHotqLook
  | hotqFill => exact h.execHotqFill
  | hotqInv => exact h.execHotqInv
  | hotqDrops => exact h.execHotqDrops
  | skqEst => exact h.execSkqEst
  | skqClr => exact h.execSkqClr
  | scupdSgd => exact h.execScupdSgd
  | scupdAdagrad => exact h.execScupdAdagrad
  | scupdAdam => exact h.execScupdAdam
  | nmrun => exact h.execNmrun
  | nmstat => exact h.execNmstat
  | ixwalk => exact h.execIxwalk
  | ixwalkPop => exact h.execIxwalkPop
  | a2aIdx => exact h.execA2aIdx
  | a2aVec => exact h.execA2aVec
  | a2aPop => exact h.execA2aPop
  | xredSum => exact h.execXredSum
  | xredMin => exact h.execXredMin
  | xredMax => exact h.execXredMax
  | xput => exact h.execXput
  | xabort => exact h.execXabort
  | ldq => exact h.execLdq
  | stq => exact h.execStq
  | qsplat => exact h.execQsplat
  | vadd | vsub | vmul | vfma | vfms | vfnma | vdiv | vmin | vmax | vabs | vneg | vmulh | vand | vor | vxor | vandn | vshl
  | vshr | vsar | vrcp | vrsq | vsqrt | vexp2 | vlog2 | vsel | vmov | vsplat | vsplati | vclass | vscale | vrint | vsgn
  | vclz | vpopc | vclamp | viota | vabd => exact h.laneForm
  | vcvt | vins | vpack | vunpk => exact h.vecForm fun _ _ h => h.vecEnd
  | vcmp => exact h.execVcmp
  | vext => exact h.vecForm fun _ _ h => h.setS
  | vrsum | vrmax | vrmin | vramax | vrsumsq => exact h.redForm
  | vshuf | vperm | vrot => exact h.moveForm
  | vaccrd => exact h.accSegForm fun _ _ h => h.vecEnd
  | vaccwr => exact h.execVaccwr
  | vmaski => exact h.issueG fun h => h.modSt
  | vcntp => exact h.issueG fun h => .ite h h.setS
  | br | call | bri | ret | loopReg | loopImm | endl | lexit => exact h.allForm fun h => h.follow
  | phase => exact h.execPhase
  | quiet => exact h.execQuiet
  | trapf => exact h.execTrapf
  | kend => exact h.execKend
  | fence => exact h.execFence
  | cardWindowWrite => exact h.execCardWindowWrite
  | arm => exact h.execArm
  | cqhead => exact h.execCqhead
  | cstat => exact h.execCstat
  | cint => exact h.execCint
  | mint => exact h.execMint
  | vectorUnmask => exact h.execVectorUnmask
  | wdkick => exact h.execWdkick
  | halt => exact h.execHalt
  | resume => exact h.execResume
  | step => exact h.execStep
  | stepall => exact h.execStepall
  | bbctl => exact h.execBbctl
  | hurel => exact h.execHurel
  | mext => exact h.execMext
  | atreq => exact h.execAtreq
  | attestationReportDone => exact h.execAttestationReportDone
  | registerWrite => exact h.execRegisterWrite
  | createContext => exact h.execCreateContext
  | destroyContext => exact h.execDestroyContext
  | writeExtent => exact h.execWriteExtent
  | revokeExtent => exact h.execRevokeExtent
  | revocationComplete => exact h.execRevocationComplete
  | revocationPhaseLimit => exact h.execRevocationPhaseLimit
  | translationFaultAnswer => exact h.execTranslationFaultAnswer
  | leaseChannel => exact h.execLeaseChannel
  | endLease => exact h.execEndLease
  | leaseLapse => exact h.execLeaseLapse
  | designateNearMemoryRegion => exact h.execDesignateNearMemoryRegion
  | writeTableDescriptor => exact h.execWriteTableDescriptor
  | registerExchangeGroup => exact h.execRegisterExchangeGroup
  | registerInboundBuffer => exact h.execRegisterInboundBuffer
  | writePeerEntry => exact h.execWritePeerEntry
  | writeMustSaveEntry => exact h.execWriteMustSaveEntry
  | withdrawMustSaveEntry => exact h.execWithdrawMustSaveEntry
  | copyRecoveryReport => exact h.execCopyRecoveryReport
  | restoreSavedEntry => exact h.execRestoreSavedEntry
  | writeBootParameters => exact h.execWriteBootParameters
  | unknownRequest => exact h.execUnknownRequest
  | hostLinkWrite => exact h.execHostLinkWrite
  | armRequest => exact h.execArmRequest
  | patchRequest => exact h.execPatchRequest
  | campionAnswer => exact h.execCampionAnswer
  | tagPublication => exact h.execTagPublication
  | launch => exact h.execLaunch
  | gangPlacement => exact h.execGangPlacement
  | aging => exact h.execAging
  | preemption => exact h.execPreemption
  | blockRetirement => exact h.execBlockRetirement
  | watchdogExpiry => exact h.execWatchdogExpiry
  | queueStarvation => exact h.execQueueStarvation
  | variantRunStart => exact h.execVariantRunStart
  | matrixCommand => exact h.execMatrixCommand
  | kStep => exact h.execKStep
  | matrixRetirement => exact h.execMatrixRetirement
  | accumulatorWindowWrite => exact h.execAccumulatorWindowWrite
  | copyCommand => exact h.execCopyCommand
  | copyCompletion => exact h.execCopyCompletion
  | poolUnitCommand => exact h.execPoolUnitCommand
  | poolUnitCompletion => exact h.execPoolUnitCompletion
  | sketchDecay => exact h.execSketchDecay
  | scatterUpdateCommand => exact h.execScatterUpdateCommand
  | rowCommit => exact h.execRowCommit
  | scatterUpdateCompletion => exact h.execScatterUpdateCompletion
  | nearMemoryRun => exact h.execNearMemoryRun
  | unitPause => exact h.execUnitPause
  | nearMemoryCompletion => exact h.execNearMemoryCompletion
  | teaselSegment => exact h.execTeaselSegment
  | speedwellCommand => exact h.execSpeedwellCommand
  | inboundPacket => exact h.execInboundPacket
  | abortToken => exact h.execAbortToken
  | retransmissionTimeout => exact h.execRetransmissionTimeout
  | collectiveTimeout => exact h.execCollectiveTimeout
  | speedwellCompletion => exact h.execSpeedwellCompletion
  | correctableError => exact h.execCorrectableError
  | uncorrectableError => exact h.execUncorrectableError
  | crcError => exact h.execCrcError
  | counterWindowExpiry => exact h.execCounterWindowExpiry
  | powerFail => exact h.execPowerFail
  | supplyReturn => exact h.execSupplyReturn
  | overvoltage => exact h.execOvervoltage
  | thermalTrip => exact h.execThermalTrip
  | peakDetector => exact h.execPeakDetector
  | regularStep => exact h.execRegularStep
  | boot => exact h.execBoot
  | bankRecharged => exact h.execBankRecharged
  | illegalEncoding => exact h.atLane.fatal

/-! ### Turns (R80, R88, R109, R362, R369, R385) -/

theorem streamTurn (h : Kept s t) : KeptOut s t.streamTurn := by
  have hf := h.fetchForm (dbg := false)
  unfold State.streamTurn
  split
  next hx => rw [hx] at hf; exact hf
  next hx => rw [hx] at hf; exact Kept.exec _ hf
  next hx => rw [hx] at hf; exact fatal (atLane hf)
theorem seekForm (h : Kept s t) : KeptNext s (State.seekForm n t) := by
  induction n generalizing t with
  | zero => exact h
  | succ n ih =>
    have hf := h.fetchForm (dbg := true)
    unfold State.seekForm
    split
    next hx => rw [hx] at hf; exact hf
    next hx => rw [hx] at hf; exact hf
    next hx =>
      rw [hx] at hf
      split
      · exact ih hf
      · exact hf
theorem seek (h : Kept s t) : KeptNext s t.seek := h.seekForm
theorem pass (h : Kept s t) : Kept s (t.pass n m) := h.passTime
theorem settleSome (h : Kept s t) : Kept s (t.settleSome k) := h.draw.flushComm
theorem meanwhile (h : Kept s t) : Kept s t.meanwhile :=
  h.ite (campionEnd (retryPuts (.foldl _ h fun _ h => h.settleSome)))

theorem dbgResult (h : Kept s t) : Kept s (t.dbgResult c n) := h.modCtx
theorem toAlign {x : Stm} (h : Kept s t) : Kept s (t.toAlign x) := by
  have hs := (frame (u := { t with strm := x }) h).seek
  unfold State.toAlign
  split
  next hx => rw [hx] at hs; exact .ite hs h
  · exact h
theorem dbgForm {i : Instr} (h : Kept s t) (hu : Kept s u) : KeptOut s (t.dbgForm c u i) := by
  have he := hu.exec i
  unfold State.dbgForm
  split
  next hx => rw [hx] at he; exact .ite (dbgResult he) (.ite (dbgResult he) h.dbgResult)
  · exact he
theorem dbgTurn {x : Stm} (h : Kept s t) : KeptOut s (t.dbgTurn c k x) := by
  unfold State.dbgTurn
  extract_lets s0 s2 s1
  have h0 : Kept s s0 := h.frame
  have h1 : Kept s s1 := h0.toAlign.toAlign.frame
  have hs := h1.seek
  have hc := (frame (u := { s1 with strm := .c }) h1).seek
  split
  · exact h.dbgResult
  · split
    next hx =>
      split
      · split
        next hy =>
          rw [hy] at hc
          split
          · exact h1.dbgForm hc
          · exact h1.dbgResult
        · exact h1.dbgResult
      · exact h1.dbgResult
    next hx => rw [hx] at hs; exact h1.dbgForm hs
    next hx => rw [hx] at hs; exact dbgResult (fatal (atLane hs))
theorem clockTurn {ms : List Stm} (h : Kept s t) : KeptOut s (t.clockTurn ms) := by
  unfold State.clockTurn
  split
  · exact h.streamTurn
  · exact streamTurn h.frame
theorem defaultTurn (h : Kept s t) : Kept s t.defaultTurn := .ite h h.frame
theorem together {o : Out} (h : Kept s t) (ho : KeptOut s o) : KeptOut s (t.together k a as o) := by
  unfold State.together
  split
  · split
    · exact ho
    · split
      · exact ho
      · exact h.takeCounted
  · exact ho
theorem doAct (h : Kept s t) : KeptOut s (t.doAct a as) := by
  unfold State.doAct
  split
  · extract_lets u
    have hu : Kept s u := h.frame
    exact hu.together hu.clockTurn
  · split
    · split
      · exact h.together h.execKStep
      · exact h.exec _
    · exact h
  · exact h.dbgTurn
theorem clockAct (h : Kept s t) : KeptOut s (t.clockAct a as) := by
  unfold State.clockAct
  split
  · exact doAct h.frame
  · exact h.doAct
theorem turn (h : Kept s t) : KeptOut s t.turn := by
  unfold State.turn
  split
  · split
    · exact h.holdEnd
    · exact h.defaultTurn.clockAct
  · exact clockAct (meanwhile (holdNow (frame h.pass)))

end Kept

/-- Every step keeps memory canonical and keys rising. -/
theorem kept_step {s t : State} (h : step s = .next t) : Kept s t := by
  have hk := (Kept.refl s).turn
  rw [show s.turn = .next t from h] at hk
  exact hk

/-- Settles O58: every operation of a turn keeps memory's canonical form. -/
theorem memoryCanonicalStep : Obligations.MemoryCanonicalStep := by
  unfold Obligations.MemoryCanonicalStep
  exact fun s t hw ht => (kept_step ht).mem hw

/-- Settles O59: every operation of a turn keeps the keys of the ways, of the cores' maps and of the checkpoints' maps rising. -/
theorem keysRiseStep : Obligations.KeysRiseStep := by
  unfold Obligations.KeysRiseStep
  exact fun s t hk ht => (kept_step ht).keys hk

end Sys2Proof.Proofs
end

section
/-!
PROOFS. GTEST and GSET, settled (R182, R183, R197, R198).
-/
namespace Sys2Proof.Proofs
open Sys2Proof Sys2Proof.Machine Sys2Proof.Laws

-- One proof after another: side by side, they would wait for one another's equations of the model in a thread each.
set_option Elab.async false

/-! ### The registers of the current core across writes to memory and scratch -/

/-- The turn and the registers of the core whose turn it is are the same. -/
structure SameRegs (s t : State) : Prop where
  cur : t.cur = s.cur
  strm : t.strm = s.strm
  regs : t.me.r = s.me.r

namespace SameRegs
variable {s t u : State}

theorem refl (s : State) : SameRegs s s := ⟨rfl, rfl, rfl⟩
theorem trans (h : SameRegs s t) (g : SameRegs t u) : SameRegs s u :=
  ⟨g.cur.trans h.cur, g.strm.trans h.strm, g.regs.trans h.regs⟩
theorem st (h : SameRegs s t) : t.st = s.st := congrArg₂ Regs.str h.regs h.strm
theorem keepsHead (h : SameRegs s t) : KeepsHead s t := ⟨congrArg Regs.tok h.regs, h.strm, congrArg Stream.await h.st⟩
theorem of_cores (hc : t.cores = s.cores) (hk : t.cur = s.cur) (hm : t.strm = s.strm) : SameRegs s t := by
  refine ⟨hk, hm, ?_⟩
  rw [State.me, State.me, hk, State.core, State.core, hc]
theorem modCore (s : State) (k : Nat) {f : Core → Core} (hf : ∀ c, (f c).r = c.r := by exact fun _ => rfl) :
    SameRegs s (s.modCore k f) := by
  refine ⟨rfl, rfl, ?_⟩
  change ((s.modCore k f).core s.cur).r = (s.core s.cur).r
  by_cases hk : s.cur = k
  · rw [hk, core_modCore_self, hf]
  · rw [core_modCore_ne s _ hk]
theorem clearWay (s : State) (k : Nat) : SameRegs s (s.clearWay k) := by
  unfold State.clearWay
  split
  · exact of_cores rfl rfl rfl
  · exact refl s
theorem clearRows (s : State) (as : List Nat) : SameRegs s (s.clearRows as) := by
  unfold State.clearRows
  induction s.waysOf as generalizing s with
  | nil => exact refl s
  | cons w r ih => exact (clearWay s w.1).trans (ih _)
theorem memWrite (s : State) (g : Nat) (v : View) (cells : List Host.Cell) : SameRegs s (s.memWrite g v cells) := by
  refine (clearRows s (cells.map fun c => c.1)).trans ?_
  unfold State.memWrite State.perform
  split <;> exact of_cores rfl rfl rfl
theorem performComm (s : State) (k : Nat) : SameRegs s (s.performComm k) := by
  unfold State.performComm
  split
  · exact refl s
  · dsimp only
    split
    · exact clearRows s _
    · exact (memWrite s _ _ _).trans (modCore _ k)
theorem flushComm (n : Nat) (s : State) (k : Nat) : SameRegs s (s.flushComm n k) := by
  induction n generalizing s with
  | zero => exact refl s
  | succ n ih => exact (performComm s k).trans (ih _)
theorem commitStores (p : Nat → Bool) (c : Core) : (c.commitStores p).r = c.r := by
  unfold Core.commitStores
  dsimp only
  split <;> rfl
theorem publish (s : State) (k : Nat) : SameRegs s (s.publish k) :=
  (modCore s k (commitStores _)).trans (flushComm _ _ k)
theorem earlyCommit (s : State) (k : Nat) : SameRegs s (s.earlyCommit k) := (publish s k).trans (modCore _ k)
theorem setGran (s : State) (w : Where) (g : Nat) (x : SGran) : SameRegs s (s.setGran w g x) := by
  cases w with
  | scr k => exact modCore s k (f := fun c => { c with scr := mput SGran.empty c.scr g x })
  | ela c key => exact of_cores rfl rfl rfl
theorem setGranFull (s : State) (t : Tgt) (f : Bool) : SameRegs s (s.setGranFull t f) := by
  unfold State.setGranFull
  split
  · exact setGran s _ _ _
  · exact refl s

end SameRegs

/-! ### The forms (R197, R198) -/

theorem scr_takes (s : State) (h : Head) : (s.takes h).me.scr = s.me.scr := field_takes s h Core.scr
theorem gran_takes (s : State) (h : Head) (g : Nat) : (s.takes h).gran (.scr s.cur) g = s.gran (.scr s.cur) g := by
  change mgetD ((s.takes h).core s.cur).scr g SGran.empty = mgetD s.me.scr g SGran.empty
  rw [← scr_takes s h, State.me, cur_takes]
/-- Reads performed and the form left change no granule of the core's own scratch. -/
theorem gran_orderReads_leaves (s : State) (h : Head) (g : Nat) :
    (s.orderReads.leaves h).gran (.scr s.cur) g = s.gran (.scr s.cur) g := by
  have hcur : s.orderReads.cur = s.cur := rfl
  have hscr : (s.orderReads.leaves h).me.scr = s.me.scr :=
    (field_leaves _ h Core.scr).trans (field_modSt s Core.scr _)
  change mgetD ((s.orderReads.leaves h).core s.cur).scr g SGran.empty = mgetD s.me.scr g SGran.empty
  rw [← hscr, State.me, cur_leaves, hcur]
/-- A granule of scratch read after it was written, where the map's keys rise. -/
theorem gran_setGran_of_rising {s : State} {k : Nat} (hs : risingFrom 0 (s.core k).scr = true) (g : Nat) (x : SGran) :
    (s.setGran (.scr k) g x).gran (.scr k) g = x := by
  unfold State.setGran State.gran
  dsimp only
  rw [core_modCore_self]
  exact mgetD_mput_self _ _ _ hs

/-- The state in which GSET writes: through path 3 the phase of core k has committed early (R165). -/
def gsetFrom (u : State) (k : Nat) (g : Tgt) : State := match g with
  | .win _ _ => u.earlyCommit k
  | _ => u
/-- What GSET does once its access is permitted (R197). -/
def gsetEff (u : State) (k : Nat) (g : Tgt) (f : Bool) : State := ((gsetFrom u k g).setGranFull g f).orderReads

theorem sameRegs_gsetFrom (u : State) (k : Nat) (g : Tgt) : SameRegs u (gsetFrom u k g) := by
  unfold gsetFrom
  split
  · exact .earlyCommit u k
  · exact .refl u
theorem sameRegs_gset (u : State) (k : Nat) (g : Tgt) (f : Bool) : SameRegs u ((gsetFrom u k g).setGranFull g f) :=
  (sameRegs_gsetFrom u k g).trans (.setGranFull _ g f)
theorem keepsHead_gsetEff (u : State) (k : Nat) (g : Tgt) (f : Bool) : KeepsHead u (gsetEff u k g f) :=
  (sameRegs_gset u k g f).keepsHead.trans (.orderReads _)
/-- Of the stream, GSET changes what its reads order alone. -/
theorem st_gsetEff (u : State) (k : Nat) (g : Tgt) (f : Bool) : ∃ n, (gsetEff u k g f).st = u.st.orderReads n := by
  refine ⟨((gsetFrom u k g).setGranFull g f).wseq, ?_⟩
  rw [gsetEff, st_orderReads, (sameRegs_gset u k g f).st]
theorem pos_gsetEff (u : State) (k : Nat) (g : Tgt) (f : Bool) : (gsetEff u k g f).st.pos = u.st.pos := by
  obtain ⟨n, hn⟩ := st_gsetEff u k g f
  rw [hn]
  rfl
theorem s_gsetEff (u : State) (k : Nat) (g : Tgt) (f : Bool) : (gsetEff u k g f).st.s = u.st.s := by
  obtain ⟨n, hn⟩ := st_gsetEff u k g f
  rw [hn]
  rfl

/-- GSET of a granule of local scratch sets its F and leaves its data and P. -/
theorem gran_gsetEff {u : State} (hs : risingFrom 0 u.me.scr = true) (o : Nat) (f : Bool) (h : Head) :
    ((gsetEff u u.cur (.loc u.cur o) f).leaves h).gran (.scr u.cur) (u.scrOff u.cur false o / 16) =
      { u.gran (.scr u.cur) (u.scrOff u.cur false o / 16) with full := f } := by
  have hset : gsetEff u u.cur (.loc u.cur o) f = (u.granSetFull (.scr u.cur) [u.scrOff u.cur false o / 16] f).orderReads := rfl
  rw [hset]
  refine (gran_orderReads_leaves _ h _).trans ?_
  exact gran_setGran_of_rising hs _ _

theorem exec_gtest {s : State} {h : Head} {hs : HIx} {d b : SIx} {disp : BitVec 21} {x : Handle}
    (hr : s.canIssue h) (hx : (s.takes h).readH hs = some x)
    (hc : (s.takes h).scalarCheck x (scalarAddr x (s.sr b) disp) 1 true false true = none) :
    exec (.gtest h hs d b disp) s = .next (s.gives h d
      (w64 (b2n ((s.takes h).granBits (hTgt s.cur x (scalarAddr x (s.sr b) disp))).1 +
        2 * b2n ((s.takes h).granBits (hTgt s.cur x (scalarAddr x (s.sr b) disp))).2)) 0) := by
  refine congrArg Host.Outcome.next (issue_writes hr ?_)
  simp only [State.withH, hx, sr_takes, cur_takes, hc]

theorem exec_gset {s : State} {h : Head} {hs : HIx} {d b : SIx} {disp : BitVec 21} {x : Handle}
    (hr : s.canIssue h) (hx : (s.takes h).readH hs = some x)
    (hc : (s.takes h).scalarCheck x (scalarAddr x (s.sr b) disp) 1 false true true = none) :
    exec (.gset h hs d b disp) s = .next ((gsetEff (s.takes h) s.cur (hTgt s.cur x (scalarAddr x (s.sr b) disp))
      ((s.sr d).getLsbD 0)).leaves h) := by
  refine congrArg Host.Outcome.next (issue_completes hr ?_ (keepsHead_gsetEff ..))
  simp only [State.withH, hx, sr_takes, cur_takes, hc]
  rfl

/-- Settles O15: the granule's bits read; its F written, after the early commit of a window's write. -/
theorem granuleFormsComplete : Obligations.GranuleFormsComplete := by
  unfold Obligations.GranuleFormsComplete
  intro s h hs d b disp x hr u a g hx
  have hcur : u.cur = s.cur := cur_takes s h
  refine ⟨exec_gtest hr hx, fun hc => ⟨⟨_, exec_gset hr hx hc, ?_, ?_, fun o ho hrise => ?_⟩, ?_⟩⟩
  · rw [pos_leaves, pos_gsetEff, pos_takes]
  · rw [s_leaves, s_gsetEff, s_takes]
  · have hg := gran_gsetEff (u := u) ((congrArg (risingFrom 0) (scr_takes s h)).trans hrise) o ((s.sr d).getLsbD 0) h
    rw [hcur, scrOff_takes, gran_takes] at hg
    rw [← hg, ← ho]
  · rw [exec_gset hr hx hc]
    rfl

end Sys2Proof.Proofs
end

section
/-!
PROOFS. Translation and the handle and shape forms, settled (R174 to R176, R189 to R192).
-/
namespace Sys2Proof.Proofs
open Sys2Proof Sys2Proof.Machine Sys2Proof.Laws

-- One proof after another: side by side, they would wait for one another's equations of the model in a thread each.
set_option Elab.async false

/-! ### The fields of a handle made from its parts (R172) -/

theorem toNat_mkHandle {top base len : Nat} (ht : top < 2 ^ 128) (hb : base < 2 ^ 64) (hl : len < 2 ^ 64) :
    (mkHandle top base len).toNat = top * 2 ^ 128 + base * 2 ^ 64 + len := by
  rw [mkHandle, BitVec.toNat_ofNat, Nat.mod_eq_of_lt hb, Nat.mod_eq_of_lt hl]
  exact Nat.mod_eq_of_lt (by omega)
theorem hBase_mkHandle {top base len : Nat} (ht : top < 2 ^ 128) (hb : base < 2 ^ 64) (hl : len < 2 ^ 64) :
    hBase (mkHandle top base len) = base := by
  rw [hBase, hf, toNat_mkHandle ht hb hl, bits]
  omega
theorem hLen_mkHandle {top base len : Nat} (ht : top < 2 ^ 128) (hb : base < 2 ^ 64) (hl : len < 2 ^ 64) :
    hLen (mkHandle top base len) = len := by
  rw [hLen, hf, toNat_mkHandle ht hb hl, bits]
  omega
/-- A field above the base is one of the upper half. -/
theorem bits_mkHandle {top base len : Nat} (hi lo : Nat) (ht : top < 2 ^ 128) (hb : base < 2 ^ 64) (hl : len < 2 ^ 64) :
    bits (mkHandle top base len).toNat (hi + 128) (lo + 128) = bits top hi lo := by
  have hdiv : (mkHandle top base len).toNat / 2 ^ 128 = top := by
    rw [toNat_mkHandle ht hb hl]
    omega
  rw [bits, Nat.add_comm lo, Nat.pow_add, ← Nat.div_div_eq_div_mul, hdiv, bits]
  congr 2
  omega
theorem bit_mkHandle {top base len : Nat} (n : Nat) (ht : top < 2 ^ 128) (hb : base < 2 ^ 64) (hl : len < 2 ^ 64) :
    bit (mkHandle top base len).toNat (n + 128) = bit top n := by
  have hdiv : (mkHandle top base len).toNat / 2 ^ 128 = top := by
    rw [toNat_mkHandle ht hb hl]
    omega
  rw [bit, Nat.add_comm n, Nat.pow_add, ← Nat.div_div_eq_div_mul, hdiv, bit]

theorem b2n_lt_two (b : Bool) : b2n b < 2 := by cases b <;> decide

/-- The fields of the handle of an extent are the extent's, its path, base and length those given. -/
theorem fields_extHandle {id path a len : Nat} (x : Extent) (hid : id < 16384) (hp : path < 16) (ha : a < 2 ^ 64)
    (hl : len < 2 ^ 64) :
    let y := extHandle id x path a len
    hValid y = true ∧ hKind y = 0 ∧ hPath y = path ∧ hTier y = xTier x ∧ hLog y = xLog x ∧ hAtc y = xAtc x ∧
      hRo y = xRo x ∧ hExt y = id ∧ hPerm y = xPerm x ∧ hFrame y = xFrame x ∧ hBase y = a ∧ hLen y = len := by
  have htier : xTier x < 2 ^ 3 := bits_lt _ _ _
  have hlog : xLog x < 2 ^ 6 := bits_lt _ _ _
  have hatc : xAtc x < 2 ^ 2 := bits_lt _ _ _
  have hperm : xPerm x < 2 ^ 24 := bits_lt _ _ _
  have hframe : xFrame x < 2 ^ 31 := bits_lt _ _ _
  have hro := b2n_lt_two (xRo x)
  have htop : 2 ^ 127 + path * 2 ^ 120 + xTier x * 2 ^ 117 + xLog x * 2 ^ 111 + xAtc x * 2 ^ 109 + b2n (xRo x) * 2 ^ 108 +
    id * 2 ^ 94 + xPerm x * 2 ^ 70 + xFrame x * 2 ^ 32 < 2 ^ 128 := by omega
  have hf (hi lo : Nat) := bits_mkHandle hi lo htop ha hl
  have hb (n : Nat) := bit_mkHandle n htop ha hl
  refine ⟨(hb 127).trans ?_, (hf 126 124).trans ?_, (hf 123 120).trans ?_, (hf 119 117).trans ?_, (hf 116 111).trans ?_,
    (hf 110 109).trans ?_, (hb 108).trans ?_, (hf 107 94).trans ?_, (hf 93 70).trans ?_, (hf 62 32).trans ?_,
    hBase_mkHandle htop ha hl, hLen_mkHandle htop ha hl⟩
  case refine_1 =>
    rw [bit, beq_iff_eq]
    omega
  case refine_7 =>
    have hbit : (2 ^ 127 + path * 2 ^ 120 + xTier x * 2 ^ 117 + xLog x * 2 ^ 111 + xAtc x * 2 ^ 109 + b2n (xRo x) * 2 ^ 108 +
        id * 2 ^ 94 + xPerm x * 2 ^ 70 + xFrame x * 2 ^ 32) / 2 ^ 108 % 2 = b2n (xRo x) := by omega
    rw [bit, hbit]
    cases xRo x <;> rfl
  all_goals
    rw [bits]
    omega

/-! ### Translation (R174, R175) -/

section
variable {s : State} {c a len : Nat} {e : Nat × Extent}

theorem lookup_found (hf : (s.ctx c).findExt (a % 2 ^ 60) = some e) (hr : xRvk e.2 = false) (hl : s.lapsed c e.2 = false) :
    s.lookup c a = .ok e := by
  rw [State.lookup, hf]
  simp only [hr, hl, Bool.false_eq_true, if_false]
theorem lookup_unmapped (hf : (s.ctx c).findExt (a % 2 ^ 60) = none) : s.lookup c a = .error (0x10, 0) := by
  rw [State.lookup, hf]
theorem translate_unmapped (hf : (s.ctx c).findExt (a % 2 ^ 60) = none) : s.translate c a len = .error (0x10, 0) := by
  rw [State.translate, lookup_unmapped hf]
theorem translate_found (hf : (s.ctx c).findExt (a % 2 ^ 60) = some e) (hr : xRvk e.2 = false) (hl : s.lapsed c e.2 = false)
    (hp : pathAllowed (bits a 63 60) (xTier e.2) = true)
    (hb : a % 2 ^ 60 + (if len = 0 then xTop e.2 - a % 2 ^ 60 else len) ≤ xTop e.2) :
    s.translate c a len =
      .ok (extHandle e.1 e.2 (bits a 63 60) a (if len = 0 then xTop e.2 - a % 2 ^ 60 else len)) := by
  rw [State.translate, lookup_found hf hr hl]
  simp only [hp, Bool.not_true, Bool.false_eq_true, if_false]
  rw [if_neg (Nat.not_lt.2 hb)]

end

theorem lookup_takes (s : State) (h : Head) (c a : Nat) : (s.takes h).lookup c a = s.lookup c a := by
  rw [takes_eq]
  split <;> rfl
theorem translate_takes (s : State) (h : Head) (c a len : Nat) : (s.takes h).translate c a len = s.translate c a len := by
  rw [State.translate, State.translate, lookup_takes]

/-! ### New versions (R90) -/

/-- Versions with a new one in front, stamped with C's position; those no longer needed are freed. -/
def stamped {α : Type} (r : Regs) (vs : List (Nat × Nat × α)) (x : α) : List (Nat × Nat × α) :=
  (r.c.pos.lseq, r.c.pos.lane, x) :: pruneVersions r.a.pos r.v.pos vs
def newH (s : State) (i : HIx) (x : Handle) : State := s.modRegs fun r => { r with h := r.h.set i (stamped s.me.r s.me.r.h[i] x) }
def newT (s : State) (i : TIx) (x : Word) : State := s.modRegs fun r => { r with t := r.t.set i (stamped s.me.r s.me.r.t[i] x) }

theorem putH_room {s : State} {i : HIx} (x : Handle) (hroom : (pruneVersions s.me.r.a.pos s.me.r.v.pos s.me.r.h[i]).length < 4) :
    s.putH i x = .done (newH s i x) := by
  rw [State.putH, State.writeH, if_neg (Nat.not_le.2 hroom)]
  rfl
theorem putT_room {s : State} {i : TIx} (x : Word) (hroom : (pruneVersions s.me.r.a.pos s.me.r.v.pos s.me.r.t[i]).length < 4) :
    s.putT i x = .done (newT s i x) := by
  rw [State.putT, State.writeT, if_neg (Nat.not_le.2 hroom)]
  rfl
theorem keepsHead_newH (s : State) (i : HIx) (x : Handle) : KeepsHead s (newH s i x) :=
  .modRegs s (f := fun r => { r with h := r.h.set i (stamped s.me.r s.me.r.h[i] x) })
theorem keepsHead_newT (s : State) (i : TIx) (x : Word) : KeepsHead s (newT s i x) :=
  .modRegs s (f := fun r => { r with t := r.t.set i (stamped s.me.r s.me.r.t[i] x) })

/-! ### Tokens taken leave positions and versions -/

theorem str_modSt {α : Type} (s : State) (m : Stm) (f : Stream → Stream) (g : Stream → α) (hg : ∀ x, g (f x) = g x) :
    g ((s.modSt f).me.r.str m) = g (s.me.r.str m) := by
  have hstr (r : Regs) (n : Stm) (x : Stream) : (r.setStr n x).str m = if m = n then x else r.str m := by
    cases n <;> cases m <;> rfl
  rw [modSt_eq_modRegs, State.modRegs, me_modMe, hstr]
  split
  · next hm => rw [hg, hm]
  · rfl
/-- Of each stream, taking tokens changes what its reads order alone. -/
theorem str_takes {α : Type} (s : State) (h : Head) (m : Stm) (g : Stream → α)
    (hg : ∀ x n, g (x.orderReads n) = g x := by exact fun _ _ => rfl) : g ((s.takes h).me.r.str m) = g (s.me.r.str m) := by
  have hset : (s.setToks (popTokens s.toks s.strm h)).me.r.str m = s.me.r.str m := by
    rw [State.setToks, State.modRegs, me_modMe]
    cases m <;> rfl
  rw [takes_eq]
  split
  · exact (str_modSt _ m _ g fun x => hg x _).trans (congrArg g hset)
  · rw [hset]
theorem h_takes (s : State) (h : Head) : (s.takes h).me.r.h = s.me.r.h := regs_takes s h Regs.h
theorem t_takes (s : State) (h : Head) : (s.takes h).me.r.t = s.me.r.t := regs_takes s h Regs.t
theorem prune_takes {α : Type} (s : State) (h : Head) (vs : List (Nat × Nat × α)) :
    pruneVersions (s.takes h).me.r.a.pos (s.takes h).me.r.v.pos vs = pruneVersions s.me.r.a.pos s.me.r.v.pos vs :=
  congrArg₂ (pruneVersions · · vs) (str_takes s h .a Stream.pos) (str_takes s h .v Stream.pos)
theorem stamped_takes {α : Type} (s : State) (h : Head) (vs : List (Nat × Nat × α)) (x : α) :
    stamped (s.takes h).me.r vs x = stamped s.me.r vs x := by
  have hc : (s.takes h).me.r.c.pos = s.me.r.c.pos := str_takes s h .c Stream.pos
  rw [stamped, stamped, prune_takes, hc]

theorem readVersion_c {α : Type} (vs : List (Nat × Nat × α)) (c p : Pos) (d : α) :
    readVersion vs .c c p d = some ((vs.head?.map fun v => v.2.2).getD d) := rfl
/-- C's newest versions stay as tokens are taken. -/
theorem newH_takes {s : State} (hm : s.strm = .c) (h : Head) (i : HIx) : (s.takes h).newH i = s.newH i := by
  rw [State.newH, State.newH, State.readH, State.readH, strm_takes, hm, readVersion_c, readVersion_c, h_takes]
theorem newT_takes {s : State} (hm : s.strm = .c) (h : Head) (i : TIx) : (s.takes h).newT i = s.newT i := by
  rw [State.newT, State.newT, State.readT, State.readT, strm_takes, hm, readVersion_c, readVersion_c, t_takes]

/-! ### A form that writes a version completes -/

section
variable {s : State} {h : Head} {eff : State → Res}

theorem h_newH_leaves (s : State) (h : Head) (i : HIx) (x : Handle) :
    ((newH (s.takes h) i x).leaves h).me.r.h = s.me.r.h.set i (stamped s.me.r s.me.r.h[i] x) := by
  rw [regs_leaves _ h Regs.h, newH, State.modRegs, me_modMe, stamped_takes, h_takes]
theorem t_newT_leaves (s : State) (h : Head) (i : TIx) (x : Word) :
    ((newT (s.takes h) i x).leaves h).me.r.t = s.me.r.t.set i (stamped s.me.r s.me.r.t[i] x) := by
  rw [regs_leaves _ h Regs.t, newT, State.modRegs, me_modMe, stamped_takes, t_takes]

/-- A form that writes a handle once its tokens are taken, where a version is free. -/
theorem issue_putH {i : HIx} {x : Handle} (hr : s.canIssue h)
    (hroom : (pruneVersions s.me.r.a.pos s.me.r.v.pos s.me.r.h[i]).length < 4) (he : eff (s.takes h) = (s.takes h).putH i x) :
    s.issue h eff = (newH (s.takes h) i x).leaves h := by
  refine issue_completes hr (he.trans (putH_room x ?_)) (keepsHead_newH ..)
  rw [prune_takes, h_takes]
  exact hroom
theorem issue_putT {i : TIx} {x : Word} (hr : s.canIssue h)
    (hroom : (pruneVersions s.me.r.a.pos s.me.r.v.pos s.me.r.t[i]).length < 4) (he : eff (s.takes h) = (s.takes h).putT i x) :
    s.issue h eff = (newT (s.takes h) i x).leaves h := by
  refine issue_completes hr (he.trans (putT_room x ?_)) (keepsHead_newT ..)
  rw [prune_takes, t_takes]
  exact hroom

theorem issue_putH_writes {i : HIx} {x : Handle} (hr : s.canIssue h)
    (hroom : (pruneVersions s.me.r.a.pos s.me.r.v.pos s.me.r.h[i]).length < 4) (he : eff (s.takes h) = (s.takes h).putH i x) :
    (s.issue h eff).me.r.h[i] = stamped s.me.r s.me.r.h[i] x ∧ (∀ k, k ≠ i → (s.issue h eff).me.r.h[k] = s.me.r.h[k]) ∧
      (s.issue h eff).st.s = s.st.s ∧ s.sameMemory (s.issue h eff) := by
  rw [issue_putH hr hroom he]
  have hh := h_newH_leaves s h i x
  refine ⟨?_, fun k hk => ?_, ?_, fun a => ?_⟩
  · simp [hh]
  · simp [hh, Fin.val_ne_of_ne hk.symm]
  · have hs : (newH (s.takes h) i x).st.s = (s.takes h).st.s := congrArg Stream.s (st_modMe _ fun c m => by cases m <;> rfl)
    rw [s_leaves, hs, s_takes]
  · have hm : (newH (s.takes h) i x).mem = (s.takes h).mem := rfl
    rw [mem_leaves, hm, mem_takes]

/-- A form that faults stops where it stands. -/
theorem issue_stops {u : State} (hr : s.canIssue h) (he : eff (s.takes h) = .stop u) : s.issue h eff = u.unpop h := by
  obtain ⟨hacted, hpopped, hpop, -, hg, -⟩ := hr
  have hg' : (s.popFor h).guardB h.g = true := (guardB_takes s h h.g).trans hg
  have he' : eff (s.popFor h) = .stop u := he
  simp only [State.issue, State.issueG, hacted, hpopped, hpop, Bool.false_eq_true, if_false, Bool.not_true, Bool.and_false, hg',
    if_true, he']

end

theorem ctx_unpop (s : State) (h : Head) (c : Nat) : (s.unpop h).ctx c = s.ctx c := by
  unfold State.unpop
  split <;> rfl

/-- A fatal fault of the current stream's form stops its context with the fault's code. -/
theorem fatal_stops {s : State} {code detail : Nat} (aux : Nat) (hc : code < 256) (hd : detail < 256) (hn : s.res.card < 4096)
    (hb : s.res.block < 2 ^ 24) (hs : (s.ctx s.cx).stopped = false) (he : s.noError s.cx) :
    StopsWith s (s.fatal code detail aux) s.cx s.res.card code :=
  contextStop_stops (fitsWord0_errAt s.strm s.st.pos aux hc hd hn hb) hs he

/-! ### XLATE and PROBE -/

section
variable {s : State} {h : Head} {hd : HIx} {d a b : SIx} {e : Nat × Extent}

theorem xlate_putH {x : Handle} (hx : s.translate s.cx (s.sr a).toNat (s.sr b).toNat = .ok x) :
    (match (s.takes h).translate (s.takes h).cx ((s.takes h).sr a).toNat ((s.takes h).sr b).toNat with
      | .error f => (s.takes h).transFault f ((s.takes h).sr a).toNat
      | .ok x => (s.takes h).putH hd x) = (s.takes h).putH hd x := by
  rw [translate_takes, cx_takes, sr_takes, sr_takes, hx]
theorem xlate_faults {f : Flt} (hx : s.translate s.cx (s.sr a).toNat (s.sr b).toNat = .error f) :
    (match (s.takes h).translate (s.takes h).cx ((s.takes h).sr a).toNat ((s.takes h).sr b).toNat with
      | .error f => (s.takes h).transFault f ((s.takes h).sr a).toNat
      | .ok x => (s.takes h).putH hd x) = (s.takes h).transFault f (s.sr a).toNat := by
  rw [translate_takes, cx_takes, sr_takes, sr_takes, hx]

theorem xlate_writes (hr : s.canIssue h) (hf : (s.ctx s.cx).findExt ((s.sr a).toNat % 2 ^ 60) = some e) (hv : xRvk e.2 = false)
    (hl : s.lapsed s.cx e.2 = false) (hp : pathAllowed ((s.sr a).toNat / 2 ^ 60) (xTier e.2) = true)
    (hb : (s.sr a).toNat % 2 ^ 60 + (if (s.sr b).toNat = 0 then xTop e.2 - (s.sr a).toNat % 2 ^ 60 else (s.sr b).toNat) ≤ xTop e.2)
    (hid : e.1 < 16384) (hroom : (pruneVersions s.me.r.a.pos s.me.r.v.pos s.me.r.h[hd]).length < 4) :
    ∃ t x, exec (.xlate h hd a b) s = .next t ∧ t.me.r.h[hd] = stamped s.me.r s.me.r.h[hd] x ∧
      hValid x = true ∧ hKind x = 0 ∧ hPath x = (s.sr a).toNat / 2 ^ 60 ∧ hTier x = xTier e.2 ∧ hLog x = xLog e.2 ∧
      hAtc x = xAtc e.2 ∧ hRo x = xRo e.2 ∧ hExt x = e.1 ∧ hPerm x = xPerm e.2 ∧ hFrame x = xFrame e.2 ∧
      hBase x = (s.sr a).toNat ∧
      hLen x = if (s.sr b).toNat = 0 then xTop e.2 - (s.sr a).toNat % 2 ^ 60 else (s.sr b).toNat := by
  have ha := (s.sr a).isLt
  have hpath : bits (s.sr a).toNat 63 60 = (s.sr a).toNat / 2 ^ 60 := Nat.mod_eq_of_lt (by omega)
  have htop : xTop e.2 < 2 ^ 64 := by
    have hbase : xVbase e.2 < 2 ^ 39 := bits_lt _ _ _
    have hlog : 2 ^ xLog e.2 ≤ 2 ^ 63 := Nat.pow_le_pow_right (by decide) (Nat.lt_succ_iff.1 (bits_lt _ 125 120))
    unfold xTop xFirst
    omega
  have hx := translate_found (s := s) (c := s.cx) hf hv hl (hpath ▸ hp) hb
  rw [hpath] at hx
  exact ⟨_, _, rfl, (issue_putH_writes hr hroom (xlate_putH hx)).1,
    fields_extHandle e.2 hid (by omega) ha (Nat.lt_of_le_of_lt (Nat.le_of_add_left_le hb) htop)⟩

theorem xlate_unmapped_stops (hr : s.canIssue h) (hf : (s.ctx s.cx).findExt ((s.sr a).toNat % 2 ^ 60) = none)
    (hn : s.res.card < 4096) (hb : s.res.block < 2 ^ 24) (he : s.noError s.cx) (hq : s.me.quietPt = false)
    (hs : (s.ctx s.cx).stopped = false) :
    ∃ t, exec (.xlate h hd a b) s = .next t ∧ (t.ctx s.cx).stopped = true ∧ ((t.ctx s.cx).err.getD 0 0).toNat / 2 ^ 56 = 0x10 := by
  have hq' : (s.takes h).me.quietPt = false := (field_takes s h Core.quietPt).trans hq
  have hstop : (s.takes h).transFault (0x10, 0) (s.sr a).toNat = .stop ((s.takes h).fatal 0x10 0 (s.sr a).toNat) := by
    rw [State.transFault, hq']
    rfl
  have hcx : (s.takes h).ctx (s.takes h).cx = s.ctx s.cx := by rw [ctx_takes, cx_takes]
  obtain ⟨hstopped, hcode, -, -⟩ := fatal_stops (s := s.takes h) (code := 0x10) (detail := 0) (s.sr a).toNat (by decide) (by decide)
    (by rw [res_takes]; exact hn) (by rw [res_takes]; exact hb) (by rw [hcx]; exact hs) (by rw [State.noError, hcx]; exact he)
  rw [cx_takes] at hstopped hcode
  refine ⟨_, congrArg Host.Outcome.next (issue_stops hr ((xlate_faults (translate_unmapped hf)).trans hstop)), ?_, ?_⟩
  · rw [ctx_unpop]
    exact hstopped
  · rw [ctx_unpop]
    exact hcode

theorem xlate_unmapped_waits (hr : s.canIssue h) (hf : (s.ctx s.cx).findExt ((s.sr a).toNat % 2 ^ 60) = none)
    (hq : s.me.quietPt = true) :
    ∃ t, exec (.xlate h hd a b) s = .next t ∧ t.me.tfault = some (0x10, 0, (s.sr a).toNat) ∧ t.st.pos = s.st.pos ∧
      t.me.r.h = s.me.r.h := by
  have hq' : (s.takes h).me.quietPt = true := (field_takes s h Core.quietPt).trans hq
  have hwait : (s.takes h).transFault (0x10, 0) (s.sr a).toNat =
      .wait .other ((s.takes h).modMe fun c => { c with tfault := some (0x10, 0, (s.sr a).toNat) }) := by
    rw [State.transFault, hq']
    rfl
  refine ⟨_, congrArg Host.Outcome.next (issue_waits hr ((xlate_faults (translate_unmapped hf)).trans hwait)), ?_, ?_, ?_⟩
  · rw [State.blocked, field_modSt _ Core.tfault, field_modSt _ Core.tfault, me_modMe]
  · rw [State.blocked, st_modSt, st_modSt]
    exact (congrArg Stream.pos (st_modMe _ fun c m => by cases m <;> rfl)).trans (pos_takes s h)
  · rw [State.blocked, regs_modSt _ Regs.h, regs_modSt _ Regs.h, me_modMe]
    exact h_takes s h

theorem exec_probe (hr : s.canIssue h) (hf : (s.ctx s.cx).findExt ((s.sr a).toNat % 2 ^ 60) = some e) (hv : xRvk e.2 = false)
    (hl : s.lapsed s.cx e.2 = false) :
    exec (.probe h d a) s = .next (s.gives h d (probeWord e.1 e.2 (s.sr a).toNat) 0) := by
  refine congrArg Host.Outcome.next (issue_writes hr ?_)
  simp only [lookup_takes, cx_takes, sr_takes, lookup_found hf hv hl]

end

/-! ### HLOC's handle (R191) -/

/-- The fields of a handle of scratch or of the elastic grant. -/
theorem fields_local {k o n : Nat} (hk : k < 2) (ho : o < 2 ^ 60) (hn : n < 2 ^ 64) :
    let x := mkHandle (2 ^ 127 + (k + 1) * 2 ^ 124) o n
    hValid x = true ∧ hKind x = k + 1 ∧ hBase x = o ∧ hLen x = n := by
  have htop : 2 ^ 127 + (k + 1) * 2 ^ 124 < 2 ^ 128 := by omega
  have ho' : o < 2 ^ 64 := by omega
  refine ⟨(bit_mkHandle 127 htop ho' hn).trans ?_, (bits_mkHandle 126 124 htop ho' hn).trans ?_, hBase_mkHandle htop ho' hn,
    hLen_mkHandle htop ho' hn⟩
  · rw [bit, beq_iff_eq]
    omega
  · rw [bits]
    omega

/-- Path and offset of an address. -/
theorem path_offset {k o : Nat} (hk : k < 16) (ho : o < 2 ^ 60) :
    bits (k * 2 ^ 60 + o) 63 60 = k ∧ (k * 2 ^ 60 + o) % 2 ^ 60 = o := by
  unfold bits
  omega

/-- HLOC of n bytes inside the limit of their path, n the length given or what the limit leaves. -/
theorem hloc_inside {scr llc k o len n a : Nat} (ha : a = k * 2 ^ 60 + o) (hk : k < 2) (ho : o < 2 ^ 60)
    (hn : (if len = 0 then (if k = 0 then scr else llc) - o else len) = n) (hpos : 0 < n) (hsize : n < 2 ^ 64)
    (hlim : o + n ≤ if k = 0 then scr else llc) :
    ∃ x, hloc scr llc a len = .ok x ∧ hValid x = true ∧ hKind x = k + 1 ∧ hBase x = o ∧ hLen x = n := by
  obtain ⟨hpath, hoff⟩ := path_offset (show k < 16 by omega) ho
  refine ⟨_, ?_, fields_local hk ho hsize⟩
  unfold hloc
  dsimp only
  rw [ha, hpath, hoff, if_neg (by omega), hn, if_neg (by omega)]

theorem hloc_scratch_outside {scr llc a len : Nat} (ha : a < 2 ^ 60) (h : scr < a + len) :
    hloc scr llc a len = .error undeclared := by
  obtain ⟨hpath, hoff⟩ := path_offset (show 0 < 16 by decide) ha
  rw [Nat.zero_mul, Nat.zero_add] at hpath hoff
  unfold hloc
  dsimp only
  rw [hpath, hoff, if_neg (by decide), if_pos rfl, if_pos]
  split <;> omega
theorem hloc_other_path {scr llc a len : Nat} (ha : a < 2 ^ 60) : hloc scr llc (2 * 2 ^ 60 + a) len = .error accBounds := by
  obtain ⟨hpath, hoff⟩ := path_offset (show 2 < 16 by decide) ha
  unfold hloc
  dsimp only
  rw [hpath, if_pos (by decide)]

/-- Settles O11: the checks of a translation in their order, a version stamped with C's position, and the fields of handles made
from their parts. -/
theorem translationAndHandleFormsComplete : Obligations.TranslationAndHandleFormsComplete := by
  unfold Obligations.TranslationAndHandleFormsComplete
  refine ⟨?_, ?_, ?_, ?_, ?_⟩
  · intro s h hd a b e hr v path len hf hv hl hp hb hid hroom
    exact xlate_writes hr hf hv hl hp hb hid hroom
  · intro s h hd a b hr hf hn hb he
    exact ⟨xlate_unmapped_stops hr hf hn hb he, xlate_unmapped_waits hr hf⟩
  · intro s h d a e hr hf hv hl
    exact exec_probe hr hf hv hl
  · intro s h hd hs td d a b f g imm hr hm room wrote
    have writes {eff : State → Res} {x : Handle} (hroom : room) (he : eff (s.takes h) = (s.takes h).putH hd x) :
        ∃ t, Host.Outcome.next (s.issue h eff) = (.next t : Out) ∧ t.me.r.h[hd] = stamped s.me.r s.me.r.h[hd] x ∧
          (∀ k, k ≠ hd → t.me.r.h[k] = s.me.r.h[k]) ∧ t.st.s = s.st.s ∧ s.sameMemory t :=
      ⟨_, rfl, issue_putH_writes hr hroom he⟩
    refine ⟨fun hroom x hx => writes hroom ?_, fun hroom => writes hroom ?_, fun hroom x hx => writes hroom ?_, ?_, ?_,
      fun hroom => ⟨_, congrArg Host.Outcome.next (issue_putT hr hroom rfl), ?_⟩⟩
    · simp only [res_takes, sr_takes, hx]
    · simp only [newH_takes hm]
    · simp only [newH_takes hm, newT_takes hm, sr_takes, hx]
    · exact congrArg Host.Outcome.next (issue1_writes hr (by rw [newH_takes hm]))
    · exact congrArg Host.Outcome.next (issue1_writes hr (by rw [newT_takes hm]))
    · simp [t_newT_leaves, stamped]
  · intro scr llc a len ha hscr hllc
    refine ⟨fun hlen hin => ?_, fun hin => ?_, fun hlen hin => ?_, hloc_scratch_outside ha, hloc_other_path ha⟩
    · exact hloc_inside (k := 0) (by omega) (by decide) ha (if_neg hlen.ne') hlen (by omega) hin
    · exact hloc_inside (k := 0) (by omega) (by decide) ha rfl (Nat.sub_pos_of_lt hin) (by omega)
        (Nat.add_sub_of_le hin.le).le
    · obtain ⟨x, hx, -, hfields⟩ := hloc_inside (scr := scr) (llc := llc) (k := 1) (a := 2 ^ 60 + a) (by omega) (by decide) ha
        (if_neg hlen.ne') hlen (by omega) hin
      exact ⟨x, hx, hfields⟩

end Sys2Proof.Proofs
end

section
/-!
PROOFS. The answer to a request of the command processor, read back (R404).
-/
namespace Sys2Proof.Proofs
open Sys2Proof Sys2Proof.Machine Sys2Proof.Laws

-- One proof after another: side by side, they would wait for one another's equations of the model in a thread each.
set_option Elab.async false

/-! ### Bytes of a number (R3) -/

theorem length_toBytes (n v : Nat) : (toBytes n v).length = n := by
  induction n generalizing v with
  | zero => rfl
  | succ n ih => rw [toBytes, List.length_cons, ih]
theorem ofBytes_toBytes (n v : Nat) : ofBytes (toBytes n v) = v % 256 ^ n := by
  induction n generalizing v with
  | zero => rw [Nat.pow_zero, Nat.mod_one]; rfl
  | succ n ih =>
    rw [toBytes, ofBytes, ih, BitVec.toNat_ofNat, pow_succ' 256 n, Nat.mod_mul]

/-! ### Memory read after a run of bytes was written -/

theorem upto_eq_map (lo n : Nat) : upto lo n = (List.range n).map (lo + ·) := by
  induction n generalizing lo with
  | zero => rfl
  | succ n ih =>
    rw [upto, ih, List.range_succ_eq_map, List.map_cons, List.map_map]
    refine congrArg (List.cons (lo + 0)) (List.map_congr_left fun i _ => ?_)
    simp only [Function.comp]
    omega
/-- A run of bytes inside what has been written. -/
theorem peek_setAll {s t : State} {a o : Nat} {bs cs : List Byte} (h : Memory.wf s.mem = true)
    (ht : t.mem = Memory.setAll s.mem (cellsAt a bs)) (hcs : (bs.drop o).take cs.length = cs) :
    t.peek (a + o) cs.length = ofBytes cs := by
  have hlen : cs.length ≤ bs.length - o := by
    have hl := congrArg List.length hcs
    rw [List.length_take, List.length_drop] at hl
    omega
  rw [State.peek, upto_eq_map, List.map_map]
  congr 1
  refine List.ext_getElem (by simp) fun i h1 h2 => ?_
  have hi : i < cs.length := h2
  have hget : cs[i] = bs[o + i] := by
    have := List.getElem_of_eq hcs.symm hi
    rw [this, List.getElem_take, List.getElem_drop]
  simp only [List.getElem_map, List.getElem_range, Function.comp]
  rw [ht, memory_get_setAll_cellsAt _ _ h, if_pos (by omega), hget, Nat.add_assoc, Nat.add_sub_cancel_left]
  exact List.getD_eq_getElem _ _ (by omega)

/-! ### The answer -/

/-- Memory, its books and the module's interrupts apart, nothing differs. -/
structure OnlyAnswer (s t : State) : Prop where
  only : t = { s with
    ways := t.ways, wseq := t.wseq, mem := t.mem, poison := t.poison, hist := t.hist, msgs := t.msgs, agents := t.agents,
    mint := t.mint, msixPend := t.msixPend, msixSent := t.msixSent }

namespace OnlyAnswer
variable {s t u : State}

theorem refl (s : State) : OnlyAnswer s s := ⟨rfl⟩
theorem trans (h : OnlyAnswer s t) (g : OnlyAnswer t u) : OnlyAnswer s u := by
  refine ⟨?_⟩
  rw [g.only, h.only]
theorem ctx (h : OnlyAnswer s t) (c : Nat) : t.ctx c = s.ctx c := by rw [h.only]; rfl
theorem clearWay (s : State) (k : Nat) : OnlyAnswer s (s.clearWay k) := by
  unfold State.clearWay
  split
  · exact ⟨rfl⟩
  · exact refl s
theorem clearRows (s : State) (as : List Nat) : OnlyAnswer s (s.clearRows as) := by
  unfold State.clearRows
  induction s.waysOf as generalizing s with
  | nil => exact refl s
  | cons w r ih => exact (clearWay s w.1).trans (ih _)
theorem perform (s : State) (g : Nat) (v : View) (cells : List Host.Cell) : OnlyAnswer s (s.perform g v cells) := by
  unfold State.perform
  split <;> exact ⟨rfl⟩
theorem loneWrite (s : State) (cls : Nat) (cells : List Host.Cell) : OnlyAnswer s (s.loneWrite cls cells) :=
  trans (t := (s.newAgent cls).2) ⟨rfl⟩ ((clearRows _ _).trans (perform _ _ _ _))
theorem raiseMod (s : State) (n : Nat) : OnlyAnswer s (s.raiseMod n) := by
  unfold State.raiseMod State.sendVec
  split
  · exact refl s
  · split <;> exact ⟨rfl⟩
theorem respond (s : State) (a : Nat) (w0 : Word) (status value : Nat) : OnlyAnswer s (s.respond a w0 status value) := by
  unfold State.respond
  dsimp only
  split
  · exact (loneWrite s _ _).trans (raiseMod _ 0)
  · exact loneWrite s _ _

end OnlyAnswer

/-- The bytes of an answer: words 6 and 7 of its record. -/
def answerBytes (w0 : Word) (status value : Nat) : List Byte :=
  toBytes 8 (status * 2 ^ 56 + value % 2 ^ 56) ++ toBytes 8 (2 ^ 63 + w0.toNat % 2 ^ 32)

theorem respond_mem (s : State) (a : Nat) (w0 : Word) (status value : Nat) :
    (s.respond a w0 status value).mem = Memory.setAll s.mem (cellsAt (a + 48) (answerBytes w0 status value)) := by
  have hm (cells : List Host.Cell) : (s.loneWrite moduleClass cells).mem = Memory.setAll s.mem cells :=
    (perform_mem _ _ _ _).trans (congrArg (Memory.setAll · cells) (clearRows_mem _ _))
  unfold State.respond
  dsimp only
  split
  · exact (raiseMod_mem _ 0).trans (hm _)
  · exact hm _

theorem peek_respond {s : State} {a status value : Nat} {w0 : Word} (h : Memory.wf s.mem = true) (hs : status < 256) :
    (s.respond a w0 status value).peek (a + 48) 8 = status * 2 ^ 56 + value % 2 ^ 56 ∧
      (s.respond a w0 status value).peek (a + 56) 8 = 2 ^ 63 + w0.toNat % 2 ^ 32 := by
  have hm := respond_mem s a w0 status value
  have hv := Nat.mod_lt value (Nat.two_pow_pos 56)
  have hw := Nat.mod_lt w0.toNat (Nat.two_pow_pos 32)
  have h6 := peek_setAll (o := 0) (cs := toBytes 8 (status * 2 ^ 56 + value % 2 ^ 56)) h hm (by simp [answerBytes, length_toBytes])
  have h7 := peek_setAll (o := 8) (cs := toBytes 8 (2 ^ 63 + w0.toNat % 2 ^ 32)) h hm (by
    rw [answerBytes, List.drop_left' (length_toBytes ..), List.take_length])
  rw [length_toBytes, ofBytes_toBytes] at h6 h7
  refine ⟨h6.trans (Nat.mod_eq_of_lt ?_), h7.trans (Nat.mod_eq_of_lt ?_)⟩ <;> norm_num <;> omega

/-- Bytes outside an answer stay. -/
theorem get_respond_ne {s : State} {a status value : Nat} {w0 : Word} (h : Memory.wf s.mem = true) {j : Nat}
    (hj : ¬ (a + 48 ≤ j ∧ j < a + 64)) : Memory.get (s.respond a w0 status value).mem j = Memory.get s.mem j := by
  rw [respond_mem, memory_get_setAll_cellsAt _ _ h, if_neg]
  simpa [answerBytes, length_toBytes, Nat.add_assoc] using hj

end Sys2Proof.Proofs
end

section
/-!
PROOFS. Revocations, the driver's answers and leases, settled (R176 to R178, R309).
-/
namespace Sys2Proof.Proofs
open Sys2Proof Sys2Proof.Machine Sys2Proof.Laws

-- One proof after another: side by side, they would wait for one another's equations of the model in a thread each.
set_option Elab.async false

/-! ### The RVK bit (R169, R177) -/

theorem getLsbD_clearRvk (x : Extent) {b : Nat} (hb : b < 128) :
    (BitVec.ofNat 128 (putBits x.toNat 126 126 0)).getLsbD b = if b = 126 then false else x.getLsbD b := by
  rw [getLsbD_ofNat_eq_bit _ hb, bit_eq_testBit, testBit_putBits 0 b (by decide), Nat.zero_testBit]
  by_cases h : b = 126
  · rw [if_pos (by omega), if_pos h]
  · rw [if_neg (by omega), if_neg h]
    rfl
theorem xRvk_eq (x : Extent) : xRvk x = x.getLsbD 126 := bit_eq_testBit _ _
theorem xRvk_set (x : Extent) : xRvk (x ||| BitVec.ofNat 128 (2 ^ 126)) = true := by
  rw [xRvk_eq, BitVec.getLsbD_or, getLsbD_ofNat_two_pow_self (by decide), Bool.or_true]
theorem ext_mset_self (t : Ctx) (n : Nat) (x : Extent) : ({ t with exts := mset t.exts n x } : Ctx).ext n = x :=
  mgetD_mset_self _ _ _ _

/-! ### What leaves the extents and the revocations alone -/

/-- Memory, the leases, the place in the request ring, and each context's extents, revocations and regions are the same. -/
structure SameSpace (s t : State) : Prop where
  mem : t.mem = s.mem
  leases : t.leases = s.leases
  rqhead : t.rqhead = s.rqhead
  exts : ∀ c, (t.ctx c).exts = (s.ctx c).exts
  revs : ∀ c, (t.ctx c).revs = (s.ctx c).revs
  regions : ∀ c, (t.ctx c).regions = (s.ctx c).regions

namespace SameSpace
variable {s t u : State}

theorem of_ctxs (hc : t.ctxs = s.ctxs) (hm : t.mem = s.mem) (hl : t.leases = s.leases) (hq : t.rqhead = s.rqhead) :
    SameSpace s t := by
  have hctx (c : Nat) : t.ctx c = s.ctx c := congrArg (fun m => mgetD m c Ctx.init) hc
  exact ⟨hm, hl, hq, fun c => by rw [hctx], fun c => by rw [hctx], fun c => by rw [hctx]⟩
theorem refl (s : State) : SameSpace s s := of_ctxs rfl rfl rfl rfl
theorem trans (h : SameSpace s t) (g : SameSpace t u) : SameSpace s u :=
  ⟨g.mem.trans h.mem, g.leases.trans h.leases, g.rqhead.trans h.rqhead, fun c => (g.exts c).trans (h.exts c),
    fun c => (g.revs c).trans (h.revs c), fun c => (g.regions c).trans (h.regions c)⟩
theorem foldl {α : Type} {f : State → α → State} (hf : ∀ t x, SameSpace t (f t x)) (l : List α) (s : State) :
    SameSpace s (l.foldl f s) := by
  induction l generalizing s with
  | nil => exact refl s
  | cons x l ih => exact (hf s x).trans (ih _)
theorem ext (h : SameSpace s t) (c n : Nat) : (t.ctx c).ext n = (s.ctx c).ext n := by rw [Ctx.ext, h.exts, Ctx.ext]
theorem modCtx (s : State) (n : Nat) {f : Ctx → Ctx} (he : ∀ x, (f x).exts = x.exts := by exact fun _ => rfl)
    (hr : ∀ x, (f x).revs = x.revs := by exact fun _ => rfl) (hg : ∀ x, (f x).regions = x.regions := by exact fun _ => rfl) :
    SameSpace s (s.modCtx n f) :=
  ⟨rfl, rfl, rfl, fun c => field_modCtx Ctx.exts s n c he, fun c => field_modCtx Ctx.revs s n c hr,
    fun c => field_modCtx Ctx.regions s n c hg⟩
theorem modCore (s : State) (k : Nat) (f : Core → Core) : SameSpace s (s.modCore k f) := of_ctxs rfl rfl rfl rfl
theorem logEv (s : State) (e : Ev) : SameSpace s (s.logEv e) := by
  unfold State.logEv
  split <;> exact of_ctxs rfl rfl rfl rfl

theorem loadBase (s : State) (u c e : Nat) (g : Nat × Nat) : SameSpace s (s.loadBase u c e g) := of_ctxs rfl rfl rfl rfl
theorem reload (s : State) (c n : Nat) : SameSpace s (s.reload c n) := by
  refine foldl (fun t e => ?_) _ s
  split
  · exact loadBase t _ _ _ _
  · exact of_ctxs rfl rfl rfl rfl
theorem setUnit (s : State) (n : Nat) (r : NmRun) (x : NmUnit) : SameSpace s (s.setUnit n r x) := by
  unfold State.setUnit
  dsimp only
  split <;> exact of_ctxs rfl rfl rfl rfl
theorem unpause (s : State) (c n : Nat) : SameSpace s (s.unpause c n) := by
  unfold State.unpause
  extract_lets s1 t s2
  have h2 : SameSpace s s2 := (reload s c n).trans (of_ctxs rfl rfl rfl rfl)
  refine h2.trans (foldl (fun v q => ?_) _ s2)
  split
  · split
    · refine .trans ?_ (setUnit _ _ _ _)
      split
      · split
        · exact refl v
        · exact loadBase v _ _ _ _
      · exact refl v
    · exact refl v
  · exact refl v
theorem withdrawLost (s : State) (c n : Nat) : SameSpace s (s.withdrawLost c n) :=
  foldl (fun t _ => (logEv t _).trans (modCtx _ c)) _ s
theorem retranslateAll (s : State) (k : Nat) : SameSpace s (s.retranslateAll k) := by
  unfold State.retranslateAll
  split <;> exact modCore s k _
theorem retryWaiting (s : State) (c : Nat) : SameSpace s (s.retryWaiting c) := by
  refine foldl (fun t k => ?_) _ s
  dsimp only
  split
  · exact modCore t k _
  · exact (modCore t k _).trans (retranslateAll _ k)
theorem reachCore (s : State) (n k : Nat) : SameSpace s (s.reachCore n k) := by
  unfold State.reachCore
  extract_lets c r ev s1 ks target
  have h1 : SameSpace s s1 := (logEv s _).trans (modCore _ k _)
  split
  · exact h1
  · exact h1.trans (foldl (fun t j => modCore t j _) ks s1)

end SameSpace

/-! ### A revocation ends (R177) -/

/-- An entry that stands in no revocation any more. -/
def cleared (x : Extent) : Extent := BitVec.ofNat 128 (putBits x.toNat 126 126 0)
/-- What the end of a revocation changes in its context, `old` the entry that a lease keeps (R177, R288). -/
def revEnd (v : Revoc) (old : Extent) (t : Ctx) : Ctx :=
  let u : Ctx := { t with
    revs := t.revs.erase v
    cks := t.cks.map fun k => (k.1, { k.2 with revoked := v.ext :: k.2.revoked })
    exts := if v.keep then mset t.exts v.ext old else match v.new with
      | some x => mset t.exts v.ext x
      | none => mdel t.exts v.ext }
  if v.keep ∨ v.new.isSome then u else u.dropTables v.ext

section
variable {v : Revoc}

theorem revs_revEnd (v : Revoc) (old : Extent) (t : Ctx) : (revEnd v old t).revs = t.revs.erase v := by
  unfold revEnd
  dsimp only
  split <;> rfl
theorem exts_revEnd_keep (h : v.keep = true) (old : Extent) (t : Ctx) : (revEnd v old t).exts = mset t.exts v.ext old := by
  simp only [revEnd, h, true_or, if_true]
theorem exts_revEnd_new {e : Extent} (h : v.keep = false) (hn : v.new = some e) (old : Extent) (t : Ctx) :
    (revEnd v old t).exts = mset t.exts v.ext e := by
  simp [revEnd, h, hn]
theorem exts_revEnd_none (h : v.keep = false) (hn : v.new = none) (old : Extent) (t : Ctx) :
    (revEnd v old t).exts = mdel t.exts v.ext := by
  simp [revEnd, h, hn, Ctx.dropTables]

end

/-- The end of a revocation: its context's change, what goes on with it, and the answer to its request. -/
theorem endRevocation_eq (s : State) (c : Nat) (v : Revoc) :
    ∃ u : State, SameSpace (s.modCtx c (revEnd v (cleared ((s.ctx c).ext v.ext)))) u ∧
      s.endRevocation c v = v.slot.elim u fun r => u.respond r.1 r.2 0 0 := by
  unfold State.endRevocation
  extract_lets old clear s1 s2
  have h2 : SameSpace s1 s2 := by
    refine .trans (.trans ?_ (.unpause _ c v.ext)) (.retryWaiting _ c)
    split
    · exact .refl s1
    · exact .withdrawLost s1 c v.ext
  refine ⟨s2, h2, ?_⟩
  cases v.slot <;> rfl

/-- No core of the context has a revocation to acknowledge. -/
def noHolder (s : State) (c : Fin 8) (n : Nat) : Prop :=
  (s.cores.any fun e => (e.2.blk.any fun r => r.ctx == c) && e.2.rvks.any fun y => y.ext == n) = false

theorem exec_revocationComplete {s : State} {c : Fin 8} {n : Fin 16384} {v : Revoc} (hd : s.down = false)
    (hv : ((s.ctx c).revs.find? fun y => y.ext == n.val) = some v) (hu : s.unitsHold c n = false) (hh : noHolder s c n.val) :
    exec (.revocationComplete c n) s = .next (s.endRevocation c v) := by
  have hext : v.ext = n.val := eq_of_beq (List.find?_some (p := fun y : Revoc => y.ext == n.val) hv)
  have hnone : (s.cores.filterMap fun e => if (e.2.blk.any fun r => r.ctx == c) && e.2.rvks.any fun y => y.ext == n.val then
      some e.1 else none) = [] := by
    refine List.filterMap_eq_nil_iff.2 fun e he => if_neg ?_
    exact List.any_eq_false.1 hh e he
  change execRevocationComplete c n s = _
  unfold execRevocationComplete
  simp only [hv, hext, hnone, hd, hu, List.any_nil, List.foldl_nil, Bool.false_eq_true, or_self, if_false]

/-- What stands in the context once a revocation has ended. -/
theorem endRevocation_ctx (s : State) (c : Nat) (v : Revoc) :
    ((s.endRevocation c v).ctx c).exts = (revEnd v (cleared ((s.ctx c).ext v.ext)) (s.ctx c)).exts ∧
      ((s.endRevocation c v).ctx c).revs = (s.ctx c).revs.erase v := by
  obtain ⟨u, hu, he⟩ := endRevocation_eq s c v
  have hc : (s.endRevocation c v).ctx c = u.ctx c := by
    rw [he]
    cases v.slot with
    | none => rfl
    | some r => exact (OnlyAnswer.respond u r.1 r.2 0 0).ctx c
  have hex := hu.exts c
  have hre := hu.revs c
  rw [ctx_modCtx_self] at hex hre
  rw [hc]
  exact ⟨hex, hre.trans (revs_revEnd ..)⟩
theorem endRevocation_answers {s : State} {c : Nat} {v : Revoc} {r : Nat × Word} (hr : v.slot = some r)
    (hm : Memory.wf s.mem = true) : (s.endRevocation c v).peek (r.1 + 48) 8 = 0 ∧
      (s.endRevocation c v).peek (r.1 + 56) 8 = 2 ^ 63 + r.2.toNat % 2 ^ 32 := by
  obtain ⟨u, hu, he⟩ := endRevocation_eq s c v
  have hmu : Memory.wf u.mem = true := by
    rw [hu.mem]
    exact hm
  rw [he, hr]
  exact peek_respond (s := u) (status := 0) (value := 0) hmu (by decide)

theorem revocationComplete_ends {s : State} {c : Fin 8} {n : Fin 16384} {v : Revoc} (hd : s.down = false)
    (hv : ((s.ctx c).revs.find? fun y => y.ext == n.val) = some v) (hu : s.unitsHold c n = false) (hh : noHolder s c n.val) :
    ∃ t, exec (.revocationComplete c n) s = .next t ∧ (t.ctx c).revs = (s.ctx c).revs.erase v ∧
      (v.keep = true → xRvk ((t.ctx c).ext n) = false ∧
        ∀ b, b ≠ 126 → ((t.ctx c).ext n).getLsbD b = ((s.ctx c).ext n).getLsbD b) ∧
      (v.keep = false → ∀ e, v.new = some e → mget (t.ctx c).exts n = some e) ∧
      (v.keep = false → v.new = none → risingFrom 0 (s.ctx c).exts = true → mget (t.ctx c).exts n = none) ∧
      (∀ r, v.slot = some r → Memory.wf s.mem = true →
        t.peek (r.1 + 48) 8 = 0 ∧ t.peek (r.1 + 56) 8 = 2 ^ 63 + r.2.toNat % 2 ^ 32) := by
  have hext : v.ext = n.val := eq_of_beq (List.find?_some (p := fun y : Revoc => y.ext == n.val) hv)
  obtain ⟨hex, hre⟩ := endRevocation_ctx s c v
  refine ⟨_, exec_revocationComplete hd hv hu hh, hre, fun hk => ?_, fun hk e hn => ?_, fun hk hn hr => ?_,
    fun r hr hm => endRevocation_answers hr hm⟩
  · have hnew : ((s.endRevocation c v).ctx c).ext n = cleared ((s.ctx c).ext n) := by
      rw [Ctx.ext, hex, exts_revEnd_keep hk, hext]
      exact mgetD_mset_self _ _ _ _
    rw [hnew]
    refine ⟨?_, fun b hb => ?_⟩
    · rw [xRvk_eq, cleared, getLsbD_clearRvk _ (by decide), if_pos rfl]
    · by_cases hlt : b < 128
      · rw [cleared, getLsbD_clearRvk _ hlt, if_neg hb]
      · rw [BitVec.getLsbD_of_ge _ _ (Nat.le_of_not_lt hlt), BitVec.getLsbD_of_ge _ _ (Nat.le_of_not_lt hlt)]
  · rw [hex, exts_revEnd_new hk hn, hext, mget_mset_self]
  · rw [hex, exts_revEnd_none hk hn, hext]
    exact mget_mdel_self _ hr

/-! ### A lease lapses (R309) -/

/-- Memory, the leases and the place in the request ring are the same, and context c's extents under revocation stay so. -/
structure KeepsRvk (c : Nat) (s t : State) : Prop where
  mem : t.mem = s.mem
  leases : t.leases = s.leases
  rqhead : t.rqhead = s.rqhead
  rvk : ∀ n, xRvk ((s.ctx c).ext n) = true → xRvk ((t.ctx c).ext n) = true

theorem KeepsRvk.trans {c : Nat} {s t u : State} (h : KeepsRvk c s t) (g : KeepsRvk c t u) : KeepsRvk c s u :=
  ⟨g.mem.trans h.mem, g.leases.trans h.leases, g.rqhead.trans h.rqhead, fun n hn => g.rvk n (h.rvk n hn)⟩

section
variable (s : State) (c n : Nat) (new : Option Extent) (slot : Option (Nat × Word)) (keep : Bool)

/-- What a revocation changes in its context: RVK is set, and it is listed (R177). -/
def revStart (time : Nat) (t : Ctx) : Ctx :=
  { t with exts := mset t.exts n (t.ext n ||| BitVec.ofNat 128 (2 ^ 126)), revs := t.revs ++ [⟨n, new, slot, keep, time⟩] }

/-- A revocation reaches its holders and changes nothing else of the contexts. -/
theorem revoke_space : SameSpace (s.modCtx c (revStart n new slot keep s.rtime)) (s.revoke c n new slot keep) := by
  unfold State.revoke
  extract_lets s0 s1
  have h1 : SameSpace s0 s1 := .of_ctxs rfl rfl rfl rfl
  exact h1.trans (.foldl (fun t k => .reachCore t n k) _ s1)
theorem revoke_ext_self : xRvk (((s.revoke c n new slot keep).ctx c).ext n) = true := by
  rw [(revoke_space s c n new slot keep).ext, ctx_modCtx_self, revStart, Ctx.ext, mgetD_mset_self, xRvk_set]
theorem revoke_ext_ne {m : Nat} (h : m ≠ n) : ((s.revoke c n new slot keep).ctx c).ext m = (s.ctx c).ext m := by
  rw [(revoke_space s c n new slot keep).ext, ctx_modCtx_self, revStart, Ctx.ext, mgetD_mset_ne _ _ _ h, Ctx.ext]
theorem revoke_revs : ((s.revoke c n new slot keep).ctx c).revs = (s.ctx c).revs ++ [⟨n, new, slot, keep, s.rtime⟩] := by
  rw [(revoke_space s c n new slot keep).revs, ctx_modCtx_self, revStart]
theorem keepsRvk_revoke : KeepsRvk c s (s.revoke c n new slot keep) := by
  refine ⟨(revoke_space s c n new slot keep).mem, (revoke_space s c n new slot keep).leases,
    (revoke_space s c n new slot keep).rqhead, fun m hm => ?_⟩
  by_cases h : m = n
  · rw [h, revoke_ext_self]
  · rw [revoke_ext_ne s c n new slot keep h, hm]

end

/-- Extents revoked one after the other are all in revocation. -/
theorem foldl_revoke (c : Nat) (l : List Nat) (s : State) :
    KeepsRvk c s (l.foldl (fun t n => t.revoke c n none none true) s) ∧
      ∀ n ∈ l, xRvk (((l.foldl (fun t n => t.revoke c n none none true) s).ctx c).ext n) = true := by
  induction l generalizing s with
  | nil => exact ⟨⟨rfl, rfl, rfl, fun _ h => h⟩, fun _ h => absurd h List.not_mem_nil⟩
  | cons m l ih =>
    obtain ⟨hkeep, hall⟩ := ih (s.revoke c m none none true)
    refine ⟨(keepsRvk_revoke s c m none none true).trans hkeep, fun n hn => ?_⟩
    rcases List.mem_cons.1 hn with rfl | hn
    · exact hkeep.rvk n (revoke_ext_self s c n none none true)
    · exact hall n hn

/-- A lease lapses: its channel is marked, memory stays, and every extent of its channel is in revocation. -/
theorem lapse_spec {s : State} {c ch : Nat} {l : Lease} (hl : mget s.leases ch = some l) :
    mget (s.lapse c ch).leases ch = some { l with lapsed := true } ∧ (s.lapse c ch).mem = s.mem ∧
      (s.lapse c ch).rqhead = s.rqhead ∧ ∀ n ∈ (s.ctx c).onChannel ch, xRvk (((s.lapse c ch).ctx c).ext n) = true := by
  unfold State.lapse
  rw [hl]
  dsimp only
  obtain ⟨hkeep, hall⟩ := foldl_revoke c (((s.ctx c).onChannel ch).filter fun n => !xRvk ((s.ctx c).ext n))
    { s with leases := mset s.leases ch { l with lapsed := true } }
  refine ⟨?_, hkeep.mem, hkeep.rqhead, fun n hn => ?_⟩
  · refine (congrArg (mget · ch) hkeep.leases).trans ?_
    exact mget_mset_self _ _ _
  · by_cases hr : xRvk ((s.ctx c).ext n) = true
    · exact hkeep.rvk n hr
    · exact hall n (List.mem_filter.2 ⟨hn, by simpa using hr⟩)

theorem leaseLapse_lapses {s : State} {ch : Fin 64} {l : Lease} (hd : s.down = false) (hl : mget s.leases ch = some l)
    (hp : l.lapsed = false) (he : l.expiry ≤ s.rtime) (hf : s.lapseDeferred l.ctx ch = false) :
    ∃ t, exec (.leaseLapse ch) s = .next t ∧ mget t.leases ch = some { l with lapsed := true } ∧ s.sameMemory t ∧
      ∀ n ∈ (s.ctx l.ctx).onChannel ch, xRvk ((t.ctx l.ctx).ext n) = true := by
  have hexec : exec (.leaseLapse ch) s = .next (s.lapse l.ctx.val ch.val) := by
    change execLeaseLapse ch s = _
    unfold execLeaseLapse
    rw [hl]
    dsimp only
    rw [if_neg]
    simp only [hd, hp, hf, Nat.not_lt.2 he, Bool.false_eq_true, or_self, not_false_eq_true]
  obtain ⟨hlease, hmem, -, hall⟩ := lapse_spec (s := s) (c := l.ctx) hl
  exact ⟨_, hexec, hlease, fun a => by rw [hmem], hall⟩

/-! ### The driver's answer to a translation fault (R176) -/

section
variable {s : State} {k code detail a : Nat}

theorem translationFaultAnswer_stops (hd : s.down = false) (hf : (s.core k).tfault = some (code, detail, a)) (hne : code ≠ 0x11)
    (hc : code < 256) (hdt : detail < 256) (hn : (s.core k).res.card < 4096) (hb : (s.core k).res.block < 2 ^ 24)
    (hs : (s.ctx (s.core k).res.ctx).stopped = false) (he : s.noError (s.core k).res.ctx) :
    ∃ t, exec (.translationFaultAnswer k false) s = .next t ∧ (t.ctx (s.core k).res.ctx).stopped = true ∧
      wd (t.ctx (s.core k).res.ctx).err 0 / 2 ^ 56 = code := by
  have hexec : exec (.translationFaultAnswer k false) s =
      .next (s.contextStop (s.core k).res.ctx code (s.errAt k .c (s.core k).r.c.pos code detail a)) := by
    change execTranslationFaultAnswer k false s = _
    unfold execTranslationFaultAnswer
    simp [hf, hd, hne]
  obtain ⟨hstop, hcode, -, -⟩ := contextStop_stops (fitsWord0_errAt .c (s.core k).r.c.pos a hc hdt hn hb) hs he
  exact ⟨_, hexec, hstop, hcode⟩
theorem translationFaultAnswer_retries (hd : s.down = false) (hf : (s.core k).tfault = some (code, detail, a)) (hne : code ≠ 0x11)
    (hr : (s.core k).retr = []) : ∃ t, exec (.translationFaultAnswer k true) s = .next t ∧
      t.core k = { s.core k with tfault := none } ∧ s.sameMemory t := by
  have hexec : exec (.translationFaultAnswer k true) s = .next (s.modCore k fun x => { x with tfault := none }) := by
    change execTranslationFaultAnswer k true s = _
    unfold execTranslationFaultAnswer
    simp [hf, hd, hne, hr]
  exact ⟨_, hexec, core_modCore_self .., fun _ => rfl⟩

end

/-! ### A holder past its longest phase (R178, R352) -/

/-- Memory is the same, and of context c the keys of the records keep rising and this record stays listed. -/
structure KeepsRec (c key : Nat) (s t : State) : Prop where
  mem : t.mem = s.mem
  rising : risingFrom 0 (s.ctx c).recs = true → risingFrom 0 (t.ctx c).recs = true
  listed : (mget (s.ctx c).recs key).isSome = true → (mget (t.ctx c).recs key).isSome = true

theorem isSome_mset {α : Type} {m : List (Nat × α)} {key : Nat} (j : Nat) (x : α) (h : (mget m key).isSome = true) :
    (mget (mset m j x) key).isSome = true := by
  by_cases hk : key = j
  · rw [hk, mget_mset_self]
    rfl
  · rw [mget_mset_ne _ _ hk, h]

namespace KeepsRec
variable {c key : Nat} {s t u : State}

theorem of_recs (hm : t.mem = s.mem) (hr : (t.ctx c).recs = (s.ctx c).recs) : KeepsRec c key s t :=
  ⟨hm, fun h => by rw [hr, h], fun h => by rw [hr, h]⟩
theorem of_ctxs (hm : t.mem = s.mem) (hc : t.ctxs = s.ctxs) : KeepsRec c key s t :=
  of_recs hm (congrArg (fun m => (mgetD m c Ctx.init).recs) hc)
theorem refl (s : State) : KeepsRec c key s s := of_ctxs rfl rfl
theorem trans (h : KeepsRec c key s t) (g : KeepsRec c key t u) : KeepsRec c key s u :=
  ⟨g.mem.trans h.mem, fun x => g.rising (h.rising x), fun x => g.listed (h.listed x)⟩
/-- After a change that leaves memory and the contexts alone. -/
theorem after (h : KeepsRec c key t u) (hm : t.mem = s.mem) (hc : t.ctxs = s.ctxs) : KeepsRec c key s u := (of_ctxs hm hc).trans h
theorem foldl {α : Type} {f : State → α → State} (hf : ∀ t x, KeepsRec c key t (f t x)) (l : List α) (s : State) :
    KeepsRec c key s (l.foldl f s) := by
  induction l generalizing s with
  | nil => exact refl s
  | cons x l ih => exact (hf s x).trans (ih _)
theorem elim {α : Type} {f : α → State} (hf : ∀ x, KeepsRec c key s (f x)) (o : Option α) : KeepsRec c key s (o.elim s f) := by
  cases o with
  | none => exact refl s
  | some x => exact hf x
theorem blocks (h : SameBlocks s t) : KeepsRec c key s t := of_recs h.mem (h.recs c)
theorem modCore (s : State) (k : Nat) (f : Core → Core) : KeepsRec c key s (s.modCore k f) := of_ctxs rfl rfl
/-- Records written over others. -/
theorem modRecs {α : Type} (s : State) (n : Nat) (l : List α) (f : α → Nat × Rec) :
    KeepsRec c key s (s.modCtx n fun t => { t with recs := l.foldl (fun q x => mset q (f x).1 (f x).2) t.recs }) := by
  have hmap (m : Map Rec) : (risingFrom 0 m = true → risingFrom 0 (l.foldl (fun q x => mset q (f x).1 (f x).2) m) = true) ∧
      ((mget m key).isSome = true → (mget (l.foldl (fun q x => mset q (f x).1 (f x).2) m) key).isSome = true) := by
    induction l generalizing m with
    | nil => exact ⟨fun h => h, fun h => h⟩
    | cons x l ih =>
      obtain ⟨hr, hl⟩ := ih (mset m (f x).1 (f x).2)
      exact ⟨fun h => hr (risingFrom_mset _ h (Nat.zero_le _)), fun h => hl (isSome_mset _ _ h)⟩
  by_cases hc : c = n
  · subst hc
    refine ⟨rfl, ?_, ?_⟩ <;> rw [ctx_modCtx_self]
    · exact (hmap _).1
    · exact (hmap _).2
  · exact of_recs rfl (by rw [modCtx_eq, ctx_setCtx_ne _ _ hc])

theorem enqueue (s : State) (d j : Nat) : KeepsRec c key s (s.enqueue d j) := by
  cases hr : mget (s.ctx d).recs j with
  | none =>
    rw [State.enqueue, hr]
    exact refl s
  | some r =>
    rcases enqueue_cases hr with he | ⟨es, g, -, he⟩ <;> rw [he]
    · exact refl s
    · exact (modRecs s d es fun m => (m.1, { m.2 with enqt := s.enqt })).trans (of_ctxs rfl rfl)
theorem decJoins (s : State) (d : Nat) (ls : List Link) (v : View) : KeepsRec c key s (s.decJoins d ls v) :=
  (modRecs s d _ fun e => e).trans (foldl (fun t j => enqueue t d j) _ _)
theorem tagReady (s : State) (e : Nat) (v : View) : KeepsRec c key s (s.tagReady e v) := by
  unfold State.tagReady
  split
  · exact refl s
  · split
    · exact refl s
    · exact (decJoins _ _ _ _).after rfl rfl
theorem tagPend (s : State) (e : Nat) : KeepsRec c key s (s.tagPend e) := by
  unfold State.tagPend
  split
  · split <;> exact of_ctxs rfl rfl
  · exact refl s
theorem publishPending (s : State) (k : Nat) (v : View) (e : Nat) : KeepsRec c key s (s.publishPending k v e) := by
  unfold State.publishPending State.publishTile
  split
  · split
    · exact (tagReady s e v).trans (modCore _ k _)
    · exact refl s
  · exact refl s
theorem sendPending (s : State) (k : Nat) : KeepsRec c key s (s.sendPending k) := by
  refine foldl (fun t q => ?_) _ s
  split
  · split
    · exact refl t
    · exact elim (tagPend t) _
  · exact elim (publishPending t k _) _
  · exact refl t
theorem tagVoid (s : State) (e block : Nat) : KeepsRec c key s (s.tagVoid e block) := by
  unfold State.tagVoid
  split
  · exact refl s
  · split
    · exact refl s
    · exact (blocks (.logEv _ _)).after rfl rfl
theorem voidPending (s : State) (k : Nat) : KeepsRec c key s (s.voidPending k) := by
  unfold State.voidPending
  extract_lets b void s1
  have h1 : KeepsRec c key s s1 := foldl (fun t p => elim (fun e => by split; exacts [tagVoid t e _, refl t]) _) _ s
  refine h1.trans (foldl (fun t q => ?_) _ s1)
  split
  · exact elim (fun e => tagVoid t e _) _
  · split
    · exact elim (fun e => tagVoid t e _) _
    · exact refl t
  · exact refl t

end KeepsRec

/-- A record joins its queue, or not: its time of joining alone may change. -/
theorem mget_enqueue {s : State} {c key : Nat} {r : Rec} (h : mget (s.ctx c).recs key = some r)
    (hr : risingFrom 0 (s.ctx c).recs = true) : ∃ q, mget ((s.enqueue c key).ctx c).recs key = some { r with enqt := q } := by
  rcases enqueue_cases h with he | ⟨es, g, hes, he⟩ <;> rw [he]
  · exact ⟨r.enqt, h⟩
  · rw [joinQueue, appendReady_ctx, ctx_modCtx_self]
    refine mget_stampRecs es ⟨r.enqt, h⟩ fun x hx hk => ?_
    rcases hes x hx with rfl | hm
    · rfl
    · have hg := mget_of_mem hr (k := x.1) (x := x.2) hm
      rw [hk, h] at hg
      exact (Option.some.inj hg).symm

/-- A record is listed to run again from its start, on no core. -/
def RunsAgain (c key : Nat) (t : State) : Prop := ∃ z, mget (t.ctx c).recs key = some z ∧ z.rerun = true ∧ z.core = none

theorem killBlock_spec {s : State} {k code : Nat} {counts : Bool} {c key : Nat} (hc : (s.core k).res.ctx.val = c)
    (hkey : gkey (s.core k).res.card (s.core k).res.block = key) (hx : (mget (s.ctx c).recs key).isSome = true)
    (hr : risingFrom 0 (s.ctx c).recs = true) :
    RunsAgain c key (s.killBlock k code counts) ∧
      (((s.killBlock k code counts).core k).blk = none ∨ ((s.killBlock k code counts).core k).mark = .dying) ∧
      (s.killBlock k code counts).mem = s.mem := by
  unfold State.killBlock
  extract_lets r key' s1 s3 s4
  have hkey' : key' = key := hkey
  have hc' : r.ctx.val = c := hc
  have h1 : KeepsRec c key s s1 :=
    ((KeepsRec.sendPending s k).trans (.blocks (.addStats _ k))).trans (.blocks (.modCtx _ _
      (fun t => by cases counts <;> simp) fun t => by cases counts <;> simp))
  have h3 : KeepsRec c key s s3 := (h1.trans (.voidPending s1 k)).trans (.blocks (.logEv _ _))
  obtain ⟨x, hx3⟩ := Option.isSome_iff_exists.1 (h3.listed hx)
  have hrecs : (s4.ctx c).recs = mset (s3.ctx c).recs key (killedRec code x) := by
    rw [← hc', ← hkey'] at hx3 ⊢
    change ((s3.modCtx r.ctx.val _).ctx r.ctx.val).recs = _
    rw [ctx_modCtx_self]
    dsimp only
    rw [hx3]
    rfl
  obtain ⟨u, y, hu, hv, -, -, hblk⟩ := vacate_core s4 k
  have hrecs5 : ((s4.vacate k).ctx c).recs = mset (s3.ctx c).recs key (killedRec code x) := by
    rw [hv, ← hrecs, ← hu.recs c]
    rfl
  have hq := OnlyQueues.enqueue (s4.vacate k) r.ctx.val key'
  refine ⟨?_, ?_, ?_⟩
  · rw [hc', hkey']
    obtain ⟨q, hget⟩ := mget_enqueue (s := s4.vacate k) (c := c) (key := key) (r := killedRec code x)
      (by rw [hrecs5, mget_mset_self]) (by rw [hrecs5]; exact risingFrom_mset _ (h3.rising hr) (Nat.zero_le _))
    exact ⟨_, hget, rfl, rfl⟩
  · have hcore : ((s4.vacate k).enqueue r.ctx.val key').core k = y := by
      rw [State.core, hq.cores, hv]
      exact core_setCore_self u k y
    rw [hcore]
    exact hblk.imp And.left And.left
  · rw [hq.mem, hv]
    exact hu.mem.trans h3.mem

section
variable {s : State} {k : Nat} {v : Rvk} (hv : v ∈ (s.core k).rvks) (ha : s.asks k = true) (hm : (s.core k).mark ≠ .dying)
  (ht : v.at_ + maxPh (s.core k).res.hdr < s.rtime) (hk : s.acksEarly k v.ext = false)
include hv ha hm ht hk

theorem exec_revocationPhaseLimit : exec (.revocationPhaseLimit k) s =
    .next (if bit ((s.core k).res.hw 3) 51 then s.killGang k 0x63 false
      else s.contextStop (s.core k).res.ctx.val 0x66 (s.errAt k .c (s.core k).r.c.pos 0x66 0 0)) := by
  have hany : ((s.core k).rvks.any fun x => decide (x.at_ + maxPh (s.core k).res.hdr < s.rtime) && !s.acksEarly k x.ext) = true :=
    List.any_eq_true.2 ⟨v, hv, by rw [decide_eq_true ht, hk]; rfl⟩
  change execRevocationPhaseLimit k s = _
  unfold execRevocationPhaseLimit
  dsimp only
  rw [if_neg (by rw [hany, ha]; simpa using hm)]

theorem revocationPhaseLimit_stops (hb : bit ((s.core k).res.hw 3) 51 = false) (hn : (s.core k).res.card < 4096)
    (hl : (s.core k).res.block < 2 ^ 24) (hs : (s.ctx (s.core k).res.ctx).stopped = false) (he : s.noError (s.core k).res.ctx) :
    ∃ t, exec (.revocationPhaseLimit k) s = .next t ∧ (t.ctx (s.core k).res.ctx).stopped = true ∧
      wd (t.ctx (s.core k).res.ctx).err 0 / 2 ^ 56 = 0x66 := by
  have hexec := exec_revocationPhaseLimit hv ha hm ht hk
  rw [if_neg (by rw [hb]; decide)] at hexec
  obtain ⟨hstop, hcode, -, -⟩ := contextStop_stops
    (fitsWord0_errAt (code := 0x66) (detail := 0) .c (s.core k).r.c.pos 0 (by decide) (by decide) hn hl) hs he
  exact ⟨_, hexec, hstop, hcode⟩
theorem revocationPhaseLimit_kills {y : Rec} (hb : bit ((s.core k).res.hw 3) 51 = true)
    (hg : (s.coresOf (s.core k).res.ctx fun z => z.card == (s.core k).res.card && z.gang == (s.core k).res.gang) = [k])
    (hy : mget (s.ctx (s.core k).res.ctx).recs (gkey (s.core k).res.card (s.core k).res.block) = some y)
    (hr : risingFrom 0 (s.ctx (s.core k).res.ctx).recs = true) : ∃ t z, exec (.revocationPhaseLimit k) s = .next t ∧
      mget (t.ctx (s.core k).res.ctx).recs (gkey (s.core k).res.card (s.core k).res.block) = some z ∧
      z.rerun = true ∧ z.core = none ∧ ((t.core k).blk = none ∨ (t.core k).mark = .dying) ∧ s.sameMemory t := by
  have hexec := exec_revocationPhaseLimit hv ha hm ht hk
  have hgang : s.killGang k 0x63 false = s.killBlock k 0x63 false := by
    rw [State.killGang, hg]
    rfl
  rw [if_pos hb, hgang] at hexec
  obtain ⟨⟨z, hz, hrerun, hcore⟩, hblk, hmem⟩ := killBlock_spec (s := s) (k := k) (code := 0x63) (counts := false) rfl rfl
    (by rw [hy]; rfl) hr
  exact ⟨_, z, hexec, hz, hrerun, hcore, hblk, fun a => by rw [hmem]⟩

end

/-- Settles O53: the entry replaced, removed or kept, the record requeued, the context stopped, every extent of the channel in
revocation. -/
theorem revocationEvents : Obligations.RevocationEvents := by
  unfold Obligations.RevocationEvents
  intro s hd
  refine ⟨fun c n v hv hu hh => revocationComplete_ends hd hv hu hh, fun k => ⟨fun v hv ha hm ht hk =>
    ⟨fun hb hn hl hs he => revocationPhaseLimit_stops hv ha hm ht hk hb hn hl hs he,
      fun y hb hg hy hr => revocationPhaseLimit_kills hv ha hm ht hk hb hg hy hr⟩, fun code detail a hf hne hc hdt =>
    ⟨fun hn hb hs he => translationFaultAnswer_stops hd hf hne hc hdt hn hb hs he,
      fun hr => translationFaultAnswer_retries hd hf hne hr⟩⟩, fun ch l hl hp he hf => leaseLapse_lapses hd hl hp he hf⟩

end Sys2Proof.Proofs
end

section
/-!
PROOFS. How the command processor takes the request at the head of its ring and answers it (R404).
-/
namespace Sys2Proof.Proofs
open Sys2Proof Sys2Proof.Machine Sys2Proof.Laws

-- One proof after another: side by side, they would wait for one another's equations of the model in a thread each.
set_option Elab.async false

/-- The ring one record further. -/
def headTaken (s : State) : State := { s with rqhead := (s.rqhead + 1) % 2 ^ s.rqsize }

/-- What a request that may be handled does: its answer, or the state in which it is answered later. -/
def handled (s : State) (w : List Word) (f : Nat → List Word → State → Option (Nat × Nat) × State) : State :=
  match f (s.ringAddr s.rqhead) w (headTaken s) with
  | (none, t) => t
  | (some a, t) => t.respond (s.ringAddr s.rqhead) (w.getD 0 0) a.1 a.2

theorem passRestores_of_other {n : Nat} {s : State} {r : Nat × List Word} (hr : s.headReq = some r) (h : reqOp r.2 ≠ 0x39) :
    s.passRestores n = s := by
  cases n with
  | zero => rfl
  | succ n => rw [State.passRestores, hr]; exact if_neg h

section
variable {s : State} {w : List Word} {op : Nat → Bool} {f : Nat → List Word → State → Option (Nat × Nat) × State}

theorem wf_of_asked (ha : s.asked w) : Memory.wf s.mem = true :=
  let ⟨_, _, _, _, _, _, _, h⟩ := ha
  h
/-- The request at the head of the ring is taken and handled. -/
theorem request_asked (ha : s.asked w) (hop : op (reqOp w) = true) (h39 : op 0x39 = true ∨ reqOp w ≠ 0x39)
    (hc : (knownOps.contains (reqOp w) && !moduleOp (reqOp w) && !s.hasCtx (reqCtx w)) = false) :
    s.request op f = .next (handled s w f) := by
  obtain ⟨hdown, hbooted, hwait, hne, hw, hres, hwaits, -⟩ := ha
  have hhead : s.headReq = some (s.ringAddr s.rqhead, w) := by rw [State.headReq, if_neg hne, ← hw]
  have hpass : (if op 0x39 then s else s.passRestores (2 ^ s.rqsize)) = s := by
    split
    · rfl
    · next h => exact passRestores_of_other hhead (h39.resolve_left h)
  have hwaits' : (headTaken s).reqWaits (headTaken s).waitReq w = false := by
    have hq : (headTaken s).waitReq = [] := hwait
    rw [hq]
    exact hwaits
  have hhandle : (headTaken s).handle (s.ringAddr s.rqhead, w) (f (s.ringAddr s.rqhead)) = handled s w f := by
    have hc' : (knownOps.contains (reqOp w) && !moduleOp (reqOp w) && !(headTaken s).hasCtx (reqCtx w)) = false := hc
    rw [State.handle]
    dsimp only
    rw [if_neg (not_not.2 hres), if_neg (by rw [hc']; decide)]
    rfl
  have hfind : s.findReq op [] s.waitReq = none := by rw [hwait]; rfl
  have hfirst : s.readyFirst [] s.waitReq = false := by rw [hwait]; rfl
  rw [State.request, if_neg (by rw [hdown, hbooted]; decide), hfind, hfirst]
  dsimp only
  rw [hpass, if_neg Bool.false_ne_true, hhead]
  dsimp only
  rw [if_neg (by rw [hop]; decide)]
  change Host.Outcome.next (if (headTaken s).reqWaits (headTaken s).waitReq w then _ else
    (headTaken s).handle (s.ringAddr s.rqhead, w) (f (s.ringAddr s.rqhead))) = _
  rw [if_neg (by rw [hwaits']; decide), hhandle]

/-- What stands once a request is answered at once: the answer in its record, the ring one further, nothing else that its effect
does not change. -/
structure AnsweredBy (s : State) (w : List Word) (status value : Nat) (t u : State) : Prop where
  answered : s.answered u w status value
  only : OnlyAnswer t u
  low : ∀ j < hostBase, Memory.get u.mem j = Memory.get t.mem j

theorem hostBase_le_ringAddr (s : State) (n : Nat) : hostBase ≤ s.ringAddr n := Nat.le_add_right _ _

/-- A request whose effect is `t` and whose status and value are these is answered by them. -/
theorem handled_answers {t : State} {status value : Nat}
    (hf : f (s.ringAddr s.rqhead) w (headTaken s) = (some (status, value), t)) (hs : status < 256) (hm : Memory.wf t.mem = true)
    (hq : t.rqhead = (s.rqhead + 1) % 2 ^ s.rqsize) : AnsweredBy s w status value t (handled s w f) := by
  have hh : handled s w f = t.respond (s.ringAddr s.rqhead) (w.getD 0 0) status value := by rw [handled, hf]
  have ho := OnlyAnswer.respond t (s.ringAddr s.rqhead) (w.getD 0 0) status value
  obtain ⟨h6, h7⟩ := peek_respond (a := s.ringAddr s.rqhead) (value := value) (w0 := w.getD 0 0) hm hs
  rw [hh]
  refine ⟨⟨?_, h6, h7⟩, ho, fun j hj => get_respond_ne hm fun hin => ?_⟩
  · rw [ho.only]
    exact hq
  · have hle := hostBase_le_ringAddr s s.rqhead
    omega

end

namespace OnlyAnswer
variable {s t : State} (h : OnlyAnswer s t)
include h

theorem ctxs : t.ctxs = s.ctxs := by rw [h.only]
theorem leases : t.leases = s.leases := by rw [h.only]
theorem peers : t.peers = s.peers := by rw [h.only]
theorem nv : t.nv = s.nv := by rw [h.only]
theorem rqhead : t.rqhead = s.rqhead := by rw [h.only]

end OnlyAnswer

end Sys2Proof.Proofs
end

section
/-!
PROOFS. The operations of the command processor, settled (R169, R177, R288, R309, R319, R337, R338, R382, R383, R391, R404, R405,
R423).
-/
namespace Sys2Proof.Proofs
open Sys2Proof Sys2Proof.Machine Sys2Proof.Laws

-- One proof after another: side by side, they would wait for one another's equations of the model in a thread each.
set_option Elab.async false

section
variable {s t : State} {w : List Word} {n status value : Nat} {f : Nat → List Word → State → Option (Nat × Nat) × State}
  {p : State → Prop} {i : Instr}

/-- A request is answered at once, where its effect leaves memory well-formed and the ring one further. -/
theorem request_answers (hi : exec i s = s.request (· == n) f) (ha : s.asked w) (hop : reqOp w = n)
    (hc : (knownOps.contains n && !moduleOp n && !s.hasCtx (reqCtx w)) = false)
    (hf : f (s.ringAddr s.rqhead) w (headTaken s) = (some (status, value), t)) (hs : status < 256)
    (hm : Memory.wf s.mem = true → Memory.wf t.mem = true) (hq : t.rqhead = (headTaken s).rqhead)
    (hp : ∀ u, OnlyAnswer t u → (∀ j < hostBase, Memory.get u.mem j = Memory.get t.mem j) → p u) :
    ∃ u, exec i s = .next u ∧ s.answered u w status value ∧ p u := by
  have hwf := wf_of_asked ha
  have h39 : (0x39 == n) = true ∨ reqOp w ≠ 0x39 := by
    by_cases h : n = 0x39
    · exact .inl (beq_iff_eq.2 h.symm)
    · exact .inr (hop ▸ h)
  obtain ⟨hans, honly, hlow⟩ := handled_answers hf hs (hm hwf) hq
  exact ⟨_, hi.trans <| request_asked ha (beq_iff_eq.2 hop) h39 (by rw [hop]; exact hc), hans, hp _ honly hlow⟩

/-- The same of an operation in the context that it names. -/
theorem request_answers_in (hi : exec i s = s.request (· == n) f) (ha : s.asked w) (hop : reqOp w = n) (hc : s.hasCtx (reqCtx w) = true)
    (hf : f (s.ringAddr s.rqhead) w (headTaken s) = (some (status, value), t)) (hs : status < 256)
    (hm : Memory.wf s.mem = true → Memory.wf t.mem = true) (hq : t.rqhead = (headTaken s).rqhead)
    (hp : ∀ u, OnlyAnswer t u → (∀ j < hostBase, Memory.get u.mem j = Memory.get t.mem j) → p u) :
    ∃ u, exec i s = .next u ∧ s.answered u w status value ∧ p u :=
  request_answers hi ha hop (by rw [hc, Bool.not_true, Bool.and_false]) hf hs hm hq hp
/-- One that is answered later. -/
theorem request_starts (hi : exec i s = s.request (· == n) f) (ha : s.asked w) (hop : reqOp w = n) (hc : s.hasCtx (reqCtx w) = true)
    (hf : f (s.ringAddr s.rqhead) w (headTaken s) = (none, t)) (h39 : n ≠ 0x39 := by decide) : exec i s = .next t := by
  have hh : handled s w f = t := by rw [handled, hf]
  exact hi.trans <| hh ▸ request_asked ha (beq_iff_eq.2 hop) (.inr (hop ▸ h39)) (by rw [hc, Bool.not_true, Bool.and_false])

end

section
variable {s : State} {w : List Word} (ha : s.asked w)
include ha

/-! ### Contexts (R404, R423) -/

omit ha in
theorem exec_createContext (s : State) : exec .createContext s = execCreateContext s := rfl

theorem createContext_unarmed (hop : reqOp w = 0x01) (hl : 128 ≤ bits (arg w 0) 12 0) (hu : bits (arg w 0) 12 0 ≤ 4096)
    (harm : s.armed = false) :
    ∃ t, exec .createContext s = .next t ∧ s.answered t w 0x03 0 ∧ t.ctxs = s.ctxs := by
  have harm' : (headTaken s).armed = false := harm
  exact request_answers (exec_createContext s) (status := 0x03) ha hop rfl (t := headTaken s)
    ((if_neg (by omega)).trans (if_pos (by rw [harm']; rfl))) (by decide) (fun h => h) rfl fun u hu _ => hu.ctxs
theorem createContext_creates {c b : Nat} (hop : reqOp w = 0x01) (hl : 128 ≤ bits (arg w 0) 12 0)
    (hu : bits (arg w 0) 12 0 ≤ 4096) (harm : s.armed = true)
    (hsvc : bit (arg w 0) 16 = true ∨ bits (wd s.config 0) 63 56 = 0) (hf : s.freeCtx = some c)
    (hb : s.reserveRange (reservedLen (bits (arg w 0) 12 0)) = some b) :
    ∃ t, exec .createContext s = .next t ∧
      s.answered t w 0 (c + b / 2 ^ 21 * 2 ^ 4 + reservedLen (bits (arg w 0) 12 0) / 2 ^ 21 * 2 ^ 35) ∧
      (s.hasCtx c = false ∧ mget t.ctxs c = some { Ctx.init with
        svc := bit (arg w 0) 16, ckslots := bits (arg w 0) 12 0, rbase := b, rlen := reservedLen (bits (arg w 0) 12 0) }) := by
  have hfree : s.hasCtx c = false := by simpa using List.find?_some hf
  generalize hlen : reservedLen (bits (arg w 0) 12 0) = len at hb ⊢
  have harm' : (headTaken s).armed = true := harm
  have hf' : (headTaken s).freeCtx = some c := hf
  have hb' : (headTaken s).reserveRange len = some b := hb
  have hsvc' : (!bit (arg w 0) 16 && bits (wd (headTaken s).config 0) 63 56 != 0) = false := by
    rcases hsvc with h | h
    · rw [h]
      rfl
    · have h' : bits (wd (headTaken s).config 0) 63 56 = 0 := h
      rw [h']
      exact Bool.and_false _
  exact request_answers (exec_createContext s) (status := 0) ha hop rfl
    (t := (headTaken s).setCtx c { Ctx.init with
      svc := bit (arg w 0) 16, ckslots := bits (arg w 0) 12 0, rbase := b, rlen := len })
    ((if_neg (by omega)).trans ((if_neg (by rw [harm']; decide)).trans ((if_neg (by rw [hsvc']; decide)).trans
      (by rw [hf', hlen, hb'])))) (by decide) (fun h => h) rfl
    fun u hu _ => ⟨hfree, (congrArg (mget · c) hu.ctxs).trans (mget_mset_self _ _ _)⟩

/-! ### A context's end (R404) -/

omit ha in
theorem respond_wf {s : State} (a : Nat) (w0 : Word) (status value : Nat) (h : Memory.wf s.mem = true) :
    Memory.wf (s.respond a w0 status value).mem = true := by
  rw [respond_mem]
  exact memory_setAll_wf _ h
omit ha in
/-- Revocations in progress are answered as their context goes. -/
theorem answerAll_spec (l : List Revoc) (s : State) :
    OnlyAnswer s (l.foldl (fun (u : State) v => v.slot.elim u fun r => u.respond r.1 r.2 0 0) s) ∧
      (Memory.wf s.mem = true →
        Memory.wf (l.foldl (fun (u : State) v => v.slot.elim u fun r => u.respond r.1 r.2 0 0) s).mem = true) := by
  induction l generalizing s with
  | nil => exact ⟨.refl s, fun h => h⟩
  | cons v l ih =>
    rw [List.foldl_cons]
    cases v.slot with
    | none => exact ih s
    | some r =>
      obtain ⟨honly, hwf⟩ := ih (s.respond r.1 r.2 0 0)
      exact ⟨(OnlyAnswer.respond s r.1 r.2 0 0).trans honly, fun h => hwf (respond_wf r.1 r.2 0 0 h)⟩
omit ha in
/-- A context that goes leaves neither itself nor a lease. -/
theorem dropCtx_spec {s : State} {c : Nat} (hr : risingFrom 0 s.ctxs = true) :
    mget (s.dropCtx c).ctxs c = none ∧ (∀ l ∈ (s.dropCtx c).leases, l.2.ctx.val ≠ c) ∧ (s.dropCtx c).rqhead = s.rqhead ∧
      (Memory.wf s.mem = true → Memory.wf (s.dropCtx c).mem = true) := by
  obtain ⟨honly, hwf⟩ := answerAll_spec (s.ctx c).revs s
  unfold State.dropCtx
  refine ⟨?_, fun l hl => ?_, honly.rqhead, hwf⟩
  · dsimp only
    rw [honly.ctxs]
    exact mget_mdel_self _ hr
  · simpa using (List.mem_filter.1 hl).2

omit ha in
theorem exec_destroyContext (s : State) : exec .destroyContext s = execDestroyContext s := rfl
theorem destroyContext_destroys (hc : s.hasCtx (reqCtx w) = true) (hop : reqOp w = 0x02) (hrun : s.running (reqCtx w) = false)
    (hr : risingFrom 0 s.ctxs = true) :
    ∃ t, exec .destroyContext s = .next t ∧ s.answered t w 0 0 ∧
      (t.hasCtx (reqCtx w) = false ∧ ∀ l ∈ t.leases, l.2.ctx.val ≠ reqCtx w) := by
  have hrun' : (headTaken s).running (reqCtx w) = false := hrun
  obtain ⟨hgone, hleases, hq, hwf⟩ := dropCtx_spec (s := headTaken s) (c := reqCtx w) hr
  refine request_answers_in (exec_destroyContext s) (status := 0) ha hop hc (t := (headTaken s).dropCtx (reqCtx w))
    (congrArg (fun u => done 0 (State.dropCtx u (reqCtx w))) (if_neg (by rw [hrun', Bool.false_and]; decide))) (by decide) hwf hq
    fun u hu _ => ⟨?_, ?_⟩
  · rw [State.hasCtx, hu.ctxs, hgone]
    rfl
  · rw [hu.leases]
    exact hleases

/-! ### Extents (R169, R177) -/

omit ha in
theorem exec_writeExtent (s : State) : exec .writeExtent s = execWriteExtent s := rfl
theorem writeExtent_refused (hc : s.hasCtx (reqCtx w) = true) (hop : reqOp w = 0x10)
    (hbad : s.extentOk (reqCtx w) (arg w 0) ((s.ctx (reqCtx w)).peerClass (arg w 0) (entryOf (arg w 1) (arg w 2))) = false) :
    ∃ t, exec .writeExtent s = .next t ∧ s.answered t w 0x02 0 ∧ t.ctxs = s.ctxs := by
  have hbad' : (headTaken s).extentOk (reqCtx w) (arg w 0)
    (((headTaken s).ctx (reqCtx w)).peerClass (arg w 0) (entryOf (arg w 1) (arg w 2))) = false := hbad
  exact request_answers_in (exec_writeExtent s) (status := 0x02) ha hop hc (t := headTaken s)
    (if_pos (.inr (by rw [hbad']; rfl))) (by decide) (fun h => h) rfl fun u hu _ => hu.ctxs
theorem writeExtent_writes (hc : s.hasCtx (reqCtx w) = true) (hop : reqOp w = 0x10) (hid : arg w 0 < 16384)
    (hok : s.extentOk (reqCtx w) (arg w 0) ((s.ctx (reqCtx w)).peerClass (arg w 0) (entryOf (arg w 1) (arg w 2))) = true)
    (hnew : xValid ((s.ctx (reqCtx w)).ext (arg w 0)) = false) :
    ∃ t, exec .writeExtent s = .next t ∧ s.answered t w 0 0 ∧
      (t.ctx (reqCtx w)).ext (arg w 0) = (s.ctx (reqCtx w)).peerClass (arg w 0) (entryOf (arg w 1) (arg w 2)) := by
  have hok' : (headTaken s).extentOk (reqCtx w) (arg w 0)
    (((headTaken s).ctx (reqCtx w)).peerClass (arg w 0) (entryOf (arg w 1) (arg w 2))) = true := hok
  have hnew' : xValid (((headTaken s).ctx (reqCtx w)).ext (arg w 0)) = false := hnew
  refine request_answers_in (exec_writeExtent s) (status := 0) ha hop hc
    (t := (headTaken s).modCtx (reqCtx w) fun u => { u with
      exts := mset u.exts (arg w 0) ((s.ctx (reqCtx w)).peerClass (arg w 0) (entryOf (arg w 1) (arg w 2))) })
    ((if_neg (by rw [hok']; simpa using hid)).trans (if_neg (by rw [hnew']; decide))) (by decide) (fun h => h) rfl
    fun u hu _ => ?_
  rw [hu.ctx, ctx_modCtx_self]
  exact ext_mset_self _ _ _

omit ha in
theorem exec_revokeExtent (s : State) : exec .revokeExtent s = execRevokeExtent s := rfl
theorem revokeExtent_begins (hc : s.hasCtx (reqCtx w) = true) (hop : reqOp w = 0x11)
    (hv : xValid ((s.ctx (reqCtx w)).ext (arg w 0)) = true) (hb : bit (arg w 1) 0 = true)
    (hh : ¬(xTier ((s.ctx (reqCtx w)).ext (arg w 0)) = 2 ∧ s.runHolds (reqCtx w) (arg w 0) = true)) :
    ∃ t, exec .revokeExtent s = .next t ∧ t.rqhead = (s.rqhead + 1) % 2 ^ s.rqsize ∧
      xRvk ((t.ctx (reqCtx w)).ext (arg w 0)) = true ∧ (t.ctx (reqCtx w)).revs = (s.ctx (reqCtx w)).revs ++
        [⟨arg w 0, none, some (s.ringAddr s.rqhead, w.getD 0 0), false, s.rtime⟩] ∧ s.sameMemory t := by
  have hv' : xValid (((headTaken s).ctx (reqCtx w)).ext (arg w 0)) = true := hv
  have hh' : ¬(xTier (((headTaken s).ctx (reqCtx w)).ext (arg w 0)) = 2 ∧ (headTaken s).runHolds (reqCtx w) (arg w 0) = true) := hh
  have hexec := request_starts (exec_revokeExtent s) ha hop hc
    (t := (headTaken s).revoke (reqCtx w) (arg w 0) none (some (s.ringAddr s.rqhead, w.getD 0 0)) false)
    ((if_neg (by rw [hv']; decide)).trans ((if_pos hb).trans (if_neg hh')))
  have hspace := revoke_space (headTaken s) (reqCtx w) (arg w 0) none (some (s.ringAddr s.rqhead, w.getD 0 0)) false
  refine ⟨_, hexec, hspace.rqhead, revoke_ext_self .., revoke_revs .., fun a => ?_⟩
  rw [hspace.mem]
  rfl

/-! ### Leases and regions (R309, R319) -/

omit ha in
theorem exec_leaseChannel (s : State) : exec .leaseChannel s = execLeaseChannel s := rfl
theorem leaseChannel_leases (hc : s.hasCtx (reqCtx w) = true) (hop : reqOp w = 0x18) (hl : s.leasable (arg w 0) = true)
    (hn : mget s.leases (arg w 0) = none) (hp : arg w 1 ≠ 0) :
    ∃ t, exec .leaseChannel s = .next t ∧ s.answered t w 0 0 ∧
      mget t.leases (arg w 0) = some ⟨Fin.ofNat 8 (reqCtx w), arg w 1, s.rtime + arg w 1 * 1000000, false⟩ := by
  have hl' : (headTaken s).leasable (arg w 0) = true := hl
  have hn' : mget (headTaken s).leases (arg w 0) = none := hn
  refine request_answers_in (exec_leaseChannel s) (status := 0) ha hop hc
    (t := { headTaken s with
      leases := mset s.leases (arg w 0) ⟨Fin.ofNat 8 (reqCtx w), arg w 1, s.rtime + arg w 1 * 1000000, false⟩ })
    ((if_neg (by rw [hl']; decide)).trans (by rw [hn']; exact if_pos (bne_iff_ne.2 hp))) (by decide) (fun h => h) rfl fun u hu _ => ?_
  rw [hu.leases]
  exact mget_mset_self _ _ _

omit ha in
theorem exec_endLease (s : State) : exec .endLease s = execEndLease s := rfl
/-- The state in which a lease has expired. -/
def expired (s : State) (ch : Nat) (l : Lease) : State := { s with leases := mset s.leases ch { l with expiry := s.rtime } }
theorem endLease_ends {l : Lease} (hc : s.hasCtx (reqCtx w) = true) (hop : reqOp w = 0x19)
    (hl : mget s.leases (arg w 0) = some l) (hx : l.ctx.val = reqCtx w) (hp : l.lapsed = false) :
    ∃ t, exec .endLease s = .next t ∧ s.answered t w 0 0 ∧ mget t.leases (arg w 0) =
      some { l with expiry := s.rtime, lapsed := !s.lapseDeferred (reqCtx w) (arg w 0) } := by
  let u := expired (headTaken s) (arg w 0) l
  have hget : mget u.leases (arg w 0) = some { l with expiry := s.rtime } := mget_mset_self _ _ _
  have hl' : mget (headTaken s).leases (arg w 0) = some l := hl
  have hdef : u.lapseDeferred (reqCtx w) (arg w 0) = s.lapseDeferred (reqCtx w) (arg w 0) := rfl
  obtain ⟨hlease, hmem, hq, -⟩ := lapse_spec (c := reqCtx w) hget
  refine request_answers_in (exec_endLease s) (status := 0) ha hop hc
    (t := if u.lapseDeferred (reqCtx w) (arg w 0) then u else u.lapse (reqCtx w) (arg w 0))
    (by dsimp only; rw [hl']; exact if_neg (by simp [hx, hp])) (by decide) ?_ ?_ fun v hv _ => ?_
  · split
    · exact fun h => h
    · rw [hmem]
      exact fun h => h
  · split
    · rfl
    · exact hq
  · rw [hv.leases, hdef]
    split
    · next hd => rw [hd, hget, Bool.not_true, ← hp]
    · next hd => rw [hlease, Bool.eq_false_of_not_eq_true hd, Bool.not_false]

omit ha in
theorem exec_designateNearMemoryRegion (s : State) :
    exec .designateNearMemoryRegion s = execDesignateNearMemoryRegion s := rfl
theorem designateNearMemoryRegion_designates (hc : s.hasCtx (reqCtx w) = true) (hop : reqOp w = 0x1A)
    (hv : xValid ((s.ctx (reqCtx w)).ext (arg w 1)) = true) (ht : xTier ((s.ctx (reqCtx w)).ext (arg w 1)) = 2)
    (hch : leaseChannel (xBase ((s.ctx (reqCtx w)).ext (arg w 1))) = some (arg w 0))
    (hl : s.leased (reqCtx w) (arg w 0) = true) (hp : bits (xPerm ((s.ctx (reqCtx w)).ext (arg w 1))) 5 4 ≠ 0) :
    ∃ t, exec .designateNearMemoryRegion s = .next t ∧ s.answered t w 0 0 ∧
      mget (t.ctx (reqCtx w)).regions (arg w 0) = some (arg w 1) := by
  have hok : (xValid (((headTaken s).ctx (reqCtx w)).ext (arg w 1)) && xTier (((headTaken s).ctx (reqCtx w)).ext (arg w 1)) == 2 &&
      leaseChannel (xBase (((headTaken s).ctx (reqCtx w)).ext (arg w 1))) == some (arg w 0) &&
      (headTaken s).leased (reqCtx w) (arg w 0) && bits (xPerm (((headTaken s).ctx (reqCtx w)).ext (arg w 1))) 5 4 != 0) = true := by
    have hctx : (headTaken s).ctx (reqCtx w) = s.ctx (reqCtx w) := rfl
    have hl' : (headTaken s).leased (reqCtx w) (arg w 0) = true := hl
    rw [hctx, hv, ht, hch, hl']
    simpa using hp
  have hspace := SameSpace.unpause
    ((headTaken s).modCtx (reqCtx w) fun u => { u with regions := mset u.regions (arg w 0) (arg w 1) }) (reqCtx w) (arg w 1)
  refine request_answers_in (exec_designateNearMemoryRegion s) (status := 0) ha hop hc (t := ((headTaken s).modCtx (reqCtx w)
    fun u => { u with regions := mset u.regions (arg w 0) (arg w 1) }).unpause (reqCtx w) (arg w 1))
    (if_pos hok) (by decide) (fun h => by rw [hspace.mem]; exact h) hspace.rqhead fun u hu _ => ?_
  rw [hu.ctx, hspace.regions, ctx_modCtx_self]
  exact mget_mset_self _ _ _

/-! ### Tables (R288) -/

omit ha in
theorem exec_writeTableDescriptor (s : State) : exec .writeTableDescriptor s = execWriteTableDescriptor s := rfl
omit ha in
theorem clearWays_only (s : State) (q : Way → Bool) : OnlyAnswer s (s.clearWays q) := by
  unfold State.clearWays
  induction s.ways.filter fun e => q e.2 generalizing s with
  | nil => exact .refl s
  | cons e r ih => exact (OnlyAnswer.clearWay s e.1).trans (ih _)
theorem writeTableDescriptor_writes (hc : s.hasCtx (reqCtx w) = true) (hop : reqOp w = 0x20) (hid : arg w 0 < 1024)
    (hok : s.tableOk (reqCtx w) ((w.drop 2).take 4) = true) :
    ∃ t, exec .writeTableDescriptor s = .next t ∧ s.answered t w 0 0 ∧
      ((t.ctx (reqCtx w)).tab (arg w 0) = (w.drop 2).take 4 ∧ ∀ e ∈ (t.ctx (reqCtx w)).sketch, e.1 / 2 ^ 18 ≠ arg w 0) := by
  have hok' : (decide (arg w 0 < 1024) && (headTaken s).tableOk (reqCtx w) (reqTab w)) = true := by
    have h : (headTaken s).tableOk (reqCtx w) (reqTab w) = true := hok
    rw [h, decide_eq_true hid]
    rfl
  have hclear := clearWays_only (headTaken s) fun x => x.ctx.val == reqCtx w && x.tid == arg w 0
  refine request_answers_in (exec_writeTableDescriptor s) (status := 0) ha hop hc
    (t := ((headTaken s).clearWays fun x => x.ctx.val == reqCtx w && x.tid == arg w 0).modCtx (reqCtx w) fun v =>
      { v with
        tables := mset v.tables (arg w 0) (reqTab w)
        sketch := v.sketch.filter fun e => e.1 / 2 ^ 18 != arg w 0
        decayAt := mset v.decayAt (arg w 0) ((headTaken s).rtime + tbDecay (reqTab w) * 1000000) })
    (if_pos hok') (by decide) (fun h => ?_) hclear.rqhead fun u hu _ => ?_
  · rw [modCtx_mem, clearWays_mem]
    exact h
  · rw [hu.ctx, ctx_modCtx_self]
    exact ⟨mgetD_mset_self _ _ _ _, fun e he => by simpa using (List.mem_filter.1 he).2⟩

/-! ### Exchange (R337, R338) -/

omit ha in
theorem exec_registerExchangeGroup (s : State) : exec .registerExchangeGroup s = execRegisterExchangeGroup s := rfl
theorem registerExchangeGroup_registers (hc : s.hasCtx (reqCtx w) = true) (hop : reqOp w = 0x28)
    (hn : 1 ≤ bits (arg w 0) 26 16) (hm : bits (arg w 0) 26 16 ≤ 1024) (hr : bits (arg w 0) 41 32 < bits (arg w 0) 26 16)
    (hb : 1 ≤ bits (arg w 2) 16 0) (hu : bits (arg w 2) 16 0 ≤ 65536)
    (hd : ∀ v ∈ s.rankList (arg w 1) (bits (arg w 0) 26 16), v < 1024 ∧ s.reachable v = true) :
    ∃ t, exec .registerExchangeGroup s = .next t ∧ s.answered t w 0 0 ∧
      mget (t.ctx (reqCtx w)).groups (bits (arg w 0) 5 0) = some ⟨bits (arg w 0) 26 16, bits (arg w 0) 41 32,
        s.rankList (arg w 1) (bits (arg w 0) 26 16), bits (arg w 2) 16 0, bits (arg w 3) 31 0, 0, 0, 0⟩ := by
  have hall : ((headTaken s).rankList (arg w 1) (bits (arg w 0) 26 16)).all
      (fun d => decide (d < 1024) && (headTaken s).reachable d) = true :=
    List.all_eq_true.2 fun v hv => by
      obtain ⟨hlt, hreach⟩ := hd v hv
      have hreach' : (headTaken s).reachable v = true := hreach
      rw [hreach', decide_eq_true hlt]
      rfl
  refine request_answers_in (exec_registerExchangeGroup s) (status := 0) ha hop hc
    (t := (headTaken s).modCtx (reqCtx w) fun u => { u with
      groups := mset u.groups (bits (arg w 0) 5 0) ⟨bits (arg w 0) 26 16, bits (arg w 0) 41 32,
        s.rankList (arg w 1) (bits (arg w 0) 26 16), bits (arg w 2) 16 0, bits (arg w 3) 31 0, 0, 0, 0⟩ })
    (if_pos (by rw [hall, decide_eq_true ⟨hn, hm, hr, hb, hu⟩]; rfl)) (by decide) (fun h => h) rfl fun u hu _ => ?_
  rw [hu.ctx, ctx_modCtx_self]
  exact mget_mset_self _ _ _

end

end Sys2Proof.Proofs
end

section
/-!
PROOFS. The operations on inbound buffers, peers, must-save entries, the recovery report, saved entries and boot parameters, and
all of the command processor's, settled (R337, R338, R382, R383, R391, R404, R405).
-/
namespace Sys2Proof.Proofs
open Sys2Proof Sys2Proof.Machine Sys2Proof.Laws

-- One proof after another: side by side, they would wait for one another's equations of the model in a thread each.
set_option Elab.async false

/-! ### Inbound buffers (R171, R337) -/

theorem mem_mset_self {α : Type} (m : List (Nat × α)) (k : Nat) (v : α) : (k, v) ∈ mset m k v := mem_of_mget (mget_mset_self m k v)
theorem xAtc_class2 (x : Extent) : xAtc (BitVec.ofNat 128 (putBits x.toNat 116 115 2)) = 2 := by
  have hlt : putBits x.toNat 116 115 2 < 2 ^ 128 := by
    refine Nat.lt_pow_two_of_testBit _ fun i hi => ?_
    rw [testBit_putBits 2 i (by decide), if_neg (by omega)]
    exact Nat.testBit_lt_two_pow (x.isLt.trans_le (Nat.pow_le_pow_right (by decide) hi))
  rw [xAtc, xf, BitVec.toNat_ofNat, Nat.mod_eq_of_lt hlt]
  exact bits_putBits_self (by decide) (by decide)
/-- A registered buffer's extent carries atomic transport class 2. -/
theorem xAtc_addBuf (t : Ctx) (n id : Nat) : xAtc ((t.addBuf n id).ext id) = 2 := by
  have hany : ((mset t.bufs n id).any fun b => b.2 == id) = true :=
    List.any_eq_true.2 ⟨(n, id), mem_mset_self .., beq_iff_eq.2 rfl⟩
  have hclass (x : Extent) : xAtc (({ t with bufs := mset t.bufs n id } : Ctx).peerClass id x) = 2 := by
    rw [Ctx.peerClass, if_pos hany]
    exact xAtc_class2 x
  exact (congrArg xAtc (mgetD_mset_self _ _ _ _)).trans (hclass _)

section
variable {s : State} {w : List Word} (ha : s.asked w)

theorem exec_registerInboundBuffer (s : State) : exec .registerInboundBuffer s = execRegisterInboundBuffer s := rfl
theorem exec_writePeerEntry (s : State) : exec .writePeerEntry s = execWritePeerEntry s := rfl
theorem exec_writeMustSaveEntry (s : State) : exec .writeMustSaveEntry s = execWriteMustSaveEntry s := rfl
theorem exec_withdrawMustSaveEntry (s : State) : exec .withdrawMustSaveEntry s = execWithdrawMustSaveEntry s := rfl
theorem exec_copyRecoveryReport (s : State) : exec .copyRecoveryReport s = execCopyRecoveryReport s := rfl
theorem exec_restoreSavedEntry (s : State) : exec .restoreSavedEntry s = execRestoreSavedEntry s := rfl
theorem exec_writeBootParameters (s : State) : exec .writeBootParameters s = execWriteBootParameters s := rfl
theorem exec_unknownRequest (s : State) : exec .unknownRequest s = execUnknownRequest s := rfl

include ha

theorem registerInboundBuffer_registers (hc : s.hasCtx (reqCtx w) = true) (hop : reqOp w = 0x29) (hn : arg w 0 < 256)
    (hv : xValid ((s.ctx (reqCtx w)).ext (arg w 1)) = true) (hp : bit (xPerm ((s.ctx (reqCtx w)).ext (arg w 1))) 0 = true) :
    ∃ t, exec .registerInboundBuffer s = .next t ∧ s.answered t w 0 0 ∧
      (mget (t.ctx (reqCtx w)).bufs (arg w 0) = some (arg w 1) ∧ xAtc ((t.ctx (reqCtx w)).ext (arg w 1)) = 2) := by
  have hv' : xValid (((headTaken s).ctx (reqCtx w)).ext (arg w 1)) = true := hv
  have hp' : bit (xPerm (((headTaken s).ctx (reqCtx w)).ext (arg w 1))) 0 = true := hp
  refine request_answers_in (exec_registerInboundBuffer s) (status := 0) ha hop hc
    (t := (headTaken s).modCtx (reqCtx w) fun u => u.addBuf (arg w 0) (arg w 1))
    (if_pos (by rw [hv', hp', decide_eq_true hn]; rfl)) (by decide) (fun h => h) rfl fun u hu _ => ?_
  rw [hu.ctx, ctx_modCtx_self]
  exact ⟨mget_mset_self _ _ _, xAtc_addBuf _ _ _⟩

/-! ### Peers and boot parameters (R338, R405) -/

theorem writePeerEntry_writes (hop : reqOp w = 0x2A) (hn : arg w 0 < 1024) (hv : bit (wd ((w.drop 2).take 4) 0) 63 = true)
    (hz : bits (wd ((w.drop 2).take 4) 0) 62 32 = 0) (h3 : wd ((w.drop 2).take 4) 3 = 0) :
    ∃ t, exec .writePeerEntry s = .next t ∧ s.answered t w 0 0 ∧ mget t.peers (arg w 0) = some ((w.drop 2).take 4) := by
  have hself : bit (wd ((w.drop 2).take 4) 0) 62 = false := by
    unfold bits at hz
    rw [bit, beq_eq_false_iff_ne]
    omega
  have hlow : bits (wd ((w.drop 2).take 4) 0) 61 32 = 0 := by
    unfold bits at hz ⊢
    omega
  refine request_answers (exec_writePeerEntry s) (status := 0) ha hop rfl
    (t := { headTaken s with peers := mset s.peers (arg w 0) ((w.drop 2).take 4) })
    ((if_pos (by rw [hself, hlow, h3, decide_eq_true hn, Bool.and_false, Bool.false_and]; rfl)).trans
      (congrArg (done 0) (if_pos hv))) (by decide) (fun h => h) rfl fun u hu _ => ?_
  rw [hu.peers]
  exact mget_mset_self _ _ _
theorem writeBootParameters_writes (hop : reqOp w = 0x40) (hn : arg w 0 ≤ 96) :
    ∃ t, exec .writeBootParameters s = .next t ∧ s.answered t w 0 0 ∧ (t.nv.hrcsz = arg w 0 ∧ t.nv.lplease = arg w 1) := by
  refine request_answers (exec_writeBootParameters s) (status := 0) ha hop rfl
    (t := { headTaken s with nv := { s.nv with hrcsz := arg w 0, lplease := arg w 1 } })
    (if_pos (decide_eq_true hn)) (by decide) (fun h => h) rfl fun u hu _ => ?_
  rw [hu.nv]
  exact ⟨rfl, rfl⟩
theorem unknownRequest_refused (hop : reqOp w ∉ knownOps) :
    ∃ t, exec .unknownRequest s = .next t ∧ s.answered t w 0x02 0 ∧ (t.ctxs = s.ctxs ∧ t.nv = s.nv) := by
  have hk : knownOps.contains (reqOp w) = false := by simpa using hop
  have h39 : reqOp w ≠ 0x39 := fun h => hop (h ▸ by decide)
  have hwf := wf_of_asked ha
  obtain ⟨hans, honly, -⟩ := handled_answers (s := s) (w := w) (f := fun _ _ t => done 0x02 t) (status := 0x02) (value := 0)
    (t := headTaken s) rfl (by decide) hwf rfl
  exact ⟨_, (exec_unknownRequest s).trans (request_asked (op := fun op => !knownOps.contains op) ha (by rw [hk]; rfl) (.inr h39)
    (by rw [hk]; rfl)), hans, honly.ctxs, honly.nv⟩

/-! ### Must-save entries (R382, R383) -/

theorem writeMustSaveEntry_admits (hc : s.hasCtx (reqCtx w) = true) (hop : reqOp w = 0x30)
    (hok : (s.ctx (reqCtx w)).mustOk (arg w 0) ((w.drop 2).take 4) = true)
    (hn : mget (s.ctx (reqCtx w)).must (arg w 0) = none)
    (hb : if msClass ((w.drop 2).take 4) = 0 then s.charges.1 + msCharge ((w.drop 2).take 4) ≤ s.gbud
      else s.charges.2 + msCharge ((w.drop 2).take 4) ≤ s.tbud) :
    ∃ t, exec .writeMustSaveEntry s = .next t ∧ s.answered t w 0 0 ∧
      mget (t.ctx (reqCtx w)).must (arg w 0) = some ((w.drop 2).take 4) := by
  have hok' : ((headTaken s).ctx (reqCtx w)).mustOk (arg w 0) ((w.drop 2).take 4) = true := hok
  have hn' : mget ((headTaken s).ctx (reqCtx w)).must (arg w 0) = none := hn
  have hb' : ¬ if msClass ((w.drop 2).take 4) = 0 then (headTaken s).gbud < (headTaken s).charges.1 + msCharge ((w.drop 2).take 4)
      else (headTaken s).tbud < (headTaken s).charges.2 + msCharge ((w.drop 2).take 4) := by
    split at hb
    · next h => rw [if_pos h]; exact Nat.not_lt.2 hb
    · next h => rw [if_neg h]; exact Nat.not_lt.2 hb
  refine request_answers_in (exec_writeMustSaveEntry s) (status := 0) ha hop hc
    (t := (headTaken s).modCtx (reqCtx w) fun u => { u with must := mset u.must (arg w 0) ((w.drop 2).take 4) })
    ((if_neg (by rw [hok']; decide)).trans ((if_neg (by rw [hn']; decide)).trans (if_neg hb'))) (by decide) (fun h => h) rfl
    fun u hu _ => ?_
  rw [hu.ctx, ctx_modCtx_self]
  exact mget_mset_self _ _ _
theorem withdrawMustSaveEntry_withdraws (hc : s.hasCtx (reqCtx w) = true) (hop : reqOp w = 0x31)
    (hn : (mget (s.ctx (reqCtx w)).must (arg w 0)).isSome = true) (hr : risingFrom 0 (s.ctx (reqCtx w)).must = true) :
    ∃ t, exec .withdrawMustSaveEntry s = .next t ∧ s.answered t w 0 0 ∧ mget (t.ctx (reqCtx w)).must (arg w 0) = none := by
  have hn' : (mget ((headTaken s).ctx (reqCtx w)).must (arg w 0)).isSome = true := hn
  refine request_answers_in (exec_withdrawMustSaveEntry s) (status := 0) ha hop hc
    (t := (headTaken s).modCtx (reqCtx w) fun u => { u with must := mdel u.must (arg w 0) })
    (if_pos hn') (by decide) (fun h => h) rfl fun u hu _ => ?_
  rw [hu.ctx, ctx_modCtx_self]
  exact mget_mdel_self _ hr

end

/-! ### Bytes that the command processor writes (R391) -/

theorem getD_toBytes {n k : Nat} (v : Nat) (hk : k < n) : (toBytes n v).getD k 0 = BitVec.ofNat 8 (v / 256 ^ k) := by
  induction n generalizing v k with
  | zero => omega
  | succ n ih =>
    cases k with
    | zero => rw [Nat.pow_zero, Nat.div_one]; rfl
    | succ k => rw [toBytes, List.getD_cons_succ, ih _ (by omega), Nat.div_div_eq_div_mul, pow_succ' 256 k]
/-- The bytes of a list of words, each least significant first. -/
theorem getD_bytesOf (l : List Word) {j : Nat} (hj : j < 8 * l.length) :
    (l.flatMap fun x => toBytes 8 x.toNat).getD j 0 = BitVec.ofNat 8 (wd l (j / 8) / 256 ^ (j % 8)) := by
  induction l generalizing j with
  | nil => exact absurd hj (Nat.not_lt_zero j)
  | cons x l ih =>
    rw [List.flatMap_cons]
    by_cases h : j < 8
    · rw [List.getD_append _ _ _ _ (by rw [length_toBytes]; exact h), getD_toBytes _ h, Nat.div_eq_of_lt h, Nat.mod_eq_of_lt h]
      rfl
    · obtain ⟨m, rfl⟩ := Nat.exists_eq_add_of_le (Nat.le_of_not_lt h)
      rw [List.getD_append_right _ _ _ _ (by rw [length_toBytes]; exact Nat.le_add_right 8 m), length_toBytes,
        Nat.add_sub_cancel_left, ih (by rw [List.length_cons] at hj; omega), Nat.add_mod_left,
        Nat.add_div_left m (by decide)]
      rfl
theorem length_bytesOf (l : List Word) : (l.flatMap fun x => toBytes 8 x.toNat).length = 8 * l.length := by
  induction l with
  | nil => rfl
  | cons x l ih => rw [List.flatMap_cons, List.length_append, ih, length_toBytes, List.length_cons]; omega
theorem getD_take_drop {α : Type} (l : List α) (d : α) {o n i : Nat} (hi : i < n) :
    ((l.drop o).take n).getD i d = l.getD (o + i) d := by
  simp [List.getD_eq_getElem?_getD, hi]

/-- A write of the command processor, where nothing is cached and no host write waits. -/
theorem cpWrite_of_none {s : State} (hw : s.ways = []) (r : Nat × List Word) (cells : List Host.Cell) :
    s.cpWrite r cells = done 0 (s.hostWrite cells) := by
  rw [State.cpWrite, if_neg]
  simp [State.rowsPinned, State.waysOf, hw]
theorem hostWrite_same (s : State) (cells : List Host.Cell) :
    (s.hostWrite cells).rqhead = s.rqhead ∧ (s.hostWrite cells).ctxs = s.ctxs := by
  have hc := OnlyAnswer.clearRows s (cells.map fun c => c.1)
  have h := hc.trans (OnlyAnswer.perform _ (oneOff hostClass (s.hostN + 1)) [] (cells.filter fun c => !s.hostWaits c.1))
  exact ⟨h.rqhead, h.ctxs⟩

section
variable {s : State} {w : List Word} (ha : s.asked w)
include ha

theorem copyRecoveryReport_copies {a : Nat} (hc : s.hasCtx (reqCtx w) = true) (hop : reqOp w = 0x38) (hheld : s.repHeld = true)
    (hlen : s.report.length = 1048) (hn : arg w 0 + arg w 1 ≤ 8384) (hw : s.ways = []) (hr : s.rowHold = [])
    (hp : (s.ctx (reqCtx w)).tier0 (arg w 2 % 2 ^ 60) (arg w 1) = some a) (hlow : a + arg w 1 ≤ hostBase) :
    ∃ t, exec .copyRecoveryReport s = .next t ∧ s.answered t w 0 0 ∧ ∀ i, i < arg w 1 → Memory.get t.mem (a + i) =
      BitVec.ofNat 8 (wd s.report ((arg w 0 + i) / 8) / 256 ^ ((arg w 0 + i) % 8)) := by
  have hheld' : (headTaken s).repHeld = true := hheld
  have hrange : (headTaken s).reqRange w = (arg w 2 % 2 ^ 60, arg w 1) := by
    rw [State.reqRange, hop]
    rfl
  have hp' : ((headTaken s).ctx (reqCtx w)).tier0 ((headTaken s).reqRange w).1 (arg w 1) = some a := by
    rw [hrange]
    exact hp
  let bs := ((s.report.flatMap fun x => toBytes 8 x.toNat).drop (arg w 0)).take (arg w 1)
  have hbs : bs.length = arg w 1 := by
    rw [List.length_take, List.length_drop, length_bytesOf, hlen]
    omega
  have hmem : ((headTaken s).hostWrite (cellsAt a bs)).mem = Memory.setAll s.mem (cellsAt a bs) :=
    hostWrite_mem_of_none (s := headTaken s) hw hr _
  refine request_answers_in (exec_copyRecoveryReport s) (status := 0) ha hop hc (t := (headTaken s).hostWrite (cellsAt a bs))
    ((if_neg (by rw [hheld']; simpa using hn)).trans (by rw [hp']; exact cpWrite_of_none (s := headTaken s) hw _ _)) (by decide)
    (fun h => hostWrite_wf (s := headTaken s) _ h) (hostWrite_same _ _).1 fun u _ hu i hi => ?_
  rw [hu _ (by omega), hmem, memory_get_setAll_cellsAt _ _ (wf_of_asked ha), if_pos (by omega), Nat.add_sub_cancel_left,
    getD_take_drop _ _ hi, getD_bytesOf _ (by omega)]

end

/-! ### A saved entry comes back (R391) -/

/-- A granule piece begins inside the bytes that it is a piece of. -/
theorem granPieces_start {a n : Nat} {q : Nat × Nat} (h : q ∈ granPieces a n) : a ≤ q.1 ∧ q.1 < a + n := by
  obtain ⟨g, hg, rfl⟩ := List.mem_map.1 h
  rw [touchGrans] at hg
  split at hg
  · exact absurd hg List.not_mem_nil
  · have := mem_upto.1 hg
    omega

section
variable {s : State} {c v a : Nat} {bs : List Byte}
  (h : ∀ i, i < bs.length → ∃ e, (s.ctx c).findExt (v + i) = some e ∧ xTier e.2 ≠ 4 ∧ xPhys e.2 (v + i) = a + i)
include h

/-- Bytes that extents off the chip map side by side are written side by side. -/
theorem cellsVia_eq : s.cellsVia c v bs = cellsAt a bs := by
  unfold State.cellsVia
  induction bs generalizing v a with
  | nil => rfl
  | cons b bs ih =>
    obtain ⟨e, he, ht, hp⟩ := h 0 (Nat.zero_lt_succ _)
    have hrest := ih (v := v + 1) (a := a + 1) fun i hi => by
      have hi' := h (i + 1) (Nat.succ_lt_succ hi)
      rwa [Nat.add_comm i 1, ← Nat.add_assoc, ← Nat.add_assoc] at hi'
    rw [Nat.add_zero] at he hp
    rw [cellsAt_cons, cellsAt_cons, List.filterMap_cons, hrest]
    simp only [he, Option.bind_some, if_neg ht, hp, Nat.add_zero]
/-- None of them lies in a window. -/
theorem winVia_eq {u : State} (hu : u.ctx c = s.ctx c) : u.winVia c v bs = u := by
  have hfold (l : List (Nat × Nat)) (hl : ∀ q ∈ l, v ≤ q.1 ∧ q.1 < v + bs.length) :
      l.foldl (fun (u : State) q => match (u.ctx c).findExt q.1 with
        | some e =>
          let r := xPhys e.2 q.1 - onChipBase
          if xTier e.2 = 4 ∧ u.meet (Fin.ofNat 8 c) (r / 2 ^ 23) = .block then
            u.writeWin [] (r / 2 ^ 23) (r % 2 ^ 23) true ((bs.drop (q.1 - v)).take q.2)
          else u
        | none => u) u = u := by
    induction l with
    | nil => rfl
    | cons q l ih =>
      obtain ⟨hlo, hhi⟩ := hl q List.mem_cons_self
      obtain ⟨e, he, ht, -⟩ := h (q.1 - v) (by omega)
      rw [Nat.add_sub_cancel' hlo, ← hu] at he
      rw [List.foldl_cons, he]
      dsimp only
      rw [if_neg fun hx => ht hx.1]
      exact ih fun r hr => hl r (List.mem_cons_of_mem _ hr)
  exact hfold _ fun q hq => granPieces_start hq

end

theorem length_upto (lo n : Nat) : (upto lo n).length = n := by rw [upto_eq_map, List.length_map, List.length_range]
theorem length_image (nv : NonVol) (y : Saved) : (nv.image y).length = y.body := by
  rw [NonVol.image, NonVol.bytes, List.length_map, length_upto]

section
variable {s : State} {w : List Word} (ha : s.asked w)
include ha

theorem restoreSavedEntry_restores {a : Nat} {y : Saved} (hc : s.hasCtx (reqCtx w) = true) (hop : reqOp w = 0x39)
    (hheld : s.nv.held = true) (hy : (s.nv.saved.find? fun e => e.slot == arg w 0) = some y) (hres : s.nv.result y = 0)
    (hmap : s.mapped (reqCtx w) (arg w 1 % 2 ^ 60) y.body = true) (hw : s.ways = []) (hr : s.rowHold = [])
    (hlow : a + y.body ≤ hostBase)
    (hx : ∀ i, i < y.body → ∃ e, (s.ctx (reqCtx w)).findExt (arg w 1 % 2 ^ 60 + i) = some e ∧ xTier e.2 ≠ 4 ∧
      xPhys e.2 (arg w 1 % 2 ^ 60 + i) = a + i) :
    ∃ t, exec .restoreSavedEntry s = .next t ∧ s.answered t w 0 0 ∧
      ∀ i, i < y.body → Memory.get t.mem (a + i) = (s.nv.image y).getD i 0 := by
  have hentry : (headTaken s).nv.entry w = some y := (if_pos hheld).trans hy
  have hrange : ((headTaken s).reqRange w).1 = arg w 1 % 2 ^ 60 := by
    rw [State.reqRange, hop]
    rfl
  have hmap' : (headTaken s).mapped (reqCtx w) (arg w 1 % 2 ^ 60) y.body = true := hmap
  have hres' : (headTaken s).nv.result y = 0 := hres
  have hx' : ∀ i, i < (s.nv.image y).length → ∃ e, ((headTaken s).ctx (reqCtx w)).findExt (arg w 1 % 2 ^ 60 + i) = some e ∧
      xTier e.2 ≠ 4 ∧ xPhys e.2 (arg w 1 % 2 ^ 60 + i) = a + i := by
    rw [length_image]
    exact hx
  have hcells : (headTaken s).cellsVia (reqCtx w) (arg w 1 % 2 ^ 60) ((headTaken s).nv.image y) = cellsAt a (s.nv.image y) :=
    cellsVia_eq hx'
  let t := (headTaken s).hostWrite (cellsAt a (s.nv.image y))
  have hwin : t.winVia (reqCtx w) (arg w 1 % 2 ^ 60) ((headTaken s).nv.image y) = t :=
    winVia_eq hx' (congrArg (fun m => mgetD m (reqCtx w) Ctx.init) (hostWrite_same _ _).2)
  have hmem : t.mem = Memory.setAll s.mem (cellsAt a (s.nv.image y)) := hostWrite_mem_of_none (s := headTaken s) hw hr _
  refine request_answers_in (exec_restoreSavedEntry s) (status := 0) ha hop hc (t := t)
    ?_ (by decide) (fun h => hostWrite_wf (s := headTaken s) _ h) (hostWrite_same _ _).1 fun u _ hu i hi => ?_
  · dsimp only
    rw [hentry]
    dsimp only
    rw [hrange, if_neg (by rw [hmap', hres']; decide), hcells, cpWrite_of_none (s := headTaken s) hw]
    exact congrArg (Prod.mk (some (0, 0))) hwin
  · rw [hu _ (by omega), hmem, memory_get_setAll_cellsAt _ _ (wf_of_asked ha), length_image, if_pos (by omega), Nat.add_sub_cancel_left]

end

/-- Settles O52: each operation's effect once its checks pass, and the answer written into its record. -/
theorem commandProcessorRequests : Obligations.CommandProcessorRequests := by
  unfold Obligations.CommandProcessorRequests
  intro s w ha op c x answers slot d
  refine ⟨fun hop hl hu => ⟨createContext_unarmed ha hop hl hu, fun n b harm hsvc hf hb =>
    createContext_creates ha hop hl hu harm hsvc hf hb⟩, fun hc => ⟨?_, ?_, ?_, ?_, ?_, ?_, ?_, ?_, ?_, ?_, ?_, ?_, ?_⟩, ?_, ?_, ?_⟩
  · exact destroyContext_destroys ha hc
  · exact fun hop hid => ⟨writeExtent_refused ha hc hop, writeExtent_writes ha hc hop hid⟩
  · exact revokeExtent_begins ha hc
  · exact leaseChannel_leases ha hc
  · exact fun l => endLease_ends ha hc
  · exact fun hop => designateNearMemoryRegion_designates ha hc hop
  · exact writeTableDescriptor_writes ha hc
  · exact fun hop => registerExchangeGroup_registers ha hc hop
  · exact registerInboundBuffer_registers ha hc
  · exact writeMustSaveEntry_admits ha hc
  · exact withdrawMustSaveEntry_withdraws ha hc
  · exact fun a => copyRecoveryReport_copies ha hc
  · exact fun y a hop hheld hy hres hmap hw hr hlow => restoreSavedEntry_restores ha hc hop hheld hy hres hmap hw hr hlow
  · exact fun hop hn hv hz => writePeerEntry_writes ha hop hn hv hz
  · exact writeBootParameters_writes ha
  · exact unknownRequest_refused ha

end Sys2Proof.Proofs
end

section
/-!
PROOFS. How the copy engine moves one byte and writes its granule (R181, R183, R207 to R212, R276).
-/
namespace Sys2Proof.Proofs
open Sys2Proof Sys2Proof.Machine Sys2Proof.Laws

-- One proof after another: side by side, they would wait for one another's equations of the model in a thread each.
set_option Elab.async false

/-! ### The double-buffer mapping moves whole granules (R276) -/

theorem dblPair_mod (w o : Nat) : dblPair w o % 16 = o % 16 := by
  unfold dblPair
  dsimp only
  split_ifs <;> omega
theorem dblPair_div {x y : Nat} (w : Nat) (h : x / 16 = y / 16) : dblPair w x / 16 = dblPair w y / 16 := by
  unfold dblPair
  dsimp only
  rw [h]
  split_ifs <;> omega
theorem dblMap_mod (hdr : List Word) (par : Vector Bool 8) (o : Nat) : dblMap hdr par o % 16 = o % 16 := by
  unfold dblMap
  induction upto 0 (bits (wd hdr 7) 59 56) generalizing o with
  | nil => rfl
  | cons n l ih =>
    rw [List.foldl_cons, ih]
    split
    · exact dblPair_mod _ o
    · rfl
theorem dblMap_div {x y : Nat} (hdr : List Word) (par : Vector Bool 8) (h : x / 16 = y / 16) :
    dblMap hdr par x / 16 = dblMap hdr par y / 16 := by
  unfold dblMap
  induction upto 0 (bits (wd hdr 7) 59 56) generalizing x y with
  | nil => exact h
  | cons n l ih =>
    rw [List.foldl_cons, List.foldl_cons]
    refine ih ?_
    split
    · exact dblPair_div _ h
    · exact h

/-! ### Bytes of a granule (R181) -/

/-- Byte i of a granule. -/
def granAt (d : Gran) (i : Nat) : Byte := BitVec.ofNat 8 (d.toNat / 256 ^ i)

theorem granByte_eq (s : State) (w : Where) (o : Nat) : s.granByte w o = granAt (s.gran w (o / 16)).data (o % 16) := rfl
theorem granPieces_one (a : Nat) : granPieces a 1 = [(a, 1)] := by
  have h1 : (a + 1 - 1) / 16 + 1 - a / 16 = 1 := by omega
  rw [granPieces, touchGrans, if_neg (by decide), h1]
  simp only [upto, List.map_cons, List.map_nil, List.cons.injEq, Prod.mk.injEq, and_true]
  omega
theorem ofNat_ofBytes (bs : List Byte) (i : Nat) : BitVec.ofNat 8 (ofBytes bs / 256 ^ i) = bs.getD i 0 := by
  induction bs generalizing i with
  | nil => rw [ofBytes, Nat.zero_div]; rfl
  | cons b bs ih =>
    cases i with
    | zero =>
      rw [Nat.pow_zero, Nat.div_one, ofBytes, List.getD_cons_zero]
      exact BitVec.eq_of_toNat_eq (by rw [BitVec.toNat_ofNat, Nat.add_mul_mod_self_left]; exact Nat.mod_eq_of_lt b.isLt)
    | succ i =>
      rw [pow_succ' 256 i, ← Nat.div_div_eq_div_mul, ofBytes, Nat.add_mul_div_left _ _ (by decide), Nat.div_eq_of_lt b.isLt,
        Nat.zero_add, ih, List.getD_cons_succ]
theorem ofBytes_lt (bs : List Byte) : ofBytes bs < 256 ^ bs.length := by
  induction bs with
  | nil => exact Nat.one_pos
  | cons b bs ih =>
    have hb := b.isLt
    rw [ofBytes, List.length_cons, pow_succ' 256]
    omega
theorem granAt_ofBytes {bs : List Byte} (h : bs.length = 16) (i : Nat) : granAt (BitVec.ofNat 128 (ofBytes bs)) i = bs.getD i 0 := by
  have hlt : ofBytes bs < 2 ^ 128 := by
    have hb := ofBytes_lt bs
    rw [h] at hb
    omega
  rw [granAt, BitVec.toNat_ofNat, Nat.mod_eq_of_lt hlt, ofNat_ofBytes]
/-- A merge takes the bytes of its mask from the new granule and the others from the old one. -/
theorem granAt_mergeGran (old new : Gran) (mask : Nat) {i : Nat} (hi : i < 16) :
    granAt (mergeGran old new mask) i = if bit mask i then granAt new i else granAt old i := by
  rw [mergeGran, granAt_ofBytes (by rw [List.length_map, length_upto]), upto_eq_map, List.map_map]
  rw [List.getD_eq_getElem _ _ (by simpa using hi)]
  simp only [List.getElem_map, List.getElem_range, Function.comp, Nat.zero_add]
  split <;> rfl
theorem granAt_patchGran {p : Nat} (hp : p < 16) (b : Byte) : granAt (patchGran 0 p [b]) p = b := by
  have hb := b.isLt
  have hput : putBits (0 : Gran).toNat (8 * (p + 1) - 1) (8 * p) (ofBytes [b]) = b.toNat * 256 ^ p := by
    have h8 : 8 * (p + 1) - 1 + 1 - 8 * p = 8 := by omega
    have h0 : (0 : Gran).toNat = 0 := rfl
    rw [putBits, bits, h0, Nat.zero_div, Nat.zero_mod, Nat.zero_mul, Nat.sub_zero, Nat.zero_add, h8, ofBytes, ofBytes,
      Nat.mul_zero, Nat.add_zero, Nat.mod_eq_of_lt hb, Nat.pow_mul]
  have hlt : b.toNat * 256 ^ p < 2 ^ 128 :=
    calc b.toNat * 256 ^ p < 256 * 256 ^ p := Nat.mul_lt_mul_of_pos_right hb (Nat.pow_pos (by decide))
      _ = 256 ^ (p + 1) := (pow_succ' 256 p).symm
      _ ≤ 256 ^ 16 := Nat.pow_le_pow_right (by decide) hp
  rw [granAt, patchGran, List.length_singleton, hput, BitVec.toNat_ofNat, Nat.mod_eq_of_lt hlt,
    Nat.mul_div_cancel _ (Nat.pow_pos (by decide))]
  exact BitVec.eq_of_toNat_eq (by rw [BitVec.toNat_ofNat]; exact Nat.mod_eq_of_lt hb)
theorem bit_granMask (o i : Nat) : bit (granMask o 1) i = decide (i = o % 16) := by
  rw [granMask, bit_eq_testBit, Nat.pow_one, Nat.one_mul, Nat.testBit_two_pow]
  exact decide_eq_decide.2 eq_comm

/-! ### What moving one element reads and adds (R183, R208) -/

/-- A command that stores and fetches one-byte elements, with plain flags. -/
structure PlainBytes (d : CopyCmd) : Prop where
  dty : tType d.dshape = .i8
  sfe : d.flags.sfe = .plain
  dwe : d.flags.dwe = false
  bps : d.flags.bps = false
  bpd : d.flags.bpd = false

/-- The address of element p of the destination, and of the source. -/
def dstAddr (d : CopyCmd) (p : Nat × Nat) : Nat := d.dst.addr + (p.1 * tStride d.dshape + p.2)
def srcAddr (d : CopyCmd) (p : Nat × Nat) : Nat := d.src.addr + (p.1 * tStride d.sshape + p.2)

theorem unitRuns_byte {t : Word} (h : tType t = .i8) (scr : Bool) (i j : Nat) : unitRuns t scr i j = [(i * tStride t + j, 1)] := by
  have hd : j * 8 / 8 = j := Nat.mul_div_cancel j (by decide)
  rw [unitRuns, h]
  exact congrArg (fun n => [(i * tStride t + n, 1)]) hd

/-- What fits the scratchpad is no fault; nor is memory. -/
theorem copyFault_local {s : State} {k : Nat} {e : EView} {p : Place} {off : Nat} (hk : p.kind = .local)
    (h : p.addr + off < scrbytes (s.core k).res.hdr) : s.copyFault k e p false off 1 = none := by
  rw [State.copyFault, if_pos hk, granPieces_one]
  simpa using h
theorem copyFault_mem {s : State} {k : Nat} {e : EView} {p : Place} {off n : Nat} (hk : p.kind = .mem) :
    s.copyFault k e p false off n = none := by
  rw [State.copyFault, if_neg (by rw [hk]; decide), State.placeFault, State.windowFault, hk]

theorem site_local {s : State} {k : Nat} {e : EView} {p : Place} (hk : p.kind = .local) (a : Nat) :
    s.site k e p false a = .gran (.scr k) (dblMap (s.core k).res.hdr e.par a) := by
  rw [State.site, hk]
  rfl
theorem site_mem {s : State} {k : Nat} {e : EView} {p : Place} {bp : Bool} (hk : p.kind = .mem) (a : Nat) :
    s.site k e p bp a = .mem p.path a := by
  rw [State.site, hk]

theorem overlay_nil {s : State} {k : Nat} {x : CopyRun} (h : x.buf = []) (st : Site) (bs : List PByte) :
    s.overlay k x st bs = bs := by
  have hnone : (if x.cmd.outb then none else x.buf.find? fun e => (s.dstSite k x.cmd (16 * e.1)).key == st.key) = none := by
    rw [h]
    split <;> rfl
  rw [State.overlay, hnone]

/-- Nothing but what engines have read differs. -/
def OnlyReads (s t : State) : Prop := t = { s with engs := t.engs }
theorem onlyReads_engLearn (s : State) (e : EView) (ns : List Nat) : OnlyReads s (s.engLearn e ns) := by
  unfold State.engLearn
  dsimp only
  split <;> rfl

/-- One byte of local scratch, as a source without full/empty flags. -/
theorem srcRun_byte {s : State} {k : Nat} {x : CopyRun} {off : Nat} (hf : x.cmd.flags.sfe = .plain) (hb : x.cmd.flags.bps = false)
    (hk : x.cmd.src.kind = .local) (hbuf : x.buf = []) : ∃ u pois, OnlyReads s u ∧
      SrcGot.run k ⟨[], false, s, x⟩ (off, 1) =
        ⟨[(s.localByte k x.cmd.view (x.cmd.src.addr + off), pois)], false, u, x⟩ := by
  let o := dblMap (s.core k).res.hdr x.cmd.view.par (x.cmd.src.addr + off)
  refine ⟨s.engLearn x.cmd.view (s.writersOf (.scr k) o 1), s.granPois (.scr k) o 1, onlyReads_engLearn .., ?_⟩
  have hsrc : s.srcGran k x (.gran (.scr k) o) 1 =
      some ([s.granByte (.scr k) o], s.granPois (.scr k) o 1, s.engLearn x.cmd.view (s.writersOf (.scr k) o 1), x) := by
    unfold State.srcGran
    rw [hf]
    rfl
  rw [SrcGot.run, granPieces_one, List.foldl_cons, List.foldl_nil]
  dsimp only
  rw [hb, site_local hk, hsrc]
  dsimp only
  rw [overlay_nil hbuf]
  rfl

/-- What a command has moved of a granule when it has moved one byte. -/
def onePart (a : Nat) (b : PByte) : CopyPart where
  data := mergeGran 0 (patchGran 0 (a % 16) [b.1]) (granMask a 1)
  mask := granMask a 1
  low := 0
  pois := b.2

theorem addPart_one {x : CopyRun} (h : x.buf = []) (a : Nat) (b : PByte) :
    x.addPart false a [b] = { x with buf := [(a / 16, onePart a b)] } := by
  unfold CopyRun.addPart
  rw [h]
  simp [mgetD, mset, onePart]

/-- The byte that a unit is filled with. -/
def unitByte (s : State) (k : Nat) (d : CopyCmd) : From → Byte
  | .elem i j => s.localByte k d.view (srcAddr d (i, j))
  | .fill => d.i.setWidth 8
  | .zero => 0

/-- A source element, where there is one, is a byte of local scratch. -/
def SrcOk (s : State) (k : Nat) (d : CopyCmd) (fr : From) : Prop :=
  ∀ i j, fr = .elem i j → d.src.kind = .local ∧ tType d.sshape = .i8 ∧ srcAddr d (i, j) < scrbytes (s.core k).res.hdr
/-- A destination element is a byte of local scratch or of memory. -/
def DstOk (s : State) (k : Nat) (d : CopyCmd) (p : Nat × Nat) : Prop :=
  d.dst.kind = .local ∧ dstAddr d p < scrbytes (s.core k).res.hdr ∨ d.dst.kind = .mem

theorem copyFault_dst {s : State} {k : Nat} {d : CopyCmd} {p : Nat × Nat} (h : DstOk s k d p) :
    s.copyFault k d.view d.dst false (p.1 * tStride d.dshape + p.2) 1 = none := by
  rcases h with ⟨hk, hlt⟩ | hk
  · exact copyFault_local hk hlt
  · exact copyFault_mem hk

theorem toBytes_one (v : Nat) : toBytes 1 v = [BitVec.ofNat 8 v] := rfl
theorem ofBytes_one (b : Byte) : BitVec.ofNat 8 (ofBytes [b]) = b :=
  BitVec.eq_of_toNat_eq (by rw [BitVec.toNat_ofNat, ofBytes, ofBytes]; exact Nat.mod_eq_of_lt b.isLt)

theorem unitBytes_byte {d : CopyCmd} (h : tType d.dshape = .i8) (scr : Bool) (p : Nat × Nat) (e : PByte) (ms : List (Nat × Bool))
    (old : PByte) : unitBytes d scr p e ms old = [(BitVec.ofNat 8 (ms.getD 0 (0, false)).1, (ms.getD 0 (0, false)).2)] := by
  unfold unitBytes
  dsimp only
  rw [h]
  rfl
theorem lowHalf_byte {d : CopyCmd} (h : tType d.dshape = .i8) (p : Nat × Nat) : lowHalf d p = false := by
  unfold lowHalf
  rw [h]
  rfl

/-- What a unit of a byte is filled with, before it is cut to one. -/
def unitWord (s : State) (k : Nat) (d : CopyCmd) : From → Nat
  | .elem i j => ofBytes [s.localByte k d.view (srcAddr d (i, j))]
  | .fill => d.i.toNat
  | .zero => 0
theorem ofNat_unitWord (s : State) (k : Nat) (d : CopyCmd) (fr : From) : BitVec.ofNat 8 (unitWord s k d fr) = unitByte s k d fr := by
  cases fr with
  | elem i j => exact ofBytes_one _
  | fill => exact BitVec.eq_of_toNat_eq (by rw [BitVec.toNat_ofNat]; exact (BitVec.toNat_setWidth ..).symm)
  | zero => rfl

/-- The first element that a command read poisoned, after a unit (R212). -/
def firstBad (x : CopyRun) (p : Nat × Nat) (pois : Bool) : Option Nat :=
  x.first <|> (if pois = true then some 0 else none).map fun n => p.1 * tCols x.cmd.dshape + p.2 + n

theorem moveUnit_byte {s : State} {k : Nat} {x : CopyRun} {fr : From} {p : Nat × Nat} (hx : PlainBytes x.cmd) (hbuf : x.buf = [])
    (hmv : s.copyMove k x.cmd x.next = (fr, some p)) (hsrc : SrcOk s k x.cmd fr) (hdst : DstOk s k x.cmd p) :
    ∃ u pois fst, OnlyReads s u ∧ s.moveUnit k x = .moved u { x with
      next := x.next + 1
      first := fst
      buf := [(dstAddr x.cmd p / 16, onePart (dstAddr x.cmd p) (unitByte s k x.cmd fr, pois))] } := by
  have hbx : Ty.i8.isBx = false := rfl
  have hw : Ty.i8.width = 8 := rfl
  have hf := copyFault_dst hdst
  have hadd : ∀ fst pois, ({ x with next := x.next + 1, first := fst } : CopyRun).addPart false
      (x.cmd.dst.addr + (p.1 * tStride x.cmd.dshape + p.2)) [(BitVec.ofNat 8 (unitWord s k x.cmd fr), pois)] =
      { x with next := x.next + 1, first := fst
               buf := [(dstAddr x.cmd p / 16, onePart (dstAddr x.cmd p) (unitByte s k x.cmd fr, pois))] } := by
    intro fst pois
    rw [ofNat_unitWord]
    exact addPart_one (x := { x with next := x.next + 1, first := fst }) hbuf _ _
  cases fr with
  | elem i j =>
    obtain ⟨hk, hty, hlt⟩ := hsrc i j rfl
    obtain ⟨u, pois, hu, hrun⟩ := srcRun_byte (s := s) (k := k) (x := { x with next := x.next + 1 })
      (off := i * tStride x.cmd.sshape + j) hx.sfe hx.bps hk hbuf
    have hfs := copyFault_local (e := x.cmd.view) hk hlt
    refine ⟨u, pois, firstBad x p pois, hu, Eq.trans ?_ (congrArg (Moved.moved u) (hadd _ pois))⟩
    unfold State.moveUnit
    simp only [hmv, unitRuns_byte hx.dty, unitRuns_byte hty, hx.bps, hx.bpd, List.filterMap_cons, List.filterMap_nil, hfs, hf,
      List.foldl_cons, List.foldl_nil, hrun, unitBytes_byte hx.dty, lowHalf_byte hx.dty, hx.dty, hbx, hw, List.flatMap_cons,
      List.flatMap_nil, granPieces_one, List.append_nil, List.head?_nil, Bool.false_eq_true, ↓reduceIte, Nat.reduceEqDiff,
      false_and, List.map_cons, List.map_nil, List.getD_cons_zero, List.take_succ_cons, List.take_zero, List.any_cons,
      List.any_nil, Bool.or_false, id_eq]
    rfl
  | fill | zero =>
    refine ⟨s, false, firstBad x p false, rfl, Eq.trans ?_ (congrArg (Moved.moved s) (hadd _ false))⟩
    unfold State.moveUnit
    simp only [hmv, unitRuns_byte hx.dty, hx.bpd, List.filterMap_cons, List.filterMap_nil, hf, List.foldl_cons, List.foldl_nil,
      unitBytes_byte hx.dty, lowHalf_byte hx.dty, hx.dty, hbx, hw, List.flatMap_cons, List.flatMap_nil, granPieces_one,
      List.append_nil, List.head?_nil, Bool.false_eq_true, ↓reduceIte, Nat.reduceEqDiff, false_and, List.take_succ_cons,
      List.take_zero]
    rfl

theorem moveUnit_none {s : State} {k : Nat} {x : CopyRun} (h : (s.copyMove k x.cmd x.next).2 = none) :
    s.moveUnit k x = .moved s { x with next := x.next + 1 } := by
  unfold State.moveUnit
  extract_lets c mv x0
  rw [show mv.2 = none from h]

end Sys2Proof.Proofs
end

section
/-!
PROOFS. The copy engine writes one destination granule, and ends (R181, R183, R208 to R212, R244).
-/
namespace Sys2Proof.Proofs
open Sys2Proof Sys2Proof.Machine Sys2Proof.Laws

-- One proof after another: side by side, they would wait for one another's equations of the model in a thread each.
set_option Elab.async false

/-! ### Writing a granule of the core's own scratch (R181, R183) -/

theorem core_setGran (s : State) (k g : Nat) (x : SGran) :
    (s.setGran (.scr k) g x).core k = { s.core k with scr := mput SGran.empty (s.core k).scr g x } := core_modCore_self s k _
theorem gran_setGran_ne (s : State) (k : Nat) {g j : Nat} {x : SGran} (hx : x ≠ SGran.empty) (h : j ≠ g) :
    (s.setGran (.scr k) g x).gran (.scr k) j = s.gran (.scr k) j := by
  change mgetD ((s.setGran (.scr k) g x).core k).scr j SGran.empty = mgetD (s.core k).scr j SGran.empty
  rw [core_setGran, mput, if_neg hx]
  exact mgetD_mset_ne _ _ _ h
theorem gran_ne_empty_of_full {x : SGran} (h : x.full = true) : x ≠ SGran.empty := by
  rintro rfl
  exact Bool.noConfusion h

/-- Granule g of core k's scratch is written with the bytes of a mask and becomes full; nothing else of its scratch, of the
core or of memory changes. -/
structure GranWritten (s t : State) (k g : Nat) (d : Gran) (mask : Nat) : Prop where
  mem : t.mem = s.mem
  core : ∃ scr, t.core k = { s.core k with scr := scr }
  full : (t.gran (.scr k) g).full = true
  data : (t.gran (.scr k) g).data = mergeGran (s.gran (.scr k) g).data d mask
  other : ∀ j, j ≠ g → t.gran (.scr k) j = s.gran (.scr k) j

theorem granWritten_setGran {s : State} {k g : Nat} {d : Gran} {mask : Nat} {x : SGran} (hf : x.full = true)
    (hd : x.data = mergeGran (s.gran (.scr k) g).data d mask) : GranWritten s (s.setGran (.scr k) g x) k g d mask where
  mem := setGran_mem ..
  core := ⟨_, core_setGran ..⟩
  full := by rw [gran_setGran_scr s k g (gran_ne_empty_of_full hf), hf]
  data := by rw [gran_setGran_scr s k g (gran_ne_empty_of_full hf), hd]
  other _ hj := gran_setGran_ne s k (gran_ne_empty_of_full hf) hj
theorem granWritten_granPut (s : State) (v : View) (k g : Nat) (d : Gran) (mask : Nat) :
    GranWritten s (s.granPut v (.scr k) g d mask true) k g d mask := by
  unfold State.granPut
  extract_lets x n
  have h := granWritten_setGran (s := ({ s with
    wseq := n
    ghist := mset s.ghist (Where.key (.scr k) g) ((n, mask, x.data) :: mgetD s.ghist (Where.key (.scr k) g) [])
    msgs := if v.isEmpty then s.msgs else mset s.msgs n v } : State)) (k := k) (g := g) (d := d) (mask := mask)
    (x := { data := mergeGran x.data d mask, full := x.full || true, pois := x.pois && mask != 65535 })
    (Bool.or_true _) rfl
  exact ⟨h.mem, h.core, h.full, h.data, h.other⟩
/-- Marking the written granule poisoned keeps what was written. -/
theorem GranWritten.pois {s t : State} {k g : Nat} {d : Gran} {mask : Nat} (h : GranWritten s t k g d mask) :
    GranWritten s (t.granSetPois (.scr k) [g]) k g d mask := by
  have hx : ({ t.gran (.scr k) g with pois := true } : SGran) ≠ SGran.empty := gran_ne_empty_of_full h.full
  obtain ⟨scr, hcore⟩ := h.core
  rw [State.granSetPois, List.foldl_cons, List.foldl_nil]
  refine ⟨(setGran_mem ..).trans h.mem, ⟨_, (core_setGran ..).trans (by rw [hcore])⟩, ?_, ?_, ?_⟩
  · rw [gran_setGran_scr t k g hx, h.full]
  · rw [gran_setGran_scr t k g hx, h.data]
  · exact fun j hj => (gran_setGran_ne t k hx hj).trans (h.other j hj)
theorem granWritten_engGran {s : State} {k : Nat} (hh : s.haltedCore k = false) (v : View) (g : Nat) (d : Gran) (mask : Nat)
    (pois : Bool) : GranWritten s (s.engGran v (.scr k) g d mask pois) k g d mask := by
  have hput := granWritten_granPut s v k g d mask
  have h : GranWritten s (s.engPut v (.scr k) g d mask pois) k g d mask := by
    unfold State.engPut
    dsimp only
    split
    · exact hput.pois
    · exact hput
  rwa [State.engGran, hh]

/-- Every byte after a write of one byte. -/
theorem GranWritten.granByte {s t : State} {k a o : Nat} {b : PByte} (ho : o % 16 = a % 16)
    (h : GranWritten s t k (o / 16) (onePart a b).data (onePart a b).mask) (n : Nat) :
    t.granByte (.scr k) n = if n = o then b.1 else s.granByte (.scr k) n := by
  have ha : a % 16 < 16 := Nat.mod_lt _ (by decide)
  rw [granByte_eq, granByte_eq]
  by_cases hg : n / 16 = o / 16
  · have hn : n % 16 < 16 := Nat.mod_lt _ (by decide)
    rw [hg, h.data, onePart]
    dsimp only
    rw [granAt_mergeGran _ _ _ hn, bit_granMask]
    by_cases hm : n % 16 = a % 16
    · rw [if_pos (decide_eq_true hm), if_pos (by omega), hm, granAt_mergeGran _ _ _ ha, bit_granMask, if_pos (decide_eq_true rfl),
        granAt_patchGran ha]
    · rw [if_neg (by simpa using hm), if_neg (by rintro rfl; exact hm ho)]
  · rw [h.other _ hg, if_neg (by rintro rfl; exact hg rfl)]
theorem GranWritten.gran_full {s t : State} {k g : Nat} {d : Gran} {mask : Nat} (h : GranWritten s t k g d mask) (n : Nat) :
    (t.gran (.scr k) n).full = ((s.gran (.scr k) n).full || n == g) := by
  by_cases hn : n = g
  · rw [hn, h.full, beq_self_eq_true, Bool.or_true]
  · rw [h.other n hn, beq_false_of_ne hn, Bool.or_false]

/-! ### One destination granule (R181, R212) -/

/-- The command after its only granule is written: the same command, with nothing left to write. -/
structure Emptied (x y : CopyRun) : Prop where
  cmd : y.cmd = x.cmd
  next : y.next = x.next
  buf : y.buf = []

theorem mdel_singleton {α : Type} (k : Nat) (v : α) : mdel [(k, v)] k = [] := by
  rw [mdel, if_pos rfl]

theorem dstWrite_local {s : State} {k : Nat} {x : CopyRun} {e : Nat × CopyPart} (hb : x.cmd.flags.bpd = false)
    (hk : x.cmd.dst.kind = .local) (hbuf : x.buf = [e]) : ∃ y, Emptied x y ∧ s.dstWrite k x e =
      (s.engGran (s.engClk x.cmd.view) (.scr k) (dblMap (s.core k).res.hdr x.cmd.view.par (16 * e.1) / 16) e.2.data e.2.mask e.2.pois,
        y) := by
  unfold State.dstWrite
  extract_lets st bytes x1
  have hst : st = .gran (.scr k) (dblMap (s.core k).res.hdr x.cmd.view.par (16 * e.1)) := by
    change s.site k x.cmd.view x.cmd.dst x.cmd.flags.bpd (16 * e.1) = _
    rw [hb, site_local hk]
  rw [hst]
  exact ⟨x1, ⟨rfl, rfl, by rw [show x1.buf = mdel x.buf e.1 from rfl, hbuf]; exact mdel_singleton _ _⟩, rfl⟩

theorem toBytes_eq_map (n v : Nat) : toBytes n v = (upto 0 n).map fun i => BitVec.ofNat 8 (v / 256 ^ i) := by
  refine List.ext_getElem (by rw [length_toBytes, List.length_map, length_upto]) fun i hi _ => ?_
  rw [length_toBytes] at hi
  rw [← List.getD_eq_getElem _ 0, getD_toBytes v hi]
  simp [upto_eq_map]
theorem filter_upto_eq : ∀ m < 16, (upto 0 16).filter (fun i => decide (i = m)) = [m] := by decide
/-- The bytes of the granule of a one-byte unit that a write takes: that byte. -/
theorem bytes_onePart (a : Nat) (b : PByte) :
    (((toBytes 16 (onePart a b).data.toNat).zip (upto 0 16)).filter fun c => bit (onePart a b).mask c.2) = [(b.1, a % 16)] := by
  have ha : a % 16 < 16 := Nat.mod_lt _ (by decide)
  have hzip := List.zip_map' (f := fun i => BitVec.ofNat 8 ((onePart a b).data.toNat / 256 ^ i)) (g := id) (l := upto 0 16)
  rw [List.map_id] at hzip
  have hbit : ∀ i, bit (onePart a b).mask i = decide (i = a % 16) := bit_granMask a
  have hb : BitVec.ofNat 8 ((onePart a b).data.toNat / 256 ^ (a % 16)) = b.1 := by
    change granAt (mergeGran 0 (patchGran 0 (a % 16) [b.1]) (granMask a 1)) (a % 16) = b.1
    rw [granAt_mergeGran _ _ _ ha, bit_granMask, if_pos (decide_eq_true rfl), granAt_patchGran ha]
  rw [toBytes_eq_map, hzip, List.filter_map]
  simp only [Function.comp_def, hbit, id]
  rw [filter_upto_eq _ ha, List.map_cons, List.map_nil, hb]

theorem dstWrite_mem {s : State} {k a : Nat} {x : CopyRun} {b : PByte} (hk : x.cmd.dst.kind = .mem)
    (hbuf : x.buf = [(a / 16, onePart a b)]) : ∃ y, Emptied x y ∧ y.out = x.out ++ [(a, b.1)] ∧
      s.dstWrite k x (a / 16, onePart a b) = (s, y) := by
  unfold State.dstWrite
  extract_lets st bytes x1
  have hst : st = .mem x.cmd.dst.path (16 * (a / 16)) := site_mem hk _
  have hout : x.out ++ bytes.map (fun c => (16 * (a / 16) + c.2, c.1)) = x.out ++ [(a, b.1)] := by
    have ha : 16 * (a / 16) + a % 16 = a := Nat.div_add_mod a 16
    rw [show bytes = [(b.1, a % 16)] from bytes_onePart a b, List.map_cons, List.map_nil, ha]
  rw [hst]
  refine ⟨_, ⟨?_, ?_, ?_⟩, hout, rfl⟩
  · rfl
  · rfl
  · change mdel x.buf (a / 16) = []
    rw [hbuf]
    exact mdel_singleton _ _

theorem dstWaits_local {s : State} {k : Nat} {x : CopyRun} {e : Nat × CopyPart} (hx : PlainBytes x.cmd)
    (hk : x.cmd.dst.kind = .local) (hf : s.holdFull k = false) : s.dstWaits k x e = false := by
  unfold State.dstWaits
  rw [State.dstSite, hx.bpd, site_local hk]
  dsimp only
  rw [hx.dwe, hf]
  rfl
theorem dstWaits_mem {s : State} {k : Nat} {x : CopyRun} {e : Nat × CopyPart} (hk : x.cmd.dst.kind = .mem) :
    s.dstWaits k x e = false := by
  unfold State.dstWaits
  rw [State.dstSite, site_mem hk]

/-! ### Moving the last unit (R212) -/

theorem moveGran_moveUnit {s u : State} {k : Nat} {x y : CopyRun} (n : Nat) (hbuf : x.buf = []) (hl : x.next < x.cmd.units)
    (h : s.moveUnit k x = .moved u y) : s.moveGran (n + 1) k x = u.moveGran n k y := by
  rw [State.moveGran, hbuf, List.find?_nil]
  dsimp only
  rw [if_neg (Nat.not_le.2 hl), h]
theorem moveGran_dstWrite {s : State} {k : Nat} {x : CopyRun} {e : Nat × CopyPart} (n : Nat) (hbuf : x.buf = [e])
    (hl : x.cmd.units ≤ x.next) (hw : s.dstWaits k x e = false) :
    s.moveGran (n + 1) k x = .moved (s.dstWrite k x e).1 (s.dstWrite k x e).2 := by
  have hr : x.ready e = true := by rw [CopyRun.ready, decide_eq_true hl, Bool.true_or]
  have hfind : x.buf.find? x.ready = some e := by rw [hbuf, List.find?_cons_of_pos hr]
  rw [State.moveGran, hfind]
  dsimp only
  rw [hw, if_neg Bool.false_ne_true]
theorem moveGran_end {s : State} {k : Nat} {x : CopyRun} (n : Nat) (hbuf : x.buf = []) (hl : x.cmd.units ≤ x.next) :
    s.moveGran n k x = .moved s x := by
  cases n with
  | zero => rfl
  | succ n =>
    rw [State.moveGran, hbuf, List.find?_nil]
    dsimp only
    rw [if_pos hl]

end Sys2Proof.Proofs
end

section
/-!
PROOFS. The copy engine's moves, settled (R183, R194, R208 to R212, R244).
-/
namespace Sys2Proof.Proofs
open Sys2Proof Sys2Proof.Machine Sys2Proof.Laws

-- One proof after another: side by side, they would wait for one another's equations of the model in a thread each.
set_option Elab.async false

/-! ### The last granule ends the command's moves (R210, R212, R244) -/

theorem advance_of_done_nil {g : Ring} (h : g.done = []) (n : Nat) : g.advance n = g := by
  cases n with
  | zero => rfl
  | succ n =>
    rw [Ring.advance, h, List.contains_nil]
    exact if_neg Bool.false_ne_true
/-- With no panel waiting to be counted, a written panel moves the tail when it is the next. -/
theorem tail_written {g : Ring} {p : Nat} (hd : g.done = []) (hp : panelDiff p g.tail < 512) :
    (g.written p).tail = if p = g.tail then (g.tail + 1) % 2 ^ 32 else g.tail := by
  rw [Ring.written, if_pos hp, hd, List.nil_append, Ring.advance]
  dsimp only
  by_cases h : p = g.tail
  · have hdone : [p].filter (fun a => a != g.tail) = [] := by simp [h]
    rw [if_pos h, if_pos (by simp [h]), hdone, advance_of_done_nil rfl]
  · rw [if_neg h, if_neg (by simpa using Ne.symm h)]

/-- The command has moved everything, and no byte of memory has changed; a ring copy's panel is present once it is the next. -/
def MovesEnded (s t : State) (k : Nat) (q : Fin 4) (d : CopyCmd) : Prop :=
  (∃ y, (t.core k).crun[q] = some y ∧ y.cmd = d ∧ y.done = true ∧ s.sameMemory t) ∧
    (d.op = .tring → (s.core k).ring[d.ring].done = [] → panelDiff d.panel (s.core k).ring[d.ring].tail < 512 →
      ((t.core k).ring[d.ring]).tail = if d.panel = (s.core k).ring[d.ring].tail then ((s.core k).ring[d.ring].tail + 1) % 2 ^ 32
        else (s.core k).ring[d.ring].tail)

theorem core_copyDone (s : State) (k : Nat) (q : Fin 4) (x : CopyRun) : (s.copyDone k q x).core k = { s.core k with
    crun := (s.core k).crun.set q (some { x with done := true })
    ring := if x.cmd.op = .tring then (s.core k).ring.set x.cmd.ring ((s.core k).ring[x.cmd.ring].written x.cmd.panel)
      else (s.core k).ring } := by
  rw [State.copyDone, core_modCore_self, State.setRun, core_modCore_self]
theorem crun_copyDone (s : State) (k : Nat) (q : Fin 4) (x : CopyRun) :
    ((s.copyDone k q x).core k).crun[q] = some { x with done := true } := by
  rw [core_copyDone]
  exact Vector.getElem_set_self _
theorem gran_copyDone (s : State) (k : Nat) (q : Fin 4) (x : CopyRun) (g : Nat) :
    (s.copyDone k q x).gran (.scr k) g = s.gran (.scr k) g := by
  change mgetD ((s.copyDone k q x).core k).scr g SGran.empty = mgetD (s.core k).scr g SGran.empty
  rw [core_copyDone]
theorem granByte_copyDone (s : State) (k : Nat) (q : Fin 4) (x : CopyRun) (b : Nat) :
    (s.copyDone k q x).granByte (.scr k) b = s.granByte (.scr k) b := by
  rw [granByte_eq, granByte_eq, gran_copyDone]

/-- The ring buffers and the memory that the command began with still stand. -/
theorem movesEnded_copyDone {s u : State} {k : Nat} {q : Fin 4} {x : CopyRun} (hm : u.mem = s.mem)
    (hr : (u.core k).ring = (s.core k).ring) : MovesEnded s (u.copyDone k q x) k q x.cmd := by
  refine ⟨⟨_, crun_copyDone u k q x, rfl, rfl, fun a => congrArg (Memory.get · a) hm⟩, fun hop hd hp => ?_⟩
  rw [core_copyDone]
  dsimp only
  rw [if_pos hop, hr]
  have hg : ((s.core k).ring.set x.cmd.ring ((s.core k).ring[x.cmd.ring].written x.cmd.panel))[x.cmd.ring] =
      (s.core k).ring[x.cmd.ring].written x.cmd.panel := Vector.getElem_set_self _
  rw [hg, tail_written hd hp]

/-! ### The command's turn (R211 to R213) -/

theorem exec_copyCommand (k : Nat) (q : Fin 4) (s : State) : exec (.copyCommand k q) s = execCopyCommand k q s := rfl

/-- The running command of a transfer queue that has its last unit left to move, alone in its granule, and plain flags. -/
structure LastUnit (s : State) (k : Nat) (q : Fin 4) (x : CopyRun) : Prop where
  on : s.engineOn k = true
  halted : s.haltedCore k = false
  run : (s.core k).crun[q] = some x
  done : x.done = false
  cancel : x.cancel = false
  waited : x.waited = true
  buf : x.buf = []
  last : x.next + 1 = x.cmd.units
  plain : PlainBytes x.cmd

section
variable {s : State} {k : Nat} {q : Fin 4} {x : CopyRun}

theorem LastUnit.next_lt (h : LastUnit s k q x) : x.next < x.cmd.units := by
  have := h.last
  omega
theorem holdFull_of_not_halted (h : s.haltedCore k = false) : s.holdFull k = false := by
  rw [State.holdFull, h, Bool.false_and]

/-- A turn whose move leaves nothing ends the command's moves. -/
theorem LastUnit.ends (h : LastUnit s k q x) {t : State} {y : CopyRun} (hmv : s.moveGran 64 k x = .moved t y)
    (hl : y.cmd.units ≤ y.next) (hb : y.buf = []) : exec (.copyCommand k q) s = .next (t.copyDone k q y) := by
  have hlt : ¬x.cmd.units ≤ x.next := Nat.not_le.2 h.next_lt
  rw [exec_copyCommand, execCopyCommand]
  simp only [h.on, h.run, h.done, h.cancel, h.waited, hmv, hlt, hl, hb, Bool.not_true, Bool.false_eq_true, ↓reduceIte, false_and,
    List.isEmpty_nil, and_self]

/-- The last unit's byte is written to local scratch. -/
theorem LastUnit.writes_local (h : LastUnit s k q x) {fr : From} {p : Nat × Nat} (hmv : s.copyMove k x.cmd x.next = (fr, some p))
    (hsrc : SrcOk s k x.cmd fr) (hk : x.cmd.dst.kind = .local) (hlt : dstAddr x.cmd p < scrbytes (s.core k).res.hdr) :
    ∃ t, exec (.copyCommand k q) s = .next t ∧ MovesEnded s t k q x.cmd ∧
      t.granByte (.scr k) (dblMap (s.core k).res.hdr x.cmd.view.par (dstAddr x.cmd p)) = unitByte s k x.cmd fr ∧
      (∀ b, b ≠ dblMap (s.core k).res.hdr x.cmd.view.par (dstAddr x.cmd p) → t.granByte (.scr k) b = s.granByte (.scr k) b) ∧
      ∀ g, (t.gran (.scr k) g).full =
        ((s.gran (.scr k) g).full || g == dblMap (s.core k).res.hdr x.cmd.view.par (dstAddr x.cmd p) / 16) := by
  obtain ⟨u, pois, fst, hu, hunit⟩ := moveUnit_byte h.plain h.buf hmv hsrc (.inl ⟨hk, hlt⟩)
  set a := dstAddr x.cmd p
  set b : PByte := (unitByte s k x.cmd fr, pois)
  set o := dblMap (s.core k).res.hdr x.cmd.view.par a
  set y : CopyRun := { x with next := x.next + 1, first := fst, buf := [(a / 16, onePart a b)] }
  have hcore : u.core k = s.core k := by rw [hu]; rfl
  have hhalt : u.haltedCore k = false := by rw [hu]; exact h.halted
  obtain ⟨z, hz, hw⟩ := dstWrite_local (s := u) (k := k) (x := y) h.plain.bpd hk rfl
  have hgran : dblMap (u.core k).res.hdr y.cmd.view.par (16 * (a / 16)) / 16 = o / 16 := by
    rw [hcore]
    exact dblMap_div _ _ (by omega)
  have hput := granWritten_engGran hhalt (u.engClk y.cmd.view) (o / 16) (onePart a b).data (onePart a b).mask (onePart a b).pois
  rw [hgran] at hw
  set w := u.engGran (u.engClk y.cmd.view) (.scr k) (o / 16) (onePart a b).data (onePart a b).mask (onePart a b).pois
  have hwait : u.dstWaits k y (a / 16, onePart a b) = false := dstWaits_local h.plain hk (holdFull_of_not_halted hhalt)
  have hmoved : s.moveGran 64 k x = .moved w z :=
    (moveGran_moveUnit 63 h.buf h.next_lt hunit).trans
      ((moveGran_dstWrite 62 (x := y) rfl (le_of_eq h.last.symm) hwait).trans (by rw [hw]))
  have hsg : ∀ g, u.gran (.scr k) g = s.gran (.scr k) g := fun g => by rw [hu]; rfl
  obtain ⟨scr, hcw⟩ := hput.core
  have hring : (w.core k).ring = (s.core k).ring := by rw [hcw, hcore]
  have hmem : w.mem = s.mem := hput.mem.trans (by rw [hu])
  have hbyte : ∀ n, (w.copyDone k q z).granByte (.scr k) n = if n = o then b.1 else s.granByte (.scr k) n := fun n => by
    rw [granByte_copyDone, hput.granByte (dblMap_mod _ _ a), granByte_eq u, granByte_eq s, hsg]
  refine ⟨_, h.ends hmoved (by rw [hz.cmd, hz.next]; exact le_of_eq h.last.symm) hz.buf, ?_, ?_, ?_, ?_⟩
  · have hend := movesEnded_copyDone (q := q) (x := z) hmem hring
    rwa [hz.cmd] at hend
  · rw [hbyte, if_pos rfl]
  · exact fun n hn => by rw [hbyte, if_neg hn]
  · exact fun g => by rw [gran_copyDone, hput.gran_full, hsg]

/-- The last unit's byte joins those that become visible in memory. -/
theorem LastUnit.writes_mem (h : LastUnit s k q x) {fr : From} {p : Nat × Nat} (hmv : s.copyMove k x.cmd x.next = (fr, some p))
    (hsrc : SrcOk s k x.cmd fr) (hk : x.cmd.dst.kind = .mem) :
    ∃ t, exec (.copyCommand k q) s = .next t ∧ MovesEnded s t k q x.cmd ∧
      ((t.core k).crun[q].map fun y => y.out) = some (x.out ++ [(dstAddr x.cmd p, unitByte s k x.cmd fr)]) ∧
      ∀ b, t.granByte (.scr k) b = s.granByte (.scr k) b := by
  obtain ⟨u, pois, fst, hu, hunit⟩ := moveUnit_byte h.plain h.buf hmv hsrc (.inr hk)
  set a := dstAddr x.cmd p
  set b : PByte := (unitByte s k x.cmd fr, pois)
  set y : CopyRun := { x with next := x.next + 1, first := fst, buf := [(a / 16, onePart a b)] }
  obtain ⟨z, hz, hout, hw⟩ := dstWrite_mem (s := u) (k := k) (x := y) (b := b) hk rfl
  have hmoved : s.moveGran 64 k x = .moved u z :=
    (moveGran_moveUnit 63 h.buf h.next_lt hunit).trans
      ((moveGran_dstWrite 62 (x := y) rfl (le_of_eq h.last.symm) (dstWaits_mem hk)).trans (by rw [hw]))
  refine ⟨_, h.ends hmoved (by rw [hz.cmd, hz.next]; exact le_of_eq h.last.symm) hz.buf, ?_, ?_, fun n => ?_⟩
  · have hend := movesEnded_copyDone (s := s) (u := u) (k := k) (q := q) (x := z) (by rw [hu]) (by rw [hu]; rfl)
    rwa [hz.cmd] at hend
  · rw [crun_copyDone, Option.map_some]
    exact congrArg some hout
  · rw [granByte_copyDone, hu]
    rfl

/-- A last unit without a destination writes nothing. -/
theorem LastUnit.omits (h : LastUnit s k q x) (hmv : (s.copyMove k x.cmd x.next).2 = none) :
    ∃ t, exec (.copyCommand k q) s = .next t ∧ MovesEnded s t k q x.cmd ∧ ((t.core k).crun[q].map fun y => y.out) = some x.out ∧
      ∀ b, t.granByte (.scr k) b = s.granByte (.scr k) b := by
  have hmoved : s.moveGran 64 k x = .moved s { x with next := x.next + 1 } := by
    rw [moveGran_moveUnit 63 h.buf h.next_lt (moveUnit_none hmv)]
    exact moveGran_end 63 h.buf (le_of_eq h.last.symm)
  refine ⟨_, h.ends hmoved (le_of_eq h.last.symm) h.buf, movesEnded_copyDone (x := { x with next := x.next + 1 }) rfl rfl, ?_,
    fun n => granByte_copyDone ..⟩
  rw [crun_copyDone]
  rfl

end

/-! ### What a unit is taken from, and where it goes (R194, R208) -/

/-- The element of the source that clipping leaves, or zero. -/
def fromClip (e : Option (Nat × Nat)) : From := e.elim .zero fun p => .elem p.1 p.2

theorem fromClip_eq (e : Option (Nat × Nat)) : fromClip e = match e with
    | some p => .elem p.1 p.2
    | none => .zero := by
  cases e <;> rfl
theorem unitByte_fromClip (s : State) (k : Nat) (d : CopyCmd) (e : Option (Nat × Nat)) :
    unitByte s k d (fromClip e) = e.elim 0 fun p => s.localByte k d.view (srcAddr d p) := by
  cases e <;> rfl
theorem srcOk_fromClip {s : State} {k : Nat} {d : CopyCmd} {e : Option (Nat × Nat)}
    (h : d.src.kind = .local ∧ tType d.sshape = .i8 ∧ ∀ p, e = some p → srcAddr d p < scrbytes (s.core k).res.hdr) :
    SrcOk s k d (fromClip e) := by
  obtain ⟨hk, hty, hlt⟩ := h
  intro i j hij
  cases e with
  | none => exact From.noConfusion hij
  | some p =>
    cases hij
    exact ⟨hk, hty, hlt p rfl⟩

theorem unitCols_i8 {t : Word} (h : tType t = .i8) : unitCols t = 1 := by rw [unitCols, h]; rfl

section
variable (s : State) (k : Nat) {d : CopyCmd} (n : Nat) (hty : tType d.dshape = .i8)
include hty

theorem copyMove_fill (h : d.op = .fill) : s.copyMove k d n = (.fill, some (n / d.perRow, n % d.perRow)) := by
  rw [State.copyMove, h, unitCols_i8 hty, Nat.mul_one]
theorem copyMove_copy (h : d.op = .copy ∨ d.op = .tring) : s.copyMove k d n =
    (fromClip (clipElem d.flags.clip d.sshape (coord d.i + (n / d.perRow : Nat)) (coord d.j + (n % d.perRow : Nat))),
      some (n / d.perRow, n % d.perRow)) := by
  rw [State.copyMove, unitCols_i8 hty, Nat.mul_one]
  rcases h with h | h
  all_goals
    rw [h]
    exact congrArg (·, some (n / d.perRow, n % d.perRow)) (fromClip_eq _).symm
theorem copyMove_gather (h : d.op = .gather) : s.copyMove k d n =
    (fromClip (clipElem d.flags.clip d.sshape (s.listAt k d (n / d.perRow)) (coord d.i + (n % d.perRow : Nat))),
      some (n / d.perRow, n % d.perRow)) := by
  rw [State.copyMove, unitCols_i8 hty, Nat.mul_one, h]
  exact congrArg (·, some (n / d.perRow, n % d.perRow)) (fromClip_eq _).symm
theorem copyMove_scatter (h : d.op = .scatter) : s.copyMove k d n =
    (fromClip (some (n / d.perRow, n % d.perRow)),
      clipElem .zero d.dshape (s.listAt k d (n / d.perRow)) (coord d.j + (n % d.perRow : Nat))) := by
  rw [State.copyMove, unitCols_i8 hty, Nat.mul_one, h]
  rfl

end

end Sys2Proof.Proofs
end

section
/-!
PROOFS. The copy engine's completions, and its obligation settled (R208 to R212, R244).
-/
namespace Sys2Proof.Proofs
open Sys2Proof Sys2Proof.Machine Sys2Proof.Laws

-- One proof after another: side by side, they would wait for one another's equations of the model in a thread each.
set_option Elab.async false

/-! ### A completion touches neither the rings nor the other running copies (R212) -/

/-- A core's running copies, rings and mark are the same. -/
structure KeepsCopies (s t : State) (k : Nat) : Prop where
  crun : (t.core k).crun = (s.core k).crun
  ring : (t.core k).ring = (s.core k).ring
  mark : (t.core k).mark = (s.core k).mark

namespace KeepsCopies
variable {s t u : State} {k : Nat}

theorem trans (h : KeepsCopies s t k) (g : KeepsCopies t u k) : KeepsCopies s u k :=
  ⟨g.crun.trans h.crun, g.ring.trans h.ring, g.mark.trans h.mark⟩
theorem of_core (h : t.core k = s.core k) : KeepsCopies s t k := by
  constructor <;> rw [h]
theorem modCore (s : State) (k : Nat) {f : Core → Core} (hc : ∀ c, (f c).crun = c.crun := by exact fun _ => rfl)
    (hr : ∀ c, (f c).ring = c.ring := by exact fun _ => rfl) (hm : ∀ c, (f c).mark = c.mark := by exact fun _ => rfl) :
    KeepsCopies s (s.modCore k f) k := by
  constructor <;> rw [core_modCore_self]
  · exact hc _
  · exact hr _
  · exact hm _
theorem semAdd (s : State) (k : Nat) (n : Fin 16) (v : Nat) (w : View) : KeepsCopies s (s.semAdd k n v w) k := by
  unfold State.semAdd
  dsimp only
  split
  · exact modCore s k
  · exact (modCore s k).trans (of_core (logEv_core ..))
theorem semSignal (s : State) (k : Nat) (n : Fin 16) (v ph : Nat) (w : View) : KeepsCopies s (s.semSignal k n v ph w) k := by
  refine (semAdd s k n v w).trans (modCore _ k ?_ ?_ ?_)
  all_goals
    intro c
    split <;> rfl
theorem deliver_sem (s : State) (k : Nat) (n : Fin 16) (v ph : Nat) (w : View) :
    KeepsCopies s (s.deliver k (.sem n v ph w)) k := semSignal s k n v ph w
theorem deliver_ev (s : State) (k : Nat) (e : Ev25) : KeepsCopies s (s.deliver k (.ev e)) k := by
  unfold State.deliver
  refine modCore s k ?_ ?_ ?_
  all_goals
    intro c
    dsimp only
    split <;> rfl
/-- What a core receives, at once or at its resume. -/
theorem give {h : Held} (hd : KeepsCopies s (s.deliver k h) k) : KeepsCopies s (s.give k h) k := by
  unfold State.give
  split
  · exact modCore s k
  · exact hd
theorem ite {p : Prop} [Decidable p] (h : KeepsCopies s t k) : KeepsCopies s (if p then t else s) k := by
  split
  · exact h
  · exact of_core rfl

end KeepsCopies

theorem settle_of_mark {s : State} {k : Nat} (h : (s.core k).mark ≠ .dying) : s.settle k = s := by
  unfold State.settle
  dsimp only
  rw [if_neg (by simp [h])]

theorem exec_copyCompletion (k : Nat) (q : Fin 4) (s : State) : exec (.copyCompletion k q) s = execCopyCompletion k q s := rfl

section
variable (s : State) (k : Nat) (q : Fin 4) (x : CopyRun)

/-- A core whose copy completes: the queue is free, and the command is done in the log. -/
def freeQueue (v : View) (c : Core) : Core :=
  ({ (if x.cmd.flags.evt then c.noteAcq (12 + q.val) x.cmd.seq v (x.out.map fun b => b.1) else c) with
    crun := c.crun.set q none
    log := c.log.map fun y => if y.cmd.q = q ∧ y.cmd.seq = x.cmd.seq then { y with done := true } else y } : Core).wake
/-- The completion of a copy that wrote nothing outbound and met no bad source data: the queue, the signal and the entry (R212). -/
def freesQueue : State := s.modCore k (freeQueue q x (s.ownWrites x.cmd.view))
def signalsCopy : State :=
  if x.cmd.sems.sen then (freesQueue s k q x).give k (.sem x.cmd.sems.sems 1 x.cmd.ph (s.engDone x.cmd.view)) else freesQueue s k q x
def completesCopy : State :=
  if x.cmd.flags.evt then
    (signalsCopy s k q x).give k (.ev ⟨copyEntry x 0, x.cmd.ph, some (12 + q.val, x.cmd.seq)⟩)
  else signalsCopy s k q x

theorem crun_freesQueue : ((freesQueue s k q x).core k).crun[q] = none := by
  rw [freesQueue, core_modCore_self]
  exact Vector.getElem_set_self _
theorem freeQueue_fields (v : View) (c : Core) :
    (freeQueue q x v c).ring = c.ring ∧ (freeQueue q x v c).mark = c.mark := by
  unfold freeQueue Core.noteAcq
  split
  · split <;> exact ⟨rfl, rfl⟩
  · exact ⟨rfl, rfl⟩
theorem keepsCopies_completesCopy : KeepsCopies (freesQueue s k q x) (completesCopy s k q x) k :=
  (KeepsCopies.give (.deliver_sem ..)).ite.trans (KeepsCopies.give (.deliver_ev ..)).ite

end

/-- A ring copy that is all moved and met no bad source data completes: its queue is free, and no ring moves (R210). -/
theorem exec_copyCompletion_inbound {s : State} {k : Nat} {q : Fin 4} {x : CopyRun} (hon : s.engineOn k = true)
    (hrun : (s.core k).crun[q] = some x) (hdone : x.done = true) (hcan : x.cancel = false) (hfirst : x.first = none)
    (hsil : x.cmd.silent = false) (hout : x.cmd.outb = false) (hmark : (s.core k).mark ≠ .dying)
    (hevt : x.cmd.flags.evt = true → (s.core k).qUsed 25 < 64) :
    exec (.copyCompletion k q) s = .next ((completesCopy s k q x).settle k) := by
  have hlive : ((s.core k).mark != .dying) = true := by simpa using hmark
  have hstat : x.status = 0 := by
    rw [CopyRun.status, hcan, hfirst]
    rfl
  have hroom : (x.cmd.flags.evt && decide (64 ≤ (s.core k).qUsed 25)) = false := by
    cases he : x.cmd.flags.evt with
    | false => rfl
    | true => exact decide_eq_false (Nat.not_le.2 (hevt he))
  rw [exec_copyCompletion, execCopyCompletion]
  simp only [hon, hrun, hdone, hout, hsil, hlive, hstat, hroom, Bool.not_true, Bool.false_eq_true, ↓reduceIte, Bool.false_and,
    Bool.and_self, Bool.true_and, bne_self_eq_false, Bool.or_false, Bool.not_false]
  rfl
theorem exec_copyCompletion_rings {s : State} {k : Nat} {q : Fin 4} {x : CopyRun} (hon : s.engineOn k = true)
    (hrun : (s.core k).crun[q] = some x) (hdone : x.done = true) (hcan : x.cancel = false) (hfirst : x.first = none)
    (hsil : x.cmd.silent = false) (hout : x.cmd.outb = false) (hmark : (s.core k).mark ≠ .dying)
    (hevt : x.cmd.flags.evt = true → (s.core k).qUsed 25 < 64) :
    ∃ t, exec (.copyCompletion k q) s = .next t ∧ (t.core k).crun[q] = none ∧ (t.core k).ring = (s.core k).ring := by
  have hk := keepsCopies_completesCopy s k q x
  obtain ⟨hfr, hfm⟩ := freeQueue_fields q x (s.ownWrites x.cmd.view) (s.core k)
  have hcore : (freesQueue s k q x).core k = freeQueue q x (s.ownWrites x.cmd.view) (s.core k) := core_modCore_self ..
  have hset : (completesCopy s k q x).settle k = completesCopy s k q x :=
    settle_of_mark (by rw [hk.mark, hcore, hfm]; exact hmark)
  refine ⟨_, exec_copyCompletion_inbound hon hrun hdone hcan hfirst hsil hout hmark hevt, ?_, ?_⟩
  · rw [hset, hk.crun, crun_freesQueue]
  · rw [hset, hk.ring, hcore, hfr]

/-! ### The obligation -/

/-- The command's turn writes byte v to element p of its destination: to local scratch, or among the bytes that become visible in
memory. -/
def WritesByte (s : State) (k : Nat) (q : Fin 4) (x : CopyRun) (p : Nat × Nat) (v : Byte) : Prop :=
  (x.cmd.dst.kind = .local → dstAddr x.cmd p < scrbytes (s.core k).res.hdr → ∃ t, exec (.copyCommand k q) s = .next t ∧
    MovesEnded s t k q x.cmd ∧
    t.granByte (.scr k) (dblMap (s.core k).res.hdr x.cmd.view.par (dstAddr x.cmd p)) = v ∧
    (∀ b, b ≠ dblMap (s.core k).res.hdr x.cmd.view.par (dstAddr x.cmd p) → t.granByte (.scr k) b = s.granByte (.scr k) b) ∧
    ∀ g, (t.gran (.scr k) g).full =
      ((s.gran (.scr k) g).full || g == dblMap (s.core k).res.hdr x.cmd.view.par (dstAddr x.cmd p) / 16)) ∧
  (x.cmd.dst.kind = .mem → ∃ t, exec (.copyCommand k q) s = .next t ∧ MovesEnded s t k q x.cmd ∧
    ((t.core k).crun[q].map fun y => y.out) = some (x.out ++ [(dstAddr x.cmd p, v)]) ∧
    ∀ b, t.granByte (.scr k) b = s.granByte (.scr k) b)

section
variable {s : State} {k : Nat} {q : Fin 4} {x : CopyRun} {p : Nat × Nat}

theorem LastUnit.writes (h : LastUnit s k q x) {fr : From} (hmv : s.copyMove k x.cmd x.next = (fr, some p))
    (hsrc : SrcOk s k x.cmd fr) : WritesByte s k q x p (unitByte s k x.cmd fr) :=
  ⟨h.writes_local hmv hsrc, h.writes_mem hmv hsrc⟩
theorem LastUnit.writes_clipped (h : LastUnit s k q x) {e : Option (Nat × Nat)}
    (hmv : s.copyMove k x.cmd x.next = (fromClip e, some p))
    (hr : x.cmd.src.kind = .local ∧ tType x.cmd.sshape = .i8 ∧ ∀ p, e = some p → srcAddr x.cmd p < scrbytes (s.core k).res.hdr) :
    WritesByte s k q x p (e.elim 0 fun p => s.localByte k x.cmd.view (srcAddr x.cmd p)) :=
  unitByte_fromClip s k x.cmd e ▸ h.writes hmv (srcOk_fromClip hr)

end

/-- Settles O38: the last unit's byte goes where the rule of its operation says, and the completion of a ring copy leaves the
rings alone. -/
theorem copyEngineMoves : Obligations.CopyEngineMoves := by
  unfold Obligations.CopyEngineMoves
  refine ⟨?_, ?_⟩
  · intro s k q x hon hhalt hrun hdone hcan hwait hbuf hlast hty hsfe hdwe hbps hbpd
    have h : LastUnit s k q x := ⟨hon, hhalt, hrun, hdone, hcan, hwait, hbuf, hlast, ⟨hty, hsfe, hdwe, hbps, hbpd⟩⟩
    refine ⟨fun hop => ?fill, fun hop e he hr => ?copy, fun hop e he hr => ?gather, fun hop hr e he => ?scatter⟩
    case fill => exact h.writes (copyMove_fill s k x.next hty hop) fun _ _ hij => From.noConfusion hij
    case copy => exact h.writes_clipped (he ▸ copyMove_copy s k x.next hty hop) hr
    case gather => exact h.writes_clipped (he ▸ copyMove_gather s k x.next hty hop) hr
    case scatter =>
      have hmv := copyMove_scatter s k x.next hty hop
      refine ⟨fun p hp => ?_, fun hnone => ?_⟩
      · exact h.writes_clipped (hmv.trans (by rw [← hp, he])) hr
      · exact h.omits (by rw [hmv, ← hnone, he])
  · intro s k q x hon _ hrun hdone hcan hfirst hsil _ hout hmark hevt
    exact exec_copyCompletion_rings hon hrun hdone hcan hfirst hsil hout hmark hevt

end Sys2Proof.Proofs
end
